-- ==== Sys2Proof/Word.lean ====
section
/-!
DEFINITION. Words and index types of the Basnex BX3248, and the plainest arithmetic on them.
Number conventions: spec/00_scope.md R5 (bit 0 least significant), R6 (little-endian fields).
-/
namespace Sys2Proof

abbrev Byte := BitVec 8
/-- One process image word (01 R14). -/
abbrev Word := BitVec 32
/-- The 64-bit body of a Dziak block (08 R175). -/
abbrev Block := BitVec 64
/-- A block as a lane carries it, bit 0 first: sync header, scrambled body, parity (08 R175). -/
abbrev LaneWord := BitVec 67
/-- A MAC address, byte 0 of the byte string in the most significant byte (00 R6, network order). -/
abbrev Mac := BitVec 48

/-- An Ethernet port, P0 to P3 (00 R4). -/
abbrev Port := Fin 4
/-- A Dziak lane (00 R4). -/
abbrev Lane := Fin 32
/-- A Dziak link of the lane plan (09 R208): at most 32. -/
abbrev Link := Fin 32
/-- A virtual channel of a link (08, "Eight virtual channels share the link"). -/
abbrev VC := Fin 8
/-- A traffic class (06 R119). -/
abbrev TClass := Fin 8
/-- An Avocet channel (11). -/
abbrev Chan := Fin 64
/-- A gPTP domain, 0 or 1 (05). -/
abbrev Dom := Fin 2
/-- A talker stream queue, or a listener stream (00 R4). -/
abbrev Stream := Fin 1024
/-- A redundant lane pair (09 R208). -/
abbrev PairIx := Fin 16

end Sys2Proof
end

