-- ==== Sys2Proof/Syntax.lean ====
section
/-!
DEFINITION. The commands of the block: one constructor of `Instr` for each row of
spec/opcode_table.json, with the operands that the row's event carries from outside the block.
The table gives the rows no bits; the operands are what the row's rule names (notes/assumptions/1.md).
-/
namespace Sys2Proof

/-- The four internal rails (02 R26). -/
inductive Rail where
  | vddCore | vddSerdes | vdd18 | vaux
deriving DecidableEq, Repr

/-- The two I/O banks with supplies of their own (02 R25). -/
inductive Bank where
  | p | q
deriving DecidableEq, Repr

/-- A flash slot (03 R49). -/
inductive Slot where
  | a | b
deriving DecidableEq, Repr

/-- The binary straps as sampled at release, EXTPWR apart, which R28 latches (02 R32). -/
structure BinaryStraps where
  bootSlot : Bool
  pipW16 : Bool
  bitternPort : BitVec 2
  freezeArm : Bool
  mgmtLock : Bool
deriving DecidableEq, Repr

/-- What the release of the internal reset samples: the binary straps (R32), the level of each
bank supply in mV (R25), the junction sensor's reading (15 R330) and FREEZE_N held low (17 R345). -/
structure ReleaseSample where
  straps : BinaryStraps
  bankPMv : Nat
  bankQMv : Nat
  celsius : Int
  freezeLow : Bool
deriving DecidableEq, Repr

/-- The voltages of the eight ladder pins at one reading, in units of 0.1 mV (02 R34, R35). -/
structure LadderSample where
  sidHi : Nat
  sidLo : Nat
  lplan : Nat
  pmode0 : Nat
  pmode1 : Nat
  pmode2 : Nat
  pmode3 : Nat
  ltol : Nat
deriving DecidableEq, Repr

/-- The logical fields of the OTP (03 R47). -/
structure OtpBits where
  serial : BitVec 64
  mgmtKey : BitVec 128
  hash0 : BitVec 256
  hash1 : BitVec 256
  hash2 : BitVec 256
  hash3 : BitVec 256
  programmed : BitVec 4
  revoked : BitVec 4
  floor : BitVec 127
deriving DecidableEq, Repr

/-- One of the three fuses of every logical bit, as read: a bit set in `one` reads blown, a bit set
in `zero` reads unblown, and a bit set in neither reads as no value (03 R47). -/
structure FuseRead where
  one : OtpBits
  zero : OtpBits
deriving DecidableEq, Repr

/-- EXTPWR as the sequencer reads it at power-on (02 R28): its level, and whether every supply has been below its
power-on-reset threshold since it was last read. -/
structure ExtpwrRead where
  level : Bool
  afresh : Bool
deriving DecidableEq, Repr

/-- What reading a slot returned (03 R52): whether its chip answers, the bytes read consistently from
region offset 0 on, and whether the read after them returned inconsistent data twice. -/
structure SlotRead where
  answers : Bool
  bytes : List Byte
  broken : Bool
deriving DecidableEq, Repr

/-- Where a dual-clock queue over- or underflows (01 R17). -/
inductive DcqSite where
  | port (p : Port)
  | lane (n : Lane)
deriving DecidableEq, Repr

/-- The scrubbed memories (15 R327), the Heron tables and the OTP apart. -/
inductive MemoryId where
  | packetBuffer | lanePool | replayStore | processImage | multiTables | singleTables
deriving DecidableEq, Repr

/-- Bits of a stored word that an upset has flipped (15 R328): the memory, the word number, the bit
numbers. For the tables, `copy` names the copy and `addr` is the object ID of the record. -/
structure Upset where
  mem : MemoryId
  copy : Nat
  addr : Nat
  bits : List Nat
deriving DecidableEq, Repr

/-- An upset in one Heron copy: a bit of a table word, or of an output in one ck (06 R127). -/
inductive HeronUpset where
  | gateBit (copy : Fin 3) (p : Port) (entry bit : Nat) (shadow : Bool)
  | eventBit (copy : Fin 3) (record bit : Nat) (shadow : Bool)
  | vector (copy : Fin 3) (p : Port) (bits : BitVec 8)
  | hold (copy : Fin 3) (p : Port)
  | entry (copy : Fin 3) (p : Port) (bits : Nat)
  | nextEvent (copy : Fin 3) (bits : Nat)
  | fired (copy : Fin 3) (record : Nat)
deriving DecidableEq, Repr

/-- A gPTP Sync (05 R104): the domain number it carries and its port, the master's time it gives (origin and
correction, in units of 2^-32 ns), the phase of the capture and the grandmaster identity. -/
structure SyncInfo where
  number : Nat
  port : Port
  master : Int
  phase : Fin 8
  gm : BitVec 64
deriving DecidableEq, Repr

/-- An Announce frame (05 R103): the domain number and log message interval of its header, and its data set in the
order in which the best master clock algorithm of IEEE 802.1AS-2020 compares it. -/
structure AnnounceInfo where
  number : Nat
  logInterval : Int
  port : Port
  priority1 : Nat
  clockClass : Nat
  accuracy : Nat
  variance : Nat
  priority2 : Nat
  gm : BitVec 64
  steps : Nat
  source : Nat
deriving DecidableEq, Repr

/-- The Pdelay messages (05 R103): a request, a response with the request's receipt time, and the
follow-up with the response's departure, times in units of 2^-32 ns. -/
inductive PdelayMsg where
  | req (seq : BitVec 16)
  | resp (seq : BitVec 16) (t2 : Int)
  | followUp (seq : BitVec 16) (t3 : Int)
deriving DecidableEq, Repr

/-- A queue whose head frame can pass its deadline (06 R137). -/
inductive QueueRef where
  | stream (q : Stream)
  | cls (p : Port) (c : TClass)
deriving DecidableEq, Repr

/-- A received PFC frame (07 R152): the classes it names and the quanta for classes 0 to 7. -/
structure PfcInfo where
  enable : BitVec 8
  quanta : List Nat
deriving DecidableEq, Repr

/-- A received fragment of a pre-empted frame (07 R151): SMD-S or SMD-C, its frame and fragment
counts, whether it is the final fragment, and whether its check is good. -/
structure Mpacket where
  start : Bool
  frameCount : Fin 4
  fragCount : Fin 4
  final : Bool
  good : Bool
  bytes : List Byte
deriving DecidableEq, Repr

/-- Why a port loses its link (07 R168), the device's own causes apart. -/
inductive LinkLoss where
  | blockLock | hiBer | localFault | remoteFault | syncLost | clause37Restart | sgmiiLinkBit
deriving DecidableEq, Repr

/-- A port whose link criteria hold (07 R170), and the base page that its partner has sent in Clause 37
auto-negotiation, which only 1000BASE-X of code 4 has (07 R145). -/
structure PortLink where
  port : Port
  page : BitVec 16
deriving DecidableEq, Repr

/-- The strobe of a host write (10 R230): the bytes that it enables, and how many ck before the landing PWE_N rose
(01 R13, R19). -/
structure Strobe where
  be : BitVec 4
  lag : Fin 5
deriving DecidableEq, Repr

/-- Rows of blocks as they come in on the active lanes of a link (08 R178). -/
abbrev Rows := List (List LaneWord)

/-- Which block carried S (08 R189). -/
inductive SKind where
  | tail | ack | nak | audit
deriving DecidableEq, Repr

/-- The causes of a retrain (09 R220, numbered as 15 R335 numbers them). -/
inductive RetrainCause where
  | replayLimit | window | audit | dcq | commit | closedEye | partnerTs1 | timeout
deriving DecidableEq, Repr

/-- The cause of an Avocet bus error (11 R265), with the word in error for an ECC error. -/
inductive BusCause where
  | ecc | outside | conflict
deriving DecidableEq, Repr

/-- A wake cause of S3 (14 R317). -/
inductive WakeCause where
  | tolerance
  | frame (p : Port)
  | clause37 (p : Port)
  | block (k : Link)
  | hostWrite
  | edge (i : Fin 3)
  | brownOut
  | overtemp
deriving DecidableEq, Repr

/-- What the flash work of an IMAGE TRANSFER chunk ended with (13 R296). -/
structure FlashResult where
  programmed : Bool
  read : SlotRead
deriving DecidableEq, Repr

/-- A Hidiquel request frame (13 R284), its opcode apart, which the row gives. -/
structure HidFrame where
  dst : Mac
  src : Mac
  ctag : Option (BitVec 16)
  version : Byte
  flags : Byte
  serial : BitVec 64
  counter : BitVec 64
  reqTag : BitVec 16
  length : Nat
  payload : List Byte
  tag : BitVec 96
deriving DecidableEq, Repr

/-- The commands: one constructor for each row of spec/opcode_table.json, in the table's order. -/
inductive Instr where
  | powerOn (vinMv vdd18Mv : Nat) (extpwr : ExtpwrRead)
  | railBrownOut (rail : Rail)
  | railsInRegulation
  | resetN (lowNs : Nat)
  | vinUndervoltage (mv : Nat)
  | resetRelease (x : ReleaseSample)
  | ladderReading (x : LadderSample)
  | corePllLock
  | processImageClearDone
  | otpReadDone (a b c : FuseRead)
  | jedecIdReadDone (id1 id0 : BitVec 24) (standA standB : BitVec 32)
  | slotCheckDone (r : SlotRead)
  | configDone
  | localTimeout
  | heronStart
  | srefclkFault
  | srefclkRecovery
  | xinLoss
  | bankBrownOut (b : Bank) (mv : Nat)
  | bankBrownOutRecovery (b : Bank) (mv : Nat)
  | overtemperature (celsius : Int)
  | thermalShutdown (celsius : Int)
  | dcqFault (w : DcqSite)
  | cycleBoundary
  | gateEntry (p : Port)
  | heronEvent
  | heronVote (u : List HeronUpset)
  | syncReceived (x : SyncInfo)
  | syncLossTimeout (d : Dom)
  | alignmentComplete
  | announceReceived (x : AnnounceInfo)
  | pdelayReqSend (p : Port)
  | pdelayReceived (p : Port) (m : PdelayMsg) (phase : Fin 8)
  | signalingReceived (p : Port)
  | ppsOutPulse
  | ppsOutPulseEnd
  | timeInputEdge (i : Fin 3) (rising : Bool) (ps : Fin 1250)
  | serdesLatencyRemeasure (p : Port) (txPs rxPs : Nat)
  | timeBlockSend (k : Link)
  | echoReceived (k : Link) (body : Block) (phase : Fin 8)
  | echoMissing (k : Link)
  | wheelSlot
  | coarseSlot
  | deadlineExpiry (q : QueueRef)
  | transmitSelection (p : Port)
  | transmitComplete (p : Port)
  | frameReceive (p : Port) (bytes : List Byte) (codeError : Bool)
  | recoveryResetTimeout (l : Stream)
  | pfcReceived (p : Port) (x : PfcInfo)
  | macControlIgnored (p : Port) (opcode : BitVec 16)
  | pauseExpiry (p : Port) (c : TClass)
  | pfcSend (p : Port) (c : TClass)
  | pfcRefresh (p : Port) (c : TClass)
  | verifyTimer (p : Port)
  | verifyMpacketReceived (p : Port) (respond : Bool)
  | mpacketReceived (p : Port) (m : Mpacket)
  | portDown (p : Port) (w : LinkLoss)
  | portUp (x : PortLink)
  | linkUpHoldEnd (p : Port)
  | sgmiiInbandWord (p : Port) (link : Bool) (speed : Fin 3) (full : Bool)
  | phyPoll (p : Port) (value : BitVec 16)
  | phyRestart (p : Port)
  | ctUnderrun (p : Port)
  | tunnelFcsError (q : Stream)
  | tunnelOverlength (q : Stream)
  | packetReceived (k : Link) (before head middle last : Rows)
  | pairResetTimeout (j : PairIx) (v : VC)
  | ackTimer (k : Link)
  | ackReceived (k : Link) (kind : SKind) (body : Block)
  | nakReceived (k : Link) (body : Block)
  | replayTimeout (k : Link)
  | linkDown (k : Link)
  | packetSend (k : Link)
  | creditWaitDeadline (k : Link) (v : VC)
  | creditReturn (k : Link) (v : VC)
  | auditSend (k : Link)
  | auditReceived (k : Link) (body : Block)
  | controlBlockDiscard (k : Link) (body : Block)
  | detectBeacon (k : Link)
  | backoffReset (k : Link)
  | ts1Detected (k : Link) (body : Block)
  | blockLock (k : Link) (lane : Fin 8) (locked : Bool)
  | alignComplete (k : Link) (lanes : BitVec 8)
  | paramReceived (k : Link) (body : Block)
  | paramAckReceived (k : Link) (body : Block)
  | speedCountdownEnd (k : Link)
  | eqReqReceived (k : Link) (body : Block)
  | eqDoneReceived (k : Link) (body : Block)
  | readyReceived (k : Link) (lane : Fin 8) (body : Block)
  | trainingTimeout (k : Link)
  | retrain (k : Link) (w : RetrainCause)
  | eyeMapComplete (n : Lane) (fast : Bool) (points : BitVec 2048)
  | dfeAdapt (n : Lane) (errPos d1 d2 d3 : Bool)
  | calBlockSend (n : Lane)
  | calBlockReceived (n : Lane) (body : Block)
  | laneSleep (k : Link)
  | laneWake (k : Link)
  | sleepKeepalive (k : Link)
  | hostWrite (pa : BitVec 17) (data : Word) (x : Strobe)
  | halfReadLatch (pa : BitVec 17)
  | eventFlagClear (w : Fin 13) (bits : Word)
  | attnmaskWrite (value : Word) (be : BitVec 4)
  | doorbellRing (bits : Word)
  | hostltrWrite (value : Word) (be : BitVec 4)
  | rearmPulseEnd
  | avocetTrigger (c : Chan)
  | avocetHalfCompletion (c : Chan)
  | avocetFullCompletion (c : Chan)
  | avocetBusError (c : Chan) (w : BusCause)
  | listenAgeDiscard (l : Stream)
  | lanepoolAgeDiscard (k : Link) (v : VC)
  | discover (p : Port) (r : HidFrame)
  | read (p : Port) (r : HidFrame)
  | stage (p : Port) (r : HidFrame)
  | commit (p : Port) (r : HidFrame)
  | abort (p : Port) (r : HidFrame)
  | counterSnapshot (p : Port) (r : HidFrame)
  | eventSubscribe (p : Port) (r : HidFrame)
  | imageTransfer (p : Port) (r : HidFrame)
  | imageTransferDone (x : FlashResult)
  | transferIdleTimeout
  | slotSwitch (p : Port) (r : HidFrame)
  | slotSwitchReset
  | rollbackFloorRaise (p : Port) (r : HidFrame)
  | floorRaiseDone
  | reservedOpcode (p : Port) (opcode : Byte) (r : HidFrame)
  | powerLevelChange
  | efftolUpdate
  | s3Entry
  | s3Exit (w : WakeCause)
  | s4Entry (wakeNHigh : Bool)
  | bitternFrame (bytes : List Byte)
  | bitternLinkChange (up : Bool)
  | wakeN
  | s4Exit
  | scrubRead (m : MemoryId) (u : List Upset)
  | freezeN (lowNs : Nat) (ps : Fin 1250)
  | readoutStart (memsel : Bool)
  | readoutEnd
  | slotSwitchCheckDone (r : SlotRead)
  | portLowPowerEntry (p : Port)
  | portLowPowerExit (p : Port)
  | readoutNibble
  | dunlinSecondsWrap (c : Fin 3)
  | vinRestart (mv : Nat)
deriving DecidableEq, Repr

end Sys2Proof
end

