-- ==== Sys2Proof/Decode.lean ====
section
/-!
DEFINITION. The command that a word spells by the table's bits. spec/opcode_table.json gives no row any
bits or fields, so no word spells a command, and nothing is decoded (notes/assumptions/1.md).
-/
namespace Sys2Proof

/-- No row of the table has bits: no word is a command. -/
def decodeTableWord (_nbits _w : Nat) : Option Instr := none

end Sys2Proof
end

