-- ==== Sys2Proof/Config.lean ====
section
/-!
DEFINITION. What the spec leaves open: constants with no body, applied to the state's counter of free
values or to the operands they depend on (notes/assumptions/5.md). No statement rests on a value of one.
-/
namespace Sys2Proof.Config

/-- A session value drawn from the entropy source (13 R287). -/
opaque sessionValue : Nat → BitVec 32
/-- The gains of the servo's proportional and integral terms, in units of 2^-16: only the loop's time constant is
given (05 R104). -/
opaque servoKp : Nat
opaque servoKi : Nat
/-- A RESET_N pulse of 0.5 to 2 us: full reset or none (02 R29). -/
opaque resetMidPulse : Nat → Bool
/-- A FREEZE_N pulse below 10 ns: latched or not, counted or not (17 R345). -/
opaque freezeShortPulse : Nat → Bool
/-- The bytes of the device's 45 scan chains, end to end, at a freeze; and the place at which each domain's
chain ends among them (17 R351). -/
opaque scanByte : Nat → Nat → BitVec 8
opaque scanCut : Nat → Nat
/-- A data byte of a memory whose placement is not given: packet buffer, lane pool, replay store (17 R351). -/
opaque memoryByte : Nat → Nat → Nat → BitVec 8
/-- Where a word of a scrubbed memory lies (15 R329): a word of the packet buffer, the lane pool or the replay
store belongs to this owner. The spaces: 0 frame, 1 link transmit queue, 2 management receive, 3 replay packet. -/
opaque holds : Nat → Nat → Nat → Bool
/-- The link and VC, 8k + v, whose receive buffer a word of the lane pool lies in; from 256 on, none. -/
opaque poolVc : Nat → Nat
/-- The byte offset in its owner at which a word of the packet buffer or the lane pool lies: the owner a frame, or the
link and VC 8k + v. -/
opaque wordOffset : Nat → Nat → Nat
/-- A byte of a talker frame buffer that no write has filled, below one that was written (11 R262). -/
opaque unwrittenByte : Nat → Nat → BitVec 8
/-- The fuses that a floor raise has completed when a reset cuts it, taken within its range (13 R298). -/
opaque fusesDone : Nat → Nat
/-- Which of several holders of a word is meant. -/
opaque pick : Nat → Nat
/-- The periods that a domain runs after its synchroniser, its cycle count, and the ck that CK still runs after
the edge, taken within its bound (17 R347, R350). -/
opaque stopPeriods : Nat → Nat → BitVec 2
opaque stopCount : Nat → Nat → BitVec 64
opaque stopLag : Nat → Nat
/-- The metal revision (03 R54). -/
opaque metalRevision : BitVec 4
/-- A lane's receive and transmit latency as calibrated at training, units of 2^-32 ns (05 R115). -/
opaque laneRxLatency : Nat → Nat
opaque laneTxLatency : Nat → Nat
/-- A port's serdes latency as calibrated when the port starts, units of 2^-32 ns (05 R109). -/
opaque portLatency : Nat → Nat
/-- The residual of a crossing from CK to MTX, taken within one period of the slower clock, units of 2^-32 ns
(01 R13; 05 R108). -/
opaque egressResidual : Nat → Nat
/-- What a lane's scrambler holds before the first block: it has no reset and no seed (08 R176). -/
opaque scramblerStart : Nat → BitVec 58
/-- The DFE taps that EQUALIZE leaves (09 R224). -/
opaque equalizedTap : Nat → BitVec 6
/-- A status item whose encoding no rule gives, from the number of the item and its value (13 R290). -/
opaque statusItem : Nat → Nat → BitVec 64
/-- Time settings in BARE, where no TIME record holds: lock threshold, loss timeout, sync interval,
port masks, PPS_OUT width (03 R60; 05 R104). -/
opaque bareTime : Nat → Nat

end Sys2Proof.Config
end

