-- ==== Sys2Proof/Machine/Bits.lean ====
section
/-!
DEFINITION. Helpers that the meanings share: keyed tables in one canonical form, little-endian byte
fields (00 R6), bit fields (00 R5), and the checks CRC-32, CRC-8 and CRC-4 (08 R181, R185).
-/
namespace Sys2Proof.Machine

/-- A table keyed by a number, in rising key order. An absent key reads as the table's default. -/
abbrev SMap (α : Type) := List (Nat × α)

/-- The value at a key. -/
def mFind {α : Type} : SMap α → Nat → Option α
  | [], _ => none
  | (k, v) :: m, j => if j = k then some v else mFind m j

/-- The value at a key, or the default of an absent key. -/
def mGetD {α : Type} (m : SMap α) (j : Nat) (d : α) : α := (mFind m j).getD d

/-- The table with the value at a key set; keys stay rising. -/
def mSet {α : Type} : SMap α → Nat → α → SMap α
  | [], j, v => [(j, v)]
  | (k, w) :: m, j, v =>
    if j < k then (j, v) :: (k, w) :: m
    else if j = k then (j, v) :: m
    else (k, w) :: mSet m j v

/-- The table without a key. -/
def mErase {α : Type} : SMap α → Nat → SMap α
  | [], _ => []
  | (k, w) :: m, j => if j = k then mErase m j else (k, w) :: mErase m j

/-- The table with the value at a key set, or without the key. -/
def mPut {α : Type} (m : SMap α) (j : Nat) (v : Option α) : SMap α :=
  match v with
  | some x => mSet m j x
  | none => mErase m j

/-- A list with `x` placed before the first element it may precede. -/
def placeIn {α : Type} (le : α → α → Bool) (x : α) : List α → List α
  | [] => [x]
  | y :: l => if le x y then x :: y :: l else y :: placeIn le x l

/-- A list in rising order. -/
def rising {α : Type} (le : α → α → Bool) (l : List α) : List α := l.foldr (placeIn le) []

/-- Keys strictly rising. -/
def mSorted {α : Type} : SMap α → Bool
  | [] => true
  | [_] => true
  | (j, _) :: (k, w) :: m => decide (j < k) && mSorted ((k, w) :: m)

/-- `w` bits of a number from bit `lo` up (00 R5). -/
def bitsOf (n lo w : Nat) : Nat := n / 2 ^ lo % 2 ^ w

/-- A number from little-endian bytes (00 R6). -/
def leNat : List Byte → Nat
  | [] => 0
  | b :: r => b.toNat + 256 * leNat r

/-- `n` little-endian bytes of a number (00 R6). -/
def leBytes : Nat → Nat → List Byte
  | 0, _ => []
  | n + 1, v => BitVec.ofNat 8 v :: leBytes n (v / 256)

/-- A number from bytes in network order (00 R6). -/
def beNat (l : List Byte) : Nat := l.foldl (fun a b => a * 256 + b.toNat) 0

/-- `n` bytes of a number in network order (00 R6). -/
def beBytes (n v : Nat) : List Byte := (leBytes n v).reverse

/-- The bytes of a field: `n` bytes from offset `off`. -/
def slice (b : List Byte) (off n : Nat) : List Byte := (b.drop off).take n

/-- A little-endian field of a record (00 R6). -/
def fld (b : List Byte) (off n : Nat) : Nat := leNat (slice b off n)

/-- `l` cut or filled with zero bytes to `n` bytes. -/
def padTo (n : Nat) (l : List Byte) : List Byte := l.take n ++ List.replicate (n - l.length) 0

/-- The bytes of a record written over `n` zero bytes (reserved fields read zero, 00 R8). -/
def layout (n : Nat) (fields : List (Nat × List Byte)) : List Byte :=
  fields.foldl (fun acc f => padTo n (acc.take f.1 ++ f.2 ++ acc.drop (f.1 + f.2.length))) (List.replicate n 0)

/-- A Bool as the bit of a given weight. -/
def bitW (b : Bool) (weight : Nat) : Nat := if b then weight else 0

/-- Quotient rounded up. -/
def cdiv (a b : Nat) : Nat := (a + b - 1) / b

/-- One byte into a reflected CRC-32 register (08 R185, polynomial 0x04C11DB7). -/
def crc32Byte (r : Nat) (b : Byte) : Nat :=
  (List.range 8).foldl (fun x _ => if x % 2 = 1 then (x / 2) ^^^ 0xEDB88320 else x / 2) (r ^^^ b.toNat)

/-- The CRC-32 of the IEEE 802.3 FCS over bytes in order (08 R185). -/
def crc32 (l : List Byte) : Nat := l.foldl crc32Byte 0xFFFFFFFF ^^^ 0xFFFFFFFF

/-- CRC-8 of a control block: polynomial x^8 + x^2 + x + 1 over body bytes 0 to 6, each most
significant bit first (08 R181). -/
def crc8 (b : Block) : Nat :=
  (List.range 7).foldl (fun r j =>
    (List.range 8).foldl (fun x _ => if x ≥ 128 then ((x * 2) % 256) ^^^ 7 else x * 2)
      (r ^^^ bitsOf b.toNat (8 * j) 8)) 0

/-- CRC-4 of a TIME block: polynomial x^4 + x + 1 over body bits 63 down to 4 (08 R181). -/
def crc4 (b : Block) : Nat :=
  (List.range 60).foldl (fun r i =>
    let top := (r / 8 + bitsOf b.toNat (63 - i) 1) % 2
    let x := (r * 2) % 16
    if top = 1 then x ^^^ 3 else x) 0

/-- A control block's CRC-8 is good (08 R181). -/
def crc8Good (b : Block) : Bool := bitsOf b.toNat 56 8 == crc8 b

/-- A control block body with its CRC-8 placed in bits [63:56] (08 R181). -/
def withCrc8 (b : Nat) : Block :=
  let low := b % 2 ^ 56
  BitVec.ofNat 64 (low + crc8 (BitVec.ofNat 64 low) * 2 ^ 56)

/-- A TIME block body with its CRC-4 placed in bits [3:0] (08 R181). -/
def withCrc4 (b : Nat) : Block :=
  let hi := b - b % 16
  BitVec.ofNat 64 (hi + crc4 (BitVec.ofNat 64 hi))

/-- A frame's bytes without its FCS (00 R147, lengths are counted with it). -/
def frameBody (l : List Byte) : List Byte := l.take (l.length - 4)

/-- A frame's FCS is good (07 R147). -/
def fcsGood (l : List Byte) : Bool := leNat (l.drop (l.length - 4)) == crc32 (frameBody l)

/-- A frame with its FCS (07 R162: the MAC computes the FCS over the bytes it sends). -/
def withFcs (l : List Byte) : List Byte := l ++ leBytes 4 (crc32 l)

/-- A frame ended by the inverse of its FCS: the stomp (07 R159). -/
def withStomp (l : List Byte) : List Byte := l ++ leBytes 4 (crc32 l ^^^ 0xFFFFFFFF)

/-- The number read as signed in `w` bits. -/
def signedOf (w n : Nat) : Int := if n % 2 ^ w ≥ 2 ^ (w - 1) then (n % 2 ^ w : Nat) - (2 ^ w : Nat) else (n % 2 ^ w : Nat)

/-- The representative of `x` modulo `c` that lies in [-c/2, c/2) (03 R59, 05 R107). -/
def centred (x : Int) (c : Nat) : Int := (x + c / 2) % c - c / 2

/-- Positions of an object in a list that satisfies a test, or none. -/
def findIx {α : Type} (f : α → Bool) : List α → Nat → Option Nat
  | [], _ => none
  | a :: l, i => if f a then some i else findIx f l (i + 1)

/-- The list with position `i` replaced. -/
def setIx {α : Type} (l : List α) (i : Nat) (v : α) : List α := l.set i v

/-- The smallest number below `n` that passes a test, or none. -/
def firstBelow (n : Nat) (f : Nat → Bool) : Option Nat := (List.range n).find? f

/-- Bit `i` of a mask held as a number. -/
def hasBit (m i : Nat) : Bool := m.testBit i

/-- A mask with bit `i` set. -/
def setBit (m i : Nat) : Nat := m ||| 2 ^ i

/-- A mask with bit `i` cleared. -/
def clrBit (m i : Nat) : Nat := if m.testBit i then m - 2 ^ i else m

/-- The number of set bits among the low `w`. -/
def popCount (w m : Nat) : Nat := ((List.range w).filter (fun i => m.testBit i)).length

end Sys2Proof.Machine
end

