-- ==== Sys2Proof/Machine/Records.lean ====
section
/-!
DEFINITION. The records of the Oczal image's sections (04 R73 to R91): their fields, their reading
from bytes, their bytes, and the ranges that the structure check (R72) and STAGE (13 R292) test.
The same bytes are a record in an image, a record staged and a record read (13, "How it works").
-/
namespace Sys2Proof.Machine

/-- IDENT (R73). -/
structure IdentRec where
  mode : Nat
  expected : Nat
  mask : Nat
  reqs : List Nat
deriving DecidableEq, Repr

/-- PORTS (R74). -/
structure PortsRec where
  mode : Nat
  preempt : Bool
  verification : Bool
  pauseTx : Bool
  pauseRx : Bool
  holdUs : Nat
  express : Nat
  pausable : Nat
  ctStart : Nat
  verifyMs : Nat
  maxFrame : Nat
  addFrag : Nat
  phyAddr : Nat
  mac : Mac
deriving DecidableEq, Repr

/-- TIME (R75). -/
structure TimeRec where
  policy : Nat
  alignment : Nat
  slewPpm : Nat
  en0 : Bool
  en1 : Bool
  preferred : Bool
  timeoutMs : Nat
  cycle : Nat
  baseSec : Nat
  baseNs : Nat
  gptp0 : Nat
  gptp1 : Nat
  mask0 : Nat
  mask1 : Nat
  logSync0 : Int
  logSync1 : Int
  lockNs : Nat
  lossMs : Nat
  ppsUs : Nat
deriving DecidableEq, Repr

/-- GATES (R76). -/
structure GatesRec where
  port : Nat
  vector : BitVec 8
  hold : Bool
  interval : Nat
deriving DecidableEq, Repr

/-- EVENTS (R77). -/
structure EventsRec where
  offset : Nat
  id : Nat
  patn : Bool
  out0 : Nat
  out1 : Nat
deriving DecidableEq, Repr

/-- STREAMS (R78). -/
structure StreamsRec where
  queue : Nat
  members : Nat
  rtag : Bool
  cls : Nat
  rate : Nat
  burst : Nat
  lenMode : Nat
  overhead : Nat
  refillFull : Bool
  staleSkip : Bool
  cutThrough : Bool
  buffers : Nat
  deadline : Nat
  maxFrame : Nat
  template : List Byte
deriving DecidableEq, Repr

/-- LISTEN (R79). -/
structure ListenRec where
  stream : Nat
  meter : Nat
  recovery : Nat
  delivery : Nat
  bufs : Nat
  link : Nat
  strip : Bool
  maxFrame : Nat
  staleUs : Nat
deriving DecidableEq, Repr

/-- FILTERS (R80). -/
structure FiltersRec where
  ports : Nat
  enables : Nat
  pcp : Nat
  action : Nat
  vid : Nat
  etherType : Nat
  dst : Mac
  src : Mac
  argA : Nat
  argB : Nat
deriving DecidableEq, Repr

/-- POLICE (R81). -/
structure PoliceRec where
  rate : Nat
  burst : Nat
  lenMode : Nat
  overhead : Nat
  openId : Nat
  closeId : Nat
  gated : Bool
  initOpen : Bool
  refillFull : Bool
deriving DecidableEq, Repr

/-- FRER (R82). -/
structure FrerRec where
  algorithm : Nat
  history : Nat
  timeoutUs : Nat
  passTagless : Bool
deriving DecidableEq, Repr

/-- LANES (R83). -/
structure LanesRec where
  link : Nat
  rate : Nat
  ackCount : Nat
  limitN : Nat
  limitM : Nat
  ackNs : Nat
  replayNs : Nat
  auditUs : Nat
  trainUs : Nat
  pairElim : Bool
  timeBlocks : Bool
deriving DecidableEq, Repr

/-- VCMAP (R84). -/
structure VcmapRec where
  link : Nat
  vc : Nat
  units : Nat
  action : Nat
  queue : Nat
deriving DecidableEq, Repr

/-- PIMAP (R85). -/
structure PimapRec where
  base : Nat
  len : Nat
  kind : Nat
  banked : Bool
  swapId : Nat
  base1 : Nat
deriving DecidableEq, Repr

/-- DMAPROG (R86). -/
structure DmaRec where
  channel : Nat
  index : Nat
  trig : Nat
  arg : Nat
  srcSpace : Nat
  dstSpace : Nat
  sw : Nat
  dw : Nat
  half : Bool
  full : Bool
  patn : Bool
  hidEvent : Bool
  next : Nat
  src : Nat
  dst : Nat
  count : Nat
deriving DecidableEq, Repr

/-- POWER (R87): the filters are 8 patterns of 128 bytes, each with a mask of 16 bytes. -/
structure PowerRec where
  deepest : Nat
  wakeMagic : Bool
  wakeLink : Bool
  wakePin : Bool
  filterEn : Nat
  guardUs : Nat
  netTol : Nat
  filters : List Byte
deriving DecidableEq, Repr

/-- MGMT record 0 (R88). -/
structure MgmtRec where
  etherType : Nat
  ports : Nat
  mgmtAddr : Mac
  devAddr : Mac
deriving DecidableEq, Repr

/-- A MGMT key record (R88). -/
structure KeyRec where
  serial : BitVec 64
  wrapped : List Byte
deriving DecidableEq, Repr

/-- SAFE (R90). -/
structure SafeRec where
  v0 : BitVec 8
  v1 : BitVec 8
  v2 : BitVec 8
  v3 : BitVec 8
deriving DecidableEq, Repr

/-- CAL (R91). -/
structure CalRec where
  rate : Nat
  openId : Nat
  closeId : Nat
  quiet : Bool
  dfe : Bool
  lanes : Nat
deriving DecidableEq, Repr

/-! ### Reading from bytes, and back -/

def bytesAt (o : Nat) (b : List Byte) : Nat × List Byte := (o, b)
/-- A numeric field for `layout`. -/
def num (o n v : Nat) : Nat × List Byte := (o, leBytes n v)

def identOf (b : List Byte) : IdentRec :=
  { mode := fld b 0 1, expected := fld b 1 1, mask := fld b 2 1,
    reqs := (List.range 32).map (fun i => fld b (8 + 2 * i) 2) }
def identBytes (r : IdentRec) : List Byte :=
  layout 72 [num 0 1 r.mode, num 1 1 r.expected, num 2 1 r.mask, (8, r.reqs.flatMap (leBytes 2))]

def portsOf (b : List Byte) : PortsRec :=
  { mode := fld b 0 1, preempt := hasBit (fld b 1 1) 0, verification := hasBit (fld b 1 1) 1,
    pauseTx := hasBit (fld b 1 1) 2, pauseRx := hasBit (fld b 1 1) 3, holdUs := fld b 2 2,
    express := fld b 4 1, pausable := fld b 5 1, ctStart := fld b 6 1, verifyMs := fld b 7 1,
    maxFrame := fld b 8 2, addFrag := fld b 10 1, phyAddr := fld b 11 1,
    mac := BitVec.ofNat 48 (beNat (slice b 12 6)) }
def portsBytes (r : PortsRec) : List Byte :=
  layout 24 [num 0 1 r.mode,
    num 1 1 (bitW r.preempt 1 + bitW r.verification 2 + bitW r.pauseTx 4 + bitW r.pauseRx 8),
    num 2 2 r.holdUs, num 4 1 r.express, num 5 1 r.pausable, num 6 1 r.ctStart, num 7 1 r.verifyMs,
    num 8 2 r.maxFrame, num 10 1 r.addFrag, num 11 1 r.phyAddr, (12, beBytes 6 r.mac.toNat)]

def timeOf (b : List Byte) : TimeRec :=
  { policy := fld b 0 1, alignment := fld b 1 1, slewPpm := fld b 2 1,
    en0 := hasBit (fld b 3 1) 0, en1 := hasBit (fld b 3 1) 1, preferred := hasBit (fld b 3 1) 2,
    timeoutMs := fld b 4 4, cycle := fld b 8 4, baseSec := fld b 16 8, baseNs := fld b 24 4,
    gptp0 := fld b 32 1, gptp1 := fld b 33 1, mask0 := fld b 34 1 % 16, mask1 := fld b 35 1 % 16,
    logSync0 := signedOf 8 (fld b 36 1), logSync1 := signedOf 8 (fld b 37 1),
    lockNs := fld b 38 2, lossMs := fld b 40 2, ppsUs := fld b 42 2 }
def timeBytes (r : TimeRec) : List Byte :=
  layout 48 [num 0 1 r.policy, num 1 1 r.alignment, num 2 1 r.slewPpm,
    num 3 1 (bitW r.en0 1 + bitW r.en1 2 + bitW r.preferred 4), num 4 4 r.timeoutMs,
    num 8 4 r.cycle, num 16 8 r.baseSec, num 24 4 r.baseNs, num 32 1 r.gptp0, num 33 1 r.gptp1,
    num 34 1 r.mask0, num 35 1 r.mask1, num 36 1 (r.logSync0 % 256).toNat,
    num 37 1 (r.logSync1 % 256).toNat, num 38 2 r.lockNs, num 40 2 r.lossMs, num 42 2 r.ppsUs]

def gatesOf (b : List Byte) : GatesRec :=
  { port := fld b 0 1, vector := BitVec.ofNat 8 (fld b 1 1), hold := hasBit (fld b 2 1) 0,
    interval := fld b 4 4 }
def gatesBytes (r : GatesRec) : List Byte :=
  layout 8 [num 0 1 r.port, num 1 1 r.vector.toNat, num 2 1 (bitW r.hold 1), num 4 4 r.interval]

def eventsOf (b : List Byte) : EventsRec :=
  { offset := fld b 0 4, id := fld b 4 1, patn := hasBit (fld b 5 1) 0,
    out0 := bitsOf (fld b 5 1) 1 2, out1 := bitsOf (fld b 5 1) 3 2 }
def eventsBytes (r : EventsRec) : List Byte :=
  layout 8 [num 0 4 r.offset, num 4 1 r.id, num 5 1 (bitW r.patn 1 + r.out0 * 2 + r.out1 * 8)]

def streamsOf (b : List Byte) : StreamsRec :=
  { queue := fld b 0 2, members := fld b 2 1 % 16, rtag := hasBit (fld b 2 1) 4, cls := fld b 3 1,
    rate := fld b 4 4, burst := fld b 8 4, lenMode := fld b 12 1, overhead := fld b 13 1,
    refillFull := hasBit (fld b 14 1) 0, staleSkip := hasBit (fld b 14 1) 1,
    cutThrough := hasBit (fld b 14 1) 2, buffers := fld b 15 1, deadline := fld b 16 4,
    maxFrame := fld b 20 2, template := padTo 18 (slice b 24 18) }
def streamsBytes (r : StreamsRec) : List Byte :=
  layout 64 [num 0 2 r.queue, num 2 1 (r.members + bitW r.rtag 16), num 3 1 r.cls, num 4 4 r.rate,
    num 8 4 r.burst, num 12 1 r.lenMode, num 13 1 r.overhead,
    num 14 1 (bitW r.refillFull 1 + bitW r.staleSkip 2 + bitW r.cutThrough 4), num 15 1 r.buffers,
    num 16 4 r.deadline, num 20 2 r.maxFrame, (24, r.template)]

def listenOf (b : List Byte) : ListenRec :=
  { stream := fld b 0 2, meter := fld b 2 2, recovery := fld b 4 2, delivery := fld b 6 1,
    bufs := fld b 7 1, link := fld b 8 1, strip := hasBit (fld b 9 1) 0, maxFrame := fld b 10 2,
    staleUs := fld b 12 4 }
def listenBytes (r : ListenRec) : List Byte :=
  layout 16 [num 0 2 r.stream, num 2 2 r.meter, num 4 2 r.recovery, num 6 1 r.delivery,
    num 7 1 r.bufs, num 8 1 r.link, num 9 1 (bitW r.strip 1), num 10 2 r.maxFrame, num 12 4 r.staleUs]

def filtersOf (b : List Byte) : FiltersRec :=
  { ports := fld b 0 1 % 16, enables := fld b 1 1 % 64, pcp := fld b 2 1, action := fld b 3 1,
    vid := fld b 4 2, etherType := fld b 6 2, dst := BitVec.ofNat 48 (beNat (slice b 8 6)),
    src := BitVec.ofNat 48 (beNat (slice b 14 6)), argA := fld b 20 2, argB := fld b 22 2 }
def filtersBytes (r : FiltersRec) : List Byte :=
  layout 32 [num 0 1 r.ports, num 1 1 r.enables, num 2 1 r.pcp, num 3 1 r.action, num 4 2 r.vid,
    num 6 2 r.etherType, (8, beBytes 6 r.dst.toNat), (14, beBytes 6 r.src.toNat), num 20 2 r.argA,
    num 22 2 r.argB]

def policeOf (b : List Byte) : PoliceRec :=
  { rate := fld b 0 4, burst := fld b 4 4, lenMode := fld b 8 1, overhead := fld b 9 1,
    openId := fld b 10 1, closeId := fld b 11 1, gated := hasBit (fld b 12 1) 0,
    initOpen := hasBit (fld b 12 1) 1, refillFull := hasBit (fld b 12 1) 2 }
def policeBytes (r : PoliceRec) : List Byte :=
  layout 16 [num 0 4 r.rate, num 4 4 r.burst, num 8 1 r.lenMode, num 9 1 r.overhead,
    num 10 1 r.openId, num 11 1 r.closeId,
    num 12 1 (bitW r.gated 1 + bitW r.initOpen 2 + bitW r.refillFull 4)]

def frerOf (b : List Byte) : FrerRec :=
  { algorithm := fld b 0 1, history := fld b 1 1, timeoutUs := fld b 2 2,
    passTagless := hasBit (fld b 4 1) 0 }
def frerBytes (r : FrerRec) : List Byte :=
  layout 8 [num 0 1 r.algorithm, num 1 1 r.history, num 2 2 r.timeoutUs, num 4 1 (bitW r.passTagless 1)]

def lanesOf (b : List Byte) : LanesRec :=
  { link := fld b 0 1, rate := fld b 1 1, ackCount := fld b 2 1, limitN := fld b 3 1 % 16,
    limitM := fld b 3 1 / 16, ackNs := fld b 4 2, replayNs := fld b 6 2, auditUs := fld b 8 2,
    trainUs := fld b 10 2, pairElim := hasBit (fld b 12 1) 0, timeBlocks := hasBit (fld b 12 1) 1 }
def lanesBytes (r : LanesRec) : List Byte :=
  layout 16 [num 0 1 r.link, num 1 1 r.rate, num 2 1 r.ackCount, num 3 1 (r.limitN + r.limitM * 16),
    num 4 2 r.ackNs, num 6 2 r.replayNs, num 8 2 r.auditUs, num 10 2 r.trainUs,
    num 12 1 (bitW r.pairElim 1 + bitW r.timeBlocks 2)]

def vcmapOf (b : List Byte) : VcmapRec :=
  { link := fld b 0 1, vc := fld b 1 1, units := fld b 2 2, action := fld b 4 1, queue := fld b 6 2 }
def vcmapBytes (r : VcmapRec) : List Byte :=
  layout 16 [num 0 1 r.link, num 1 1 r.vc, num 2 2 r.units, num 4 1 r.action, num 6 2 r.queue]

def pimapOf (b : List Byte) : PimapRec :=
  { base := fld b 0 2, len := fld b 2 2, kind := fld b 4 1, banked := hasBit (fld b 5 1) 0,
    swapId := fld b 6 1, base1 := fld b 8 2 }
def pimapBytes (r : PimapRec) : List Byte :=
  layout 16 [num 0 2 r.base, num 2 2 r.len, num 4 1 r.kind, num 5 1 (bitW r.banked 1),
    num 6 1 r.swapId, num 8 2 r.base1]

/-- The trigger argument without its reserved bits (11 R254). -/
def dmaArg (trig a : Nat) : Nat := if trig = 6 then a % 8 else a

/-- A source address without its reserved bits (11 R256). -/
def dmaSource (space a : Nat) : Nat :=
  match space with
  | 0 => bitsOf a 0 18
  | 1 => bitsOf a 0 30 + bitsOf a 31 1 * 2 ^ 31
  | 2 => bitsOf a 0 24 + bitsOf a 31 1 * 2 ^ 31
  | 3 => bitsOf a 0 16 + bitsOf a 31 1 * 2 ^ 31
  | _ => a

/-- A destination address without its reserved bits (11 R256). -/
def dmaDestination (space a : Nat) : Nat :=
  match space with
  | 0 => bitsOf a 0 18
  | 1 => bitsOf a 0 30 + bitsOf a 31 1 * 2 ^ 31
  | 2 => bitsOf a 0 14
  | _ => a

def dmaOf (b : List Byte) : DmaRec :=
  let w := fld b 6 1
  { channel := fld b 0 1, index := fld b 1 1, trig := fld b 2 1, arg := dmaArg (fld b 2 1) (fld b 3 1),
    srcSpace := fld b 4 1, dstSpace := fld b 5 1, sw := bitsOf w 0 2, dw := bitsOf w 2 2,
    half := hasBit w 4, full := hasBit w 5, patn := hasBit w 6, hidEvent := hasBit w 7,
    next := fld b 7 1, src := dmaSource (fld b 4 1) (fld b 8 4), dst := dmaDestination (fld b 5 1) (fld b 12 4),
    count := fld b 16 4 }
def dmaBytes (r : DmaRec) : List Byte :=
  layout 32 [num 0 1 r.channel, num 1 1 r.index, num 2 1 r.trig, num 3 1 r.arg, num 4 1 r.srcSpace,
    num 5 1 r.dstSpace,
    num 6 1 (r.sw + r.dw * 4 + bitW r.half 16 + bitW r.full 32 + bitW r.patn 64 + bitW r.hidEvent 128),
    num 7 1 r.next, num 8 4 r.src, num 12 4 r.dst, num 16 4 r.count]

def powerOf (b : List Byte) : PowerRec :=
  { deepest := fld b 0 1, wakeMagic := hasBit (fld b 1 1) 0, wakeLink := hasBit (fld b 1 1) 1,
    wakePin := hasBit (fld b 1 1) 2, filterEn := fld b 2 1, guardUs := fld b 4 2,
    netTol := fld b 8 4, filters := padTo 1152 (slice b 16 1152) }
def powerBytes (r : PowerRec) : List Byte :=
  layout 1168 [num 0 1 r.deepest, num 1 1 (bitW r.wakeMagic 1 + bitW r.wakeLink 2 + bitW r.wakePin 4),
    num 2 1 r.filterEn, num 4 2 r.guardUs, num 8 4 r.netTol, (16, r.filters)]

def mgmtOf (b : List Byte) : MgmtRec :=
  { etherType := fld b 0 2, ports := fld b 2 1 % 16,
    mgmtAddr := BitVec.ofNat 48 (beNat (slice b 4 6)), devAddr := BitVec.ofNat 48 (beNat (slice b 10 6)) }
def mgmtBytes (r : MgmtRec) : List Byte :=
  layout 32 [num 0 2 r.etherType, num 2 1 r.ports, (4, beBytes 6 r.mgmtAddr.toNat),
    (10, beBytes 6 r.devAddr.toNat)]

def keyOf (b : List Byte) : KeyRec :=
  { serial := BitVec.ofNat 64 (fld b 0 8), wrapped := padTo 24 (slice b 8 24) }

def safeOf (b : List Byte) : SafeRec :=
  { v0 := BitVec.ofNat 8 (fld b 0 1), v1 := BitVec.ofNat 8 (fld b 1 1),
    v2 := BitVec.ofNat 8 (fld b 2 1), v3 := BitVec.ofNat 8 (fld b 3 1) }
def safeBytes (r : SafeRec) : List Byte :=
  layout 8 [num 0 1 r.v0.toNat, num 1 1 r.v1.toNat, num 2 1 r.v2.toNat, num 3 1 r.v3.toNat]

def calOf (b : List Byte) : CalRec :=
  { rate := fld b 0 1, openId := fld b 1 1, closeId := fld b 2 1, quiet := hasBit (fld b 3 1) 0,
    dfe := hasBit (fld b 3 1) 1, lanes := fld b 4 4 }
def calBytes (r : CalRec) : List Byte :=
  layout 16 [num 0 1 r.rate, num 1 1 r.openId, num 2 1 r.closeId,
    num 3 1 (bitW r.quiet 1 + bitW r.dfe 2), num 4 4 r.lanes]

/-! ### Ranges (R72: a value out of range, or a reserved code, fails the check) -/

def within (lo hi v : Nat) : Bool := decide (lo ≤ v) && decide (v ≤ hi)

/-- R73: modes 4 to 255 are reserved. -/
def identOk (r : IdentRec) : Bool := within 0 3 r.mode
/-- R74. -/
def portsOk (r : PortsRec) : Bool :=
  within 0 6 r.mode && within 0 1000 r.holdUs && within 0 142 r.ctStart && within 1 128 r.verifyMs &&
  within 64 9022 r.maxFrame && within 0 3 r.addFrag && (within 0 31 r.phyAddr || r.phyAddr == 255)
/-- R75. At least one domain is enabled; two enabled domains have different numbers. -/
def timeOk (r : TimeRec) : Bool :=
  within 0 1 r.policy && within 0 1 r.alignment && within 1 100 r.slewPpm && (r.en0 || r.en1) &&
  within 0 600000 r.timeoutMs && within 8000 800000000 r.cycle && within 0 (2 ^ 48 - 1) r.baseSec &&
  within 0 999999999 r.baseNs && within 0 127 r.gptp0 && within 0 127 r.gptp1 &&
  (!(r.en0 && r.en1) || r.gptp0 != r.gptp1) &&
  decide (-7 ≤ r.logSync0) && decide (r.logSync0 ≤ 0) && decide (-7 ≤ r.logSync1) && decide (r.logSync1 ≤ 0) &&
  within 10 10000 r.lockNs && within 1 10000 r.lossMs && within 0 65535 r.ppsUs
/-- R76. -/
def gatesOk (r : GatesRec) : Bool := within 0 3 r.port && within 1 800000000 r.interval
/-- R77: the offset is compared with the cycle by the schedule check. -/
def eventsOk (_ : EventsRec) : Bool := true
/-- R78. -/
def streamsOk (r : StreamsRec) : Bool :=
  within 0 1023 r.queue && decide (r.members ≠ 0) && within 0 7 r.cls && within 1 10000000 r.rate &&
  within 64 1048576 r.burst && within 0 1 r.lenMode && within 0 63 r.overhead && within 1 8 r.buffers &&
  within 800 800000000 r.deadline && within 64 9022 r.maxFrame &&
  decide (r.maxFrame + (if r.lenMode = 1 then r.overhead else 0) ≤ r.burst)
/-- R79. -/
def listenOk (r : ListenRec) : Bool :=
  within 0 1023 r.stream && within 0 1 r.delivery &&
  (if r.delivery = 0 then within 1 8 r.bufs && r.link == 0 else within 0 7 r.bufs && within 0 31 r.link) &&
  within 64 9022 r.maxFrame && within 0 10000000 r.staleUs
/-- R80, and the arguments of 07 R155: PCP, VID and EtherType are range-checked only when their match is enabled. -/
def filtersOk (r : FiltersRec) : Bool :=
  (!hasBit r.enables 3 || within 0 7 r.pcp) && within 0 4 r.action &&
  (!hasBit r.enables 2 || within 0 4095 r.vid) && (!hasBit r.enables 4 || within 0x600 0xFFFF r.etherType) &&
  (if r.action = 0 then within 0 1023 r.argA && r.argB == 0
   else if r.action = 1 then within 0 3 r.argA && within 0 7 r.argB
   else if r.action = 2 then within 0 31 r.argA && within 0 7 r.argB
   else r.argA == 0 && r.argB == 0)
/-- R81. -/
def policeOk (r : PoliceRec) : Bool :=
  within 1 10000000 r.rate && within 64 1048576 r.burst && within 0 1 r.lenMode && within 0 63 r.overhead
/-- R82. -/
def frerOk (r : FrerRec) : Bool := within 0 1 r.algorithm && within 2 64 r.history && within 1 65535 r.timeoutUs
/-- R83. -/
def lanesOk (r : LanesRec) : Bool :=
  within 0 31 r.link && within 1 3 r.rate && within 1 32 r.ackCount && within 1 15 r.limitN &&
  within 1 15 r.limitM && within 64 8000 r.ackNs && within 500 65000 r.replayNs && within 100 10000 r.trainUs
/-- R84. -/
def vcmapOk (r : VcmapRec) : Bool :=
  within 0 31 r.link && within 0 7 r.vc && within 1 4096 r.units && within 0 2 r.action &&
  (if r.action = 1 then within 0 1023 r.queue else r.queue == 0)
/-- R85, and 10 R248: an unbanked region's bank 1 base is zero. -/
def pimapOk (r : PimapRec) : Bool :=
  within 0 0xFFBF r.base && within 1 65472 r.len && within 0 2 r.kind && (r.banked || r.base1 == 0)
/-- R86, and the arguments of 11 R254. -/
def dmaOk (r : DmaRec) : Bool :=
  within 0 63 r.channel && within 0 15 r.index && (decide (r.channel < 32) || r.index == 0) &&
  within 0 6 r.trig && within 0 3 r.srcSpace && within 0 2 r.dstSpace &&
  (within 0 15 r.next || r.next == 255) && within 1 65536 r.count &&
  (if r.trig = 0 then r.arg == 0
   else if r.trig = 2 ∨ r.trig = 3 then within 0 63 r.arg
   else if r.trig = 5 then within 0 31 r.arg
   else if r.trig = 6 then decide (bitsOf r.arg 1 2 ≠ 0)
   else true)
/-- R87. -/
def powerOk (r : PowerRec) : Bool := within 0 4 r.deepest && within 0 1000 r.guardUs && decide (r.netTol ≠ 0)
/-- R88. -/
def mgmtOk (r : MgmtRec) : Bool := within 0x600 0xFFFF r.etherType && decide (r.ports ≠ 0)
/-- R91: CAL rates 1 to 5 and 17 to 255 are reserved. -/
def calOk (r : CalRec) : Bool := r.rate == 0 || within 6 16 r.rate

/-! ### The tables in force -/

/-- The tables that an image or a commit puts in force. Multi-record sections are keyed by the object
instance number of 13 R290: GATES port x 1,024 + entry, VCMAP link x 8 + VC, DMAPROG channel x 16 +
index, and the record's own key or index otherwise. -/
structure Tables where
  ident : Option IdentRec
  time : TimeRec
  ports : SMap PortsRec
  gates : SMap GatesRec
  events : SMap EventsRec
  streams : SMap StreamsRec
  listen : SMap ListenRec
  filters : SMap FiltersRec
  police : SMap PoliceRec
  frer : SMap FrerRec
  lanes : SMap LanesRec
  vcmap : SMap VcmapRec
  pimap : SMap PimapRec
  dma : SMap DmaRec
  power : Option PowerRec
  netTol : Nat
  mgmt : Option MgmtRec
  safe : Option SafeRec
  cal : Option CalRec
deriving DecidableEq, Repr

/-- The TIME record of a device with no image: nothing enabled. The cycle is the shortest of R18; no
rule reads it before a record is in force. -/
def noTime : TimeRec :=
  { policy := 0, alignment := 0, slewPpm := 1, en0 := false, en1 := false, preferred := false,
    timeoutMs := 0, cycle := 8000, baseSec := 0, baseNs := 0, gptp0 := 0, gptp1 := 0, mask0 := 0,
    mask1 := 0, logSync0 := 0, logSync1 := 0, lockNs := 10, lossMs := 1, ppsUs := 0 }

def emptyTables : Tables :=
  { ident := none, time := noTime, ports := [], gates := [], events := [], streams := [],
    listen := [], filters := [], police := [], frer := [], lanes := [], vcmap := [], pimap := [],
    dma := [], power := none, netTol := 0xFFFFFFFF, mgmt := none, safe := none, cal := none }

/-- An accepted image: what its header, sections and signature block give (04). -/
structure Image where
  version : Nat
  keySlot : Nat
  revoke : Nat
  ignored : Nat
  linkAbsent : Nat
  tables : Tables
  keys : List KeyRec
deriving DecidableEq, Repr

end Sys2Proof.Machine
end

