-- ==== Sys2Proof/Machine/State.lean ====
section
/-!
DEFINITION. The state of the BX3248: every register, queue, buffer, counter, mode and pin that the
spec gives it, the queue of waiting commands, and the state at reset. INVENTORY.md lists each with its rule.
Instants are in ck since release (`now`); counter values and latencies are in units of 2^-32 ns (05 R101).
-/
namespace Sys2Proof.Machine

/-- No command of this block stops on a fault: every rule gives an effect (INVENTORY.md, Faults). -/
inductive Fault where
deriving DecidableEq, Repr

/-- Why a command has no meaning. -/
inductive Refusal where
  /-- Raised by an arm of `exec` whose command has no meaning yet: safe, no effect is claimed. -/
  | notModelled (mnemonic : String)
deriving DecidableEq, Repr

/-! ### What leaves the device -/

/-- The signals of 02 R23 that the device drives. -/
inductive Pin where
  | pgood | faultN | patnN | ppsOut | evtOut (i : Nat) | tsDo | qcsN | qsck | qio | mdc | mdio | pd | tdo
deriving DecidableEq, Repr

/-- What a port's PCS, its MAC or Dunlin makes itself: the Clause 37 base page (07 R145), verify and respond mPackets
(R150), the Pdelay messages (05 R103), and in S4 the SGMII in-band word of the Bittern port (14 R319). -/
inductive ControlFrame where
  | basePage (page : BitVec 16)
  | inband (link : Bool) (speed : Nat)
  | verify | respond
  | pdelayReq (seq : BitVec 16)
  | pdelayResp (seq : BitVec 16) (t2 : Int)
  | pdelayFollowUp (seq : BitVec 16) (t3 : Int)
deriving DecidableEq, Repr

/-- What the device has put on its pins and wires, with the ck in which it did (log entry 10); `edge` is placed
in one of the eight 156.25 ps phases of its ck (05 R111); a `row` gives the block that each lane of a link starts to
send (08 R178), and a lane in no row is in electrical idle. An `mpacket` is a fragment of a pre-empted frame: its frame
count, its fragment count unless it is the first, and its bytes with their check (07 R149). -/
inductive Emission where
  | level (ck : Nat) (p : Pin) (v : Nat)
  | edge (ck phase : Nat) (p : Pin) (v : Nat)
  | float (ck : Nat) (p : Pin)
  | pd (ck : Nat) (pa : BitVec 17) (v : Word)
  | frame (ck : Nat) (port : Nat) (bytes : List Byte)
  | mpacket (ck port frameCount : Nat) (fragCount : Option Nat) (bytes : List Byte)
  | control (ck : Nat) (port : Nat) (what : ControlFrame)
  | row (ck link : Nat) (lanes : List (Nat × LaneWord))
  | mdio (ck addr register : Nat) (value : Option Nat)
  | flashCmd (ck chip cmd addr dummies : Nat)
  | flashErase (ck : Nat) (slot : Slot)
  | flash (ck : Nat) (slot : Slot) (offset : Nat) (bytes : List Byte)
  | flashSector (ck : Nat) (slot : Slot) (offset : Nat)
deriving DecidableEq, Repr

/-! ### Supply, straps, start-up -/

inductive Converters where
  | off | running | stopped
deriving DecidableEq, Repr

/-- The reset-cause latch of Bittern's domain (15 R332). -/
inductive CauseLatch where
  | empty | railBrownOut | thermal | xinLost
deriving DecidableEq, Repr

/-- A bank supply: detected level (02 R25), brown-out (15 R330), and below 1.2 V, where the bank's balls are high
impedance (02 R24). -/
structure BankSt where
  hi : Bool
  brown : Bool
  unpowered : Bool
deriving DecidableEq, Repr

structure Supply where
  seqOn : Bool
  extpwr : Bool
  converters : Converters
  vinLow : Bool
  pgood : Bool
  thermalOff : Bool
  inReset : Bool
  xinOk : Bool
  srefFault : Bool
  bankP : BankSt
  bankQ : BankSt
  overtemp : Bool
  cause : CauseLatch
deriving DecidableEq, Repr

/-- One ladder pin: result code 0 to 15 or 16 for OPEN, unstable flag, settled, current readings (02 R34). -/
structure LadderPin where
  code : Nat
  unstable : Bool
  settled : Bool
  set : List Nat
deriving DecidableEq, Repr

/-- The ladder measurement: sources on, readings taken, the eight pins in STRAPS1 and STRAPS2 order. -/
structure Ladder where
  active : Bool
  taken : Nat
  pins : List LadderPin
  done : Bool
deriving DecidableEq, Repr

/-- BOOTPHASE (03). -/
inductive Phase where
  | reset | early | loadFirst | loadSecond | config | waitTime | service | bare
deriving DecidableEq, Repr

structure Boot where
  phase : Phase
  pllLocked : Bool
  clearDue : Nat
  cleared : Bool
  otpRead : Bool
  otpBad : Bool
  jedecDone : Bool
  twoChip : Bool
  slotBPresent : Bool
  chip0 : Bool
  chip1 : Bool
  standKnown : Bool
  standA : BitVec 32
  standB : BitVec 32
  failed : Bool
  trying : Option Slot
  passedOver : Option Slot
  resultA : Nat
  resultB : Nat
  runSlot : Option Slot
  image : Option Image
  enteredAt : Nat
  configEnd : Nat
  startCond : Bool
  startedLocal : Bool
deriving DecidableEq, Repr

/-- Staged set (13 R292): its number, and per object ID the record's bytes, or none for a removal. -/
structure Staged where
  number : Nat
  entries : SMap (Option (List Byte))
deriving DecidableEq, Repr

/-- A pending commit (13 R293): its set number and its time in units of 2^-32 ns. -/
structure PendingCommit where
  number : Nat
  time : Nat
deriving DecidableEq, Repr

/-! ### Process image and station block (10) -/

/-- A region: the physical bank on the host side, stale bit, last swap (cycle, offset), and per bank
the channels that have completed a transfer into it during its tenure (R237, R239), the ck of the last swap, and
whether a commit has added or changed it since the last boundary (R249). -/
structure RegionSt where
  bank : Bool
  stale : Bool
  last : Option (Nat × Nat)
  fed0 : List Nat
  fed1 : List Nat
  swappedAt : Nat
  fresh : Bool
deriving DecidableEq, Repr

/-- The event flags set in one ck (10 R243: a set wins over a clear of the same ck). -/
structure FlagSets where
  ck : Nat
  events : Word
  chHalf : BitVec 64
  chFull : BitVec 64
  hevt : BitVec 256
deriving DecidableEq, Repr

structure Station where
  hostLtr : Word
  heartbeat : Word
  hbWindow : Word
  attnMask : Word
  hostInfo0 : Word
  hostInfo1 : Word
  doorbell : Word
  events : Word
  chHalf : BitVec 64
  chFull : BitVec 64
  hevt : BitVec 256
  ignWr : Word
  attnCount : Word
  generation : Word
  generationAt : Option Nat
  wdMiss : Nat
  wdExp : Bool
  lastHeartbeat : Word
  wdDue : Bool
  effTol : Word
  rearmEnd : Option Nat
  raised : FlagSets
  attnAt : Option Nat
  rungAt : Nat
  rung : Word
deriving DecidableEq, Repr

/-! ### Dunlin (05) -/

/-- Domain states, coded as STATUS codes them (10 R242). -/
inductive DomState where
  | disabled | acquire | locked | holdover
deriving DecidableEq, Repr

/-- A domain: its counter and increment, the servo's integral term in units of 2^-32 ns a ck, and the Announce
frames heard, each with the ck in which its receipt timeout ends (R103). -/
structure DomSt where
  st : DomState
  count : Nat
  inc : Nat
  integral : Int
  good : Nat
  bad : Nat
  saturated : Bool
  lastSync : Option Nat
  offset : Int
  gm : Option (BitVec 64)
  slavePort : Option Port
  heard : List (AnnounceInfo × Nat)
  lockedSince : Bool
deriving DecidableEq, Repr

/-- `switchDue`: the ck of a hot switch (R105). `evtOut` holds the levels that Heron's actions give, `evtShown` those
at the balls, and `evtAt` Heron's clock at the last action on each pin (R111). `ppsPhase` is the phase of the
rise of PPS_OUT. -/
structure Dunlin where
  localCount : Nat
  dom0 : DomSt
  dom1 : DomSt
  working : Dom
  firstLock : Option (Dom × Nat)
  rebased : Bool
  h : Int
  slewPpm : Nat
  stepPending : Bool
  stepCycle : Bool
  switchDue : Option Nat
  ppsHigh : Bool
  ppsPhase : Nat
  ppsEnd : Nat
  ppsLast : Option Nat
  evtOut0 : Bool
  evtOut1 : Bool
  evtShown0 : Bool
  evtShown1 : Bool
  evtAt0 : Nat
  evtAt1 : Nat
deriving DecidableEq, Repr

/-- A capture: polarity, LOCAL and working-domain stamps (05 R112). -/
structure Capture where
  rising : Bool
  stampLocal : Nat
  stampWorking : Nat
deriving DecidableEq, Repr

/-- A time input: last edge of the pin (ps since release) and the capture queue. -/
structure TimeInput where
  lastEdge : Option Nat
  captures : List Capture
deriving DecidableEq, Repr

/-! ### Heron and the wheel (06) -/

/-- One Heron copy: live, tables and shadows, entry in force with its vector and hold per port, index of
the next event record, and the records fired in this ck (R127). `flips` holds, by table word, the flipped bits that
no record shows: those of unused entries and reserved fields; `firedFlip` the upsets of this ck's fired set. -/
structure HeronCopy where
  live : Bool
  gates : SMap GatesRec
  events : SMap EventsRec
  shadowGates : SMap GatesRec
  shadowEvents : SMap EventsRec
  entry : List Nat
  vector : List (BitVec 8)
  hold : List Bool
  nextEvent : Nat
  fired : List Nat
  flips : SMap Nat
  firedFlip : List Nat
deriving DecidableEq, Repr

structure Heron where
  started : Bool
  cycle : Nat
  acc : Nat
  boundary : Nat
  len : Nat
  copyA : HeronCopy
  copyB : HeronCopy
  copyC : HeronCopy
  safe : Bool
deriving DecidableEq, Repr

/-- A queued event frame's content, for merging (13 R300). -/
structure EventInfo where
  cls : Nat
  arg : Nat
  count : Nat
  cycle : Nat
  time : Nat
  detail : List Byte
  counter : Nat
deriving DecidableEq, Repr

/-- A frame or one of its copies: bytes from the destination address, without FCS. `whole` is set once all
bytes are committed, `ended` once they have all come in, good or not, and `raised` once an underrun of a copy has
raised its stream's threshold (07 R160); `cells` are charged to a receive account while it is held (12 R273). -/
structure Frame where
  id : Nat
  bytes : List Byte
  stream : Option Nat
  seq : Nat
  arrival : Nat
  deadline : Nat
  stale : Bool
  whole : Bool
  ended : Bool
  cut : Bool
  raised : Bool
  carriedBad : Bool
  account : Option Nat
  cells : Nat
  hid : Bool
  event : Option EventInfo
  started : Bool
  sent : Nat
deriving DecidableEq, Repr

/-- Where the wheel holds a stream (R134): slot numbers are Heron ck divided by 8, or by 8,192. -/
inductive Place where
  | idle | fine (slot : Nat) | coarse (slot : Nat) | long
deriving DecidableEq, Repr

/-- A talker frame buffer under assembly by Avocet (11 R262). -/
structure OpenBuffer where
  chan : Nat
  payload : List Byte
  stale : Bool
deriving DecidableEq, Repr

/-- A talker stream; TAT is 72 bits of 2^-24 ck of Heron time (R131). -/
structure StreamSt where
  tat : BitVec 72
  place : Place
  queue : List Frame
  seq : Nat
  threshold : Nat
  lastRelease : Nat
  assembly : Option OpenBuffer
  tunnels : SMap Frame
deriving DecidableEq, Repr

/-- A meter: TAT as a stream's, and its stream gate (R139, R140). -/
structure MeterSt where
  tat : BitVec 72
  gate : Bool
deriving DecidableEq, Repr

/-! ### Ethernet ports (07) -/

inductive VerifySt where
  | idle | running (sent due : Nat) | verified | failed
deriving DecidableEq, Repr

/-- How a sending ends: with the frame, with a fragment's mCRC, or with a stomp. -/
inductive TxEnd where
  | frame | fragment | stomp
deriving DecidableEq, Repr

/-- A frame on the wire: class, whether it was selected as an express frame (R174), first bit at the PCS (ck), how
it ends, and for a fragment or a stomp the ck in which the transmit path is free again. -/
structure Tx where
  cls : Nat
  express : Bool
  frame : Frame
  start : Nat
  ends : TxEnd
  finish : Nat
deriving DecidableEq, Repr

/-- Reassembly of a pre-empted frame (07 R151): its receive class and the cells charged to it as its bytes arrive;
`lost` once a cell could not be had (R157). -/
structure Reasm where
  frameCount : Nat
  fragCount : Nat
  bytes : List Byte
  cls : Nat
  cells : Nat
  lost : Bool
deriving DecidableEq, Repr

/-- PHY bring-up (07 R172): idle, in reset polling since an instant, running, absent until an instant. -/
inductive PhySt where
  | idle | resetting (since : Nat) | running | absent (restart : Nat)
deriving DecidableEq, Repr

/-- A port. `linkBit` is the last SGMII in-band link bit, `anPage` the partner's Clause 37 base page (07 R145, R168);
`control` holds MAC Control frames that wait for the wire (R153); `smdFrame` and `smdFrag` count pre-emptable frames
and fragments sent (R149); `pausedAt` is the ck of a class's last pause (R174). -/
structure PortSt where
  mode : Nat
  speed : Nat
  linkBit : Bool
  anPage : BitVec 16
  up : Bool
  live : Bool
  holdEnd : Option Nat
  announced : Bool
  speedRestart : Bool
  halfDuplex : Bool
  verify : VerifySt
  tx : Option Tx
  preempted : Option (Nat × Frame)
  control : List (List Byte)
  smdFrame : Nat
  smdFrag : Nat
  reasm : Option Reasm
  pausedUntil : List Nat
  pausedAt : List Nat
  pfcOn : List Bool
  pfcDue : List Nat
  deferred : List (Option (Nat × Nat × Nat))
  txLat : Int
  rxLat : Int
  linkDelay : Int
  pdelaySeq : BitVec 16
  pdelayDue : Nat
  pdelayT1 : Option Int
  pdelayResp : Option (Int × Int)
  pdelayLast : Option (Int × Int)
  latencyDue : Nat
  phy : PhySt
  phyDue : Nat
  phyRegs : List (BitVec 16)
  lowPower : Bool
  idleSince : Nat
  sendAfter : Nat
deriving DecidableEq, Repr

/-- The MDIO bus that the SGMII ports share (07 R171): writes that wait, each with its port, PHY address, register and
value, and the ck from which the bus is free. -/
structure Mdio where
  queue : List (Nat × Nat × Nat × Nat)
  freeAt : Nat
deriving DecidableEq, Repr

/-- Sequence recovery of a listener stream (07 R166), and its held frames, each with its age limit (12 R275). -/
structure ListenerSt where
  held : List (Frame × Nat)
  recovering : Bool
  number : Nat
  history : List Bool
  lastPassed : Nat
deriving DecidableEq, Repr

/-! ### Dziak links and lanes (08, 09) -/

/-- Link state codes of 09 R212. -/
inductive LinkState where
  | off | detect | sync | align | param | speedup | equalize | active
deriving DecidableEq, Repr

/-- A packet in the replay store (08 R190): `sentAt` is the ck in which its tail finished sending, none since an
episode that has yet to resend it (R191); `charged` once a retrain has counted its cost in C_rel (R199). -/
structure Stored where
  seq : Nat
  vc : Nat
  cost : Nat
  hdr : Block
  payload : List Byte
  count : Nat
  sentAt : Option Nat
  charged : Bool
  marked : Bool
deriving DecidableEq, Repr

/-- A block on its way to the lanes: the ck in which it was built, the ck from which it has crossed into LTX (R203), its
sync header and body, and for a tail its packet's SEQ. -/
structure TxBlock where
  built : Nat
  ready : Nat
  sync : Nat
  body : Block
  tailOf : Option Nat
deriving DecidableEq, Repr

/-- Where a receiver stands in the striped sequence (08 R183, R188): outside a packet, in one whose HDR and payload
blocks have come in, or discarding up to the next tail or HDR. -/
inductive RxFrame where
  | outside
  | inside (hdr : Block) (data : List Block)
  | skipping
deriving DecidableEq, Repr

/-- A link. `control` and `sending` are the striped blocks that wait: control blocks, and those of packets in progress;
`rowDue` is the ck of the next row and `sinceIdle` the rows since the last IDLE row (R179); `beaconLeft`, `tsCount`,
`paramNext` and `speedLeft` are what the training rows count (09 R210 to R216); `timeOwed` asks for a TIME block;
`returnNext` is the VC that the rotation of credit returns begins with (R196); `releasedAt` is the ck of the last
release and `timerAt` of the last episode that the replay timer started (R191, R207). -/
structure LinkSt where
  st : LinkState
  control : List TxBlock
  sending : List TxBlock
  rowDue : Nat
  sinceIdle : Nat
  beaconLeft : Nat
  tsCount : Nat
  paramNext : Nat
  speedLeft : Option Nat
  timeOwed : Bool
  returnNext : Nat
  releasedAt : Nat
  timerAt : Option Nat
  rxFrame : RxFrame
  retrain : Bool
  down : Bool
  excluded : Nat
  faultMask : Nat
  locked : Nat
  aligned : Nat
  eqSent : Nat
  eqRecv : Nat
  readySent : Nat
  readyRecv : Nat
  finalMask : Nat
  spareUsed : Bool
  rate : Nat
  agreed : Nat
  params : SMap Block
  paramSeen : Nat
  paramAcked : Bool
  backoff : Nat
  beaconDue : Nat
  stateDue : Nat
  activeSince : Nat
  keepEq : Bool
  commitRetrain : Bool
  rxS : Nat
  rxU : Nat
  ackDue : Option Nat
  rxError : Bool
  txSeq : Nat
  store : List Stored
  released : Nat
  episode : Option Nat
  retrains : Nat
  moduleStore : Nat
  moduleRates : Nat
  vendor : Nat
  asleep : Bool
  deep : Bool
  sleepSince : Nat
  idleSince : Nat
  wakeEnd : Nat
  auditDue : Nat
  lastCause : Nat
  timeDue : Nat
  timeTag : Nat
  timeCount : Nat
  sentTags : List (Nat × Nat × Nat)
  rtts : List Int
  accepted : Nat
  pathDelay : Int
  pathValid : Bool
  missed : Nat
deriving DecidableEq, Repr

/-- A received message, open or complete: KIND, bytes held in the pool, their packets, their units and those of packets that
came over the pair's other member, completion ck, age limit, channels that took it and channels whose transfer reads it, whether each member's
counters still count it (08 R193), the VCMAP action and queue of its first packet (R207), whether its frame
is open in its stream, and whether the rest of it is to be discarded (R162). -/
structure Msg where
  kind : Nat
  bytes : List Byte
  packets : Nat
  units : Nat
  mateUnits : Nat
  doneAt : Nat
  deadline : Nat
  taken : List Nat
  readBy : List Nat
  fresh : Bool
  mateFresh : Bool
  action : Nat
  queue : Nat
  poured : Bool
  skip : Bool
deriving DecidableEq, Repr

/-- A message in a link transmit queue: bytes already cut into packets, queue deadline, first PSEQ. -/
structure TxMsg where
  kind : Nat
  bytes : List Byte
  pos : Nat
  deadline : Nat
  pseq : Nat
deriving DecidableEq, Repr

structure VcSt where
  bv : Nat
  hold : Nat
  ac : Nat
  freed : Nat
  reported : Nat
  firstFree : Option Nat
  lastReturn : Nat
  rxOpen : Option Msg
  rxMsgs : List Msg
  cl : Nat
  c : Nat
  cRel : Nat
  partnerBv : Nat
  txQ : List TxMsg
deriving DecidableEq, Repr

/-- A redundant pair's VC (08 R200, R201): next PSEQ, last PSEQ passed, reset, last pass (ck). -/
structure PairSt where
  next : Nat
  last : Nat
  isReset : Bool
  lastPass : Nat
deriving DecidableEq, Repr

/-- A lane: `queue` holds lane-local blocks, each with the ck from which it may go; `txHist` and `rxHist` are the last
58 bits sent and received, the newest lowest, none before the lane is first seen (08 R176), and `rxBad` marks the next
block as in error (R177). A CAL block that has fallen due has waited `calWait` slots (09 R225). `mapStart` is the ck
in which the eye map that runs began, and `spoiled` its points that a CAL block in error has closed; `dfeDue` is the
next step of the taps, in 67ths of a ck (R224); `moveDue` the next deferred move (R226). -/
structure LaneSt where
  queue : List (Nat × Block)
  txHist : BitVec 58
  rxHist : Option (BitVec 58)
  rxBad : Bool
  calWait : Option Nat
  mapStart : Nat
  spoiled : List Nat
  dfeDue : Nat
  moveDue : Nat
  emphasis : Nat
  partnerSetting : Nat
  eqBest : Nat
  eqPoints : Nat
  taps : List Int
  phase : Nat
  threshold : Nat
  wantPhase : Nat
  wantThreshold : Nat
  eyeWidth : Nat
  eyeHeight : Nat
  closedRun : Nat
  latency : Int
  txLatency : Int
  deferred : Bool
  calDue : Nat
  calLast : Nat
deriving DecidableEq, Repr

/-! ### Avocet (11) -/

inductive ChanStatus where
  | idle | waiting | busy | stopped
deriving DecidableEq, Repr

/-- A 16-byte source read that has been issued: its ck, and the words in uncorrectable error that it met (11 R258,
R265). -/
structure SourceRead where
  at' : Nat
  bad : List Nat
deriving DecidableEq, Repr

/-- A channel: status, active and shadow descriptor (index and record), pending flag, triggers not yet
recognised (ck), the ck from which its descriptor is active and whether it starts in that ck (11 R251, R270); and
the transfer that runs: the ck from which it asks for its first read, the reads issued and those whose data has not
returned, the bytes read with those from a stale region marked (10 R240), the bytes taken into the holding register,
written from it (with the ck of the last write group) and landed (with the ck of the first), half done, its listener
frame or the capture entries it read, and the streams whose piece is discarded (11 R257, R258, R262). -/
structure ChanSt where
  status : ChanStatus
  active : Option (Nat × DmaRec)
  shadow : Option (Nat × DmaRec)
  pendingFlag : Bool
  triggers : List Nat
  activeFrom : Nat
  startsNow : Bool
  startedAt : Nat
  issued : Nat
  flight : List SourceRead
  bytes : List Byte
  stale : List Bool
  taken : Nat
  wrote : Nat
  wroteAt : Nat
  landed : Nat
  firstLand : Nat
  halfDone : Bool
  srcId : Nat
  dropped : List Nat
deriving DecidableEq, Repr

/-- Avocet as a whole; `edges` are the EVT_IN triggers whose trigger ck is still to come: ck, input, rising (11 R254). -/
structure Avocet where
  running : Bool
  stopped : Bool
  halted : Bool
  errNow : Bool
  errCycles : Nat
  faultWords : List Nat
  dmaCommit : Bool
  edges : List (Nat × Nat × Bool)
deriving DecidableEq, Repr

/-! ### Hidiquel (13) -/

/-- A frame on the management path: receive port and bytes with FCS. -/
structure MgmtRx where
  port : Nat
  bytes : List Byte
deriving DecidableEq, Repr

/-- A request whose response waits for a background path: port, source, C-tag, opcode, request tag. -/
structure Asker where
  port : Port
  src : Mac
  ctag : Option (BitVec 16)
  reqTag : BitVec 16
deriving DecidableEq, Repr

/-- An open IMAGE TRANSFER (R296): slot, next offset, last chunk's offset and length, idle limit, and the
chunk being programmed, with its asker and whether it is the last. -/
structure Xfer where
  slot : Slot
  next : Nat
  lastOffset : Nat
  lastLen : Nat
  idleDue : Nat
  busy : Option Asker
  lastChunk : Bool
deriving DecidableEq, Repr

/-- A SLOT SWITCH in flight (R297): the named slot, its asker, the frame that answers it, and the reset
instant once that has left. -/
structure Switch where
  slot : Slot
  asker : Asker
  answer : Option Nat
  resetAt : Option Nat
deriving DecidableEq, Repr

/-- A floor raise in flight (R298). -/
structure Raise where
  target : Nat
  asker : Asker
deriving DecidableEq, Repr

/-- A COUNTER SNAPSHOT of this ck, read as the ck ends (R302): its asker, the clear flag, and the parts of its ranges,
each a first object ID, a count and a status. -/
structure Snap where
  asker : Asker
  clear : Bool
  parts : List (Nat × Nat × Nat)
deriving DecidableEq, Repr

structure Hidiquel where
  session : BitVec 32
  txCount : Nat
  rxHigh : Nat
  key : BitVec 128
  rx : List MgmtRx
  subs : List (Nat × Nat)
  xfer : Option Xfer
  switch : Option Switch
  raise : Option Raise
  snaps : List Snap
deriving DecidableEq, Repr

/-! ### Power, faults, Turnstone (14, 15, 17) -/

/-- Bittern in S4: the POWER record and device address latched at entry (14 R318). -/
structure Bittern where
  record : PowerRec
  address : Mac
  mgmtAddress : Mac
  port : Nat
  faultN : Bool
  woken : Bool
deriving DecidableEq, Repr

structure Power where
  level : Nat
  quietSince : Option Nat
  s3Since : Nat
  efftolDue : Nat
  woken : Bool
  bittern : Option Bittern
deriving DecidableEq, Repr

/-- A fault whose log entry is still to be made, 4 ck after its detection (15 R334): the ck in which it is due, its code
and subject, and the entry as captured at detection, without its number. -/
structure FaultWait where
  due : Nat
  code : Nat
  subject : Nat
  body : List Byte
deriving DecidableEq, Repr

/-- The fault log (15 R334): ring entries by index, entries to come in the order in which they are made, entries made,
fault held until reset. -/
structure FaultLog where
  entries : SMap (List Byte)
  waiting : List FaultWait
  made : Nat
  untilReset : Bool
  corrected : Nat
deriving DecidableEq, Repr

/-- A memory's scrubber (15 R327): next word and the ck it falls due. -/
structure Scrub where
  next : Nat
  due : Nat
deriving DecidableEq, Repr

structure Freeze where
  latched : Bool
  held : Bool
  heldToEnd : Bool
  fromS3 : Bool
  stampLocal : Nat
  stampWorking : Nat
deriving DecidableEq, Repr

structure Readout where
  running : Bool
  memsel : Bool
  pos : Nat
  tsDo : Nat
deriving DecidableEq, Repr

/-! ### The whole state -/

structure State where
  /-- Commands waiting, first in first out: the block's queue, the model's own. -/
  pending : List Instr
  /-- ck since the release of the internal reset. -/
  now : Nat
  /-- Free values drawn so far: the model's own field, an argument of Config's constants. -/
  free : Nat
  /-- Frame numbers given out: the model's own names for frames. -/
  frameIds : Nat
  out : List Emission
  supply : Supply
  straps : BinaryStraps
  ladder : Ladder
  boot : Boot
  otp : OtpBits
  /-- The fuses' content, from its first reading on: only revocations and floor raises change it (03 R47). -/
  fuses : Option OtpBits
  tables : Tables
  lost : List Nat
  staged : Option Staged
  commit : Option PendingCommit
  mem : List Host.Cell
  upsets : SMap (List Nat)
  halfLatch : Option (Nat × BitVec 16)
  /-- The words of the image that Avocet has written in a ck (10 R243). -/
  hwWrote : Nat × List Nat
  station : Station
  regions : SMap RegionSt
  dunlin : Dunlin
  inputs : SMap TimeInput
  heron : Heron
  streams : SMap StreamSt
  meters : SMap MeterSt
  coarse : Nat
  /-- A ck and the wheel's releases in it (06 R134). -/
  released : Nat × Nat
  ports : SMap PortSt
  mdio : Mdio
  classQ : SMap (List Frame)
  rxCells : SMap Nat
  highWater : SMap Nat
  listeners : SMap ListenerSt
  links : SMap LinkSt
  vcs : SMap VcSt
  pairs : SMap PairSt
  lanes : SMap LaneSt
  quiet : Bool
  chans : SMap ChanSt
  avocet : Avocet
  hid : Hidiquel
  counters : SMap Nat
  power : Power
  faults : FaultLog
  scrubs : SMap Scrub
  freeze : Freeze
  readout : Readout
deriving DecidableEq, Repr

/-! ### Values at reset -/

def BankSt.init : BankSt := { hi := false, brown := false, unpowered := false }

/-- An unpowered device: the supplies' start (02 R28, R29). -/
def Supply.init : Supply :=
  { seqOn := false, extpwr := false, converters := .off, vinLow := false, pgood := false,
    thermalOff := false, inReset := true, xinOk := true, srefFault := false, bankP := BankSt.init,
    bankQ := BankSt.init, overtemp := false, cause := .empty }

def BinaryStraps.init : BinaryStraps :=
  { bootSlot := false, pipW16 := false, bitternPort := 0, freezeArm := false, mgmtLock := false }

/-- An unmeasured pin: STRAPS bytes read 0 until the pin settles (log entry 4). -/
def LadderPin.init : LadderPin := { code := 0, unstable := false, settled := false, set := [] }

def Ladder.init : Ladder :=
  { active := false, taken := 0, pins := List.replicate 8 LadderPin.init, done := false }

def Boot.init : Boot :=
  { phase := .reset, pllLocked := false, clearDue := 0, cleared := false, otpRead := false, otpBad := false,
    jedecDone := false, twoChip := false, slotBPresent := false, chip0 := false, chip1 := false,
    standKnown := false, standA := 0xFFFFFFFF, standB := 0xFFFFFFFF, failed := false, trying := none, passedOver := none, resultA := 0xE,
    resultB := 0xE, runSlot := none, image := none, enteredAt := 0, configEnd := 0, startCond := false,
    startedLocal := false }

def OtpBits.init : OtpBits :=
  { serial := 0, mgmtKey := 0, hash0 := 0, hash1 := 0, hash2 := 0, hash3 := 0, programmed := 0,
    revoked := 0, floor := 0 }

def RegionSt.init : RegionSt := { bank := false, stale := false, last := none, fed0 := [], fed1 := [], swappedAt := 0, fresh := false }

def FlagSets.init : FlagSets := { ck := 0, events := 0, chHalf := 0, chFull := 0, hevt := 0 }

def Station.init : Station :=
  { hostLtr := 0, heartbeat := 0, hbWindow := 0, attnMask := 0, hostInfo0 := 0, hostInfo1 := 0,
    doorbell := 0, events := 0, chHalf := 0, chFull := 0, hevt := 0, ignWr := 0, attnCount := 0,
    generation := 0, generationAt := none, wdMiss := 0, wdExp := false, lastHeartbeat := 0, wdDue := false, effTol := 0, rearmEnd := none,
    raised := FlagSets.init, attnAt := none, rungAt := 0, rung := 0 }

/-- The nominal increment: 1.25 ns in units of 2^-32 ns (05 R101). -/
def nominalInc : Nat := 5368709120

def DomSt.init : DomSt :=
  { st := .disabled, count := 0, inc := nominalInc, integral := 0, good := 0, bad := 0, saturated := false,
    lastSync := none, offset := 0, gm := none, slavePort := none, heard := [], lockedSince := false }

def Dunlin.init : Dunlin :=
  { localCount := 0, dom0 := DomSt.init, dom1 := DomSt.init, working := 0, firstLock := none,
    rebased := false, h := 0, slewPpm := 0, stepPending := false, stepCycle := false, switchDue := none,
    ppsHigh := false, ppsPhase := 0, ppsEnd := 0, ppsLast := none, evtOut0 := false, evtOut1 := false,
    evtShown0 := false, evtShown1 := false, evtAt0 := 0, evtAt1 := 0 }

def TimeInput.init : TimeInput := { lastEdge := none, captures := [] }

def HeronCopy.init : HeronCopy :=
  { live := true, gates := [], events := [], shadowGates := [], shadowEvents := [],
    entry := [0, 0, 0, 0], vector := [0xFF, 0xFF, 0xFF, 0xFF], hold := [false, false, false, false],
    nextEvent := 0, fired := [], flips := [], firedFlip := [] }

def Heron.init : Heron :=
  { started := false, cycle := 0, acc := 0, boundary := 0, len := 0, copyA := HeronCopy.init,
    copyB := HeronCopy.init, copyC := HeronCopy.init, safe := false }

def StreamSt.init : StreamSt :=
  { tat := 0, place := .idle, queue := [], seq := 0, threshold := 2, lastRelease := 0,
    assembly := none, tunnels := [] }

def MeterSt.init : MeterSt := { tat := 0, gate := false }

def PortSt.init : PortSt :=
  { mode := 0, speed := 2, linkBit := false, anPage := 0, up := false, live := false, holdEnd := none, announced := false,
    speedRestart := false, halfDuplex := false, verify := .idle, tx := none, preempted := none,
    control := [], smdFrame := 0, smdFrag := 0, reasm := none, pausedUntil := List.replicate 8 0,
    pausedAt := List.replicate 8 0, pfcOn := List.replicate 8 false,
    pfcDue := List.replicate 8 0, deferred := List.replicate 8 none, txLat := 0, rxLat := 0,
    linkDelay := 0, pdelaySeq := 0, pdelayDue := 0, pdelayT1 := none, pdelayResp := none,
    pdelayLast := none, latencyDue := 0, phy := .idle,
    phyDue := 0, phyRegs := List.replicate 4 0, lowPower := false, idleSince := 0, sendAfter := 0 }

def Mdio.init : Mdio := { queue := [], freeAt := 0 }

def ListenerSt.init : ListenerSt :=
  { held := [], recovering := true, number := 0, history := [], lastPassed := 0 }

/-- A link outside the plan, or before CONFIG (09 R212). -/
def LinkSt.init : LinkSt :=
  { st := .off, control := [], sending := [], rowDue := 0, sinceIdle := 0, beaconLeft := 0, tsCount := 0,
    paramNext := 0, speedLeft := none, timeOwed := false, returnNext := 0, releasedAt := 0, timerAt := none,
    rxFrame := .outside, retrain := false, down := false, excluded := 0, faultMask := 0, locked := 0, aligned := 0, eqSent := 0,
    eqRecv := 0, readySent := 0, readyRecv := 0, finalMask := 0, spareUsed := false, rate := 1,
    agreed := 1, params := [], paramSeen := 0, paramAcked := false, backoff := 1, beaconDue := 0,
    stateDue := 0, activeSince := 0, keepEq := false, commitRetrain := false, rxS := 4095, rxU := 0,
    ackDue := none, rxError := false, txSeq := 0, store := [], released := 4095, episode := none,
    retrains := 0, moduleStore := 0, moduleRates := 0, vendor := 0, asleep := false,
    deep := false, sleepSince := 0, idleSince := 0, wakeEnd := 0, auditDue := 0, lastCause := 0, timeDue := 0,
    timeTag := 0, timeCount := 0, sentTags := [], rtts := [], accepted := 0, pathDelay := 0,
    pathValid := false, missed := 0 }

def VcSt.init : VcSt :=
  { bv := 0, hold := 0, ac := 0, freed := 0, reported := 0, firstFree := none, lastReturn := 0, rxOpen := none,
    rxMsgs := [], cl := 0, c := 0, cRel := 0, partnerBv := 0, txQ := [] }

def PairSt.init : PairSt := { next := 0, last := 0, isReset := true, lastPass := 0 }

def LaneSt.init : LaneSt :=
  { queue := [], txHist := 0, rxHist := none, rxBad := false, calWait := none, mapStart := 0, spoiled := [],
    dfeDue := 0, moveDue := 0, emphasis := 0, partnerSetting := 0, eqBest := 0, eqPoints := 0, taps := [0, 0, 0], phase := 0,
    threshold := 0, wantPhase := 0, wantThreshold := 0, eyeWidth := 64, eyeHeight := 32, closedRun := 0, latency := 0, txLatency := 0,
    deferred := false, calDue := 0, calLast := 0 }

def ChanSt.init : ChanSt :=
  { status := .idle, active := none, shadow := none, pendingFlag := false, triggers := [], activeFrom := 0,
    startsNow := false, startedAt := 0, issued := 0, flight := [], bytes := [], stale := [], taken := 0, wrote := 0,
    wroteAt := 0, landed := 0, firstLand := 0, halfDone := false, srcId := 0, dropped := [] }

def Avocet.init : Avocet :=
  { running := false, stopped := false, halted := false, errNow := false, errCycles := 0,
    faultWords := [], dmaCommit := false, edges := [] }

/-- Before the first draw of a session value (13 R287); the value 0 is the model's (log entry 4). -/
def Hidiquel.init : Hidiquel :=
  { session := 0, txCount := 1, rxHigh := 0, key := 0, rx := [], subs := [], xfer := none,
    switch := none, raise := none, snaps := [] }

def Power.init : Power := { level := 0, quietSince := none, s3Since := 0, efftolDue := 0, woken := false, bittern := none }

def FaultLog.init : FaultLog := { entries := [], waiting := [], made := 0, untilReset := false, corrected := 0 }

def Scrub.init : Scrub := { next := 0, due := 16 }

def Freeze.init : Freeze :=
  { latched := false, held := false, heldToEnd := false, fromS3 := false, stampLocal := 0,
    stampWorking := 0 }

def Readout.init : Readout := { running := false, memsel := false, pos := 0, tsDo := 0 }

/-- The power-on reset asserted: nothing powered yet, nothing measured (log entries 3 and 4). -/
def State.reset : State :=
  { pending := [], now := 0, free := 0, frameIds := 0, out := [], supply := Supply.init,
    straps := BinaryStraps.init, ladder := Ladder.init, boot := Boot.init, otp := OtpBits.init,
    fuses := none, tables := emptyTables, lost := [], staged := none, commit := none, mem := [], upsets := [],
    halfLatch := none, hwWrote := (0, []), station := Station.init, regions := [], dunlin := Dunlin.init, inputs := [],
    heron := Heron.init, streams := [], meters := [], coarse := 0, released := (0, 0), ports := [], mdio := Mdio.init, classQ := [],
    rxCells := [], highWater := [], listeners := [], links := [], vcs := [], pairs := [], lanes := [],
    quiet := false, chans := [], avocet := Avocet.init, hid := Hidiquel.init, counters := [],
    power := Power.init, faults := FaultLog.init, scrubs := [], freeze := Freeze.init,
    readout := Readout.init }

end Sys2Proof.Machine
end

