-- ==== Sys2Proof/Machine/Crossings.lean ====
section
/-!
DEFINITION. The clock-domain crossings (01 R13): mechanism, depth and latency of each, and the word clocks of the
Ethernet ports (R377). Periods are in ps, latencies in ck or in periods of the slower clock.
-/
namespace Sys2Proof.Machine

/-- How a signal crosses: through a dual-clock queue of a depth, a three-flop synchroniser, a dual-port SRAM, a
register, or a three-flop handshake. -/
inductive Mechanism where
  | dcq (depth : Nat) | threeFlop | dualPort | registered | handshake
deriving DecidableEq, Repr

/-- The crossings of R13's table; TS has none while CK runs. -/
inductive Crossing where
  | ckMtx | mrxCk | ckLtx | lrxCk | hostWrite | hardwareWrite | ckPatn | qsCk | bkCk | ckBk | xkToCk | ckToXk
  | edgeCk | freezeStop
deriving DecidableEq, Repr

/-- The mechanism: a DCQ's depth is in PCS words, blocks or bytes, as its data are. -/
def Crossing.mechanism : Crossing → Mechanism
  | .ckMtx => .dcq 16 | .mrxCk => .dcq 32 | .ckLtx => .dcq 16 | .lrxCk => .dcq 16 | .qsCk => .dcq 64
  | .hostWrite | .hardwareWrite => .dualPort
  | .ckPatn => .registered
  | .xkToCk | .ckToXk => .handshake
  | .bkCk | .ckBk | .edgeCk | .freezeStop => .threeFlop

/-- The latency in ck; that of CK to BK and of CK to XK is 3 periods of the slower clock: 300 ns and 120 ns. -/
def Crossing.ck : Crossing → Nat
  | .ckMtx => 8 | .mrxCk => 10 | .ckLtx => 6 | .lrxCk => 8 | .hostWrite => 4 | .hardwareWrite => 1
  | .ckPatn => 2 | .qsCk => 5 | .bkCk => 3 | .ckBk => 240 | .xkToCk => 3 | .ckToXk => 96
  | .edgeCk => 4 | .freezeStop => 4

/-- The period of MTX[p] and MRX[p] at a port mode, one PCS word each (R377); 0 for a port that is off. -/
def wordPeriodPs (mode : Nat) : Nat :=
  match mode with
  | 1 => 6400 | 2 => 12800 | 3 => 3200 | 4 => 8000 | 5 => 8000 | 6 => 8000 | _ => 0

/-- Bits of a PCS word (R377). -/
def pcsWordBits (mode : Nat) : Nat := match mode with | 1 => 66 | 2 => 66 | 0 => 0 | _ => 10

/-- The period of LRX[n] at a line rate: a block at 6.7, 3.35 or 1.675 Gbaud (17 R347). -/
def lanePeriodPs (rate : Nat) : Nat := match rate with | 3 => 10000 | 2 => 20000 | _ => 40000

end Sys2Proof.Machine
end

