-- ==== Sys2Proof/Machine/Operands.lean ====
section
/-!
DEFINITION. The operand forms of the commands: Ethernet header fields (07 R154), Dziak block fields
(08 R182, R185, 09 R210, R211) and Hidiquel frames (13 R284), read from bits and built.
-/
namespace Sys2Proof.Machine

/-! ### Ethernet frames -/

/-- What Spoonbill compares (07 R154): addresses, the C-tag's TCI, the R-TAG's number, the EtherType. -/
structure EthHdr where
  dst : Mac
  src : Mac
  ctag : Option Nat
  rtag : Option Nat
  etherType : Nat
deriving DecidableEq, Repr

/-- The position after the addresses and the C-tag: where an R-TAG would stand (07 R163). -/
def rtagPos (b : List Byte) : Nat := if beNat (slice b 12 2) = 0x8100 then 16 else 12

/-- A frame carries an R-TAG in its place (07 R154). -/
def hasRtag (b : List Byte) : Bool := beNat (slice b (rtagPos b) 2) == 0xF1C1

def ethHdr (b : List Byte) : EthHdr :=
  let p := rtagPos b
  let tagged := hasRtag b
  { dst := BitVec.ofNat 48 (beNat (slice b 0 6)), src := BitVec.ofNat 48 (beNat (slice b 6 6)),
    ctag := if p = 16 then some (beNat (slice b 14 2)) else none,
    rtag := if tagged then some (beNat (slice b (p + 4) 2)) else none,
    etherType := beNat (slice b (if tagged then p + 6 else p) 2) }

/-- The PCP of a C-tag; 0 for an untagged frame (07 R157). -/
def pcpOf (h : EthHdr) : Nat := match h.ctag with | some t => t / 8192 % 8 | none => 0
/-- The VID of a C-tag. -/
def vidOf (t : Nat) : Nat := t % 4096

/-- The frame with its R-TAG: inserted after the C-tag, or its number overwritten (07 R163). -/
def insertRtag (b : List Byte) (seq : Nat) : List Byte :=
  let p := rtagPos b
  if hasRtag b then b.take (p + 4) ++ beBytes 2 seq ++ b.drop (p + 6)
  else b.take p ++ [0xF1, 0xC1, 0, 0] ++ beBytes 2 seq ++ b.drop p

/-- The frame with its R-TAG removed (07 R166). -/
def stripRtag (b : List Byte) : List Byte :=
  let p := rtagPos b
  if hasRtag b then b.take p ++ b.drop (p + 6) else b

/-! ### Dziak blocks -/

/-- A field of a block body, [lo + w - 1 : lo]. -/
def bf (b : Block) (lo w : Nat) : Nat := bitsOf b.toNat lo w

def hdrSeq (b : Block) : Nat := bf b 8 12
def hdrVc (b : Block) : Nat := bf b 20 3
def hdrLen (b : Block) : Nat := bf b 23 9
def hdrKind (b : Block) : Nat := bf b 32 2
def hdrSom (b : Block) : Bool := bf b 34 1 == 1
def hdrEom (b : Block) : Bool := bf b 35 1 == 1
def hdrPseq (b : Block) : Nat := bf b 36 16

/-- An HDR body (08 R182). -/
def mkHdr (seq vc len kind : Nat) (som eom : Bool) (pseq : Nat) : Block :=
  BitVec.ofNat 64 (0x2D + seq % 4096 * 2 ^ 8 + vc % 8 * 2 ^ 20 + len % 512 * 2 ^ 23 + kind % 4 * 2 ^ 32 +
    bitW som (2 ^ 34) + bitW eom (2 ^ 35) + pseq % 65536 * 2 ^ 36)

def tailS (b : Block) : Nat := bf b 0 12
def tailVc (b : Block) : Nat := bf b 12 3
def tailEmpty (b : Block) : Bool := bf b 15 1 == 1
def tailCl (b : Block) : Nat := bf b 16 16
def tailCrc (b : Block) : Nat := bf b 32 32

/-- The packet CRC-32 (08 R185). -/
def packetCrc (hdr : Block) (payload : List Byte) (tailLow : Nat) : Nat :=
  crc32 (leBytes 8 hdr.toNat ++ payload ++ leBytes 4 tailLow)

/-- A tail body with its CRC-32 (08 R185). -/
def mkTail (hdr : Block) (payload : List Byte) (s vc cl : Nat) (empty : Bool) : Block :=
  let low := s % 4096 + vc % 8 * 4096 + bitW empty 32768 + cl % 65536 * 65536
  BitVec.ofNat 64 (low + packetCrc hdr payload low * 2 ^ 32)

def ackS (b : Block) : Nat := bf b 8 12
def ackCrv (b : Block) : Bool := bf b 20 1 == 1
def ackVc (b : Block) : Nat := bf b 21 3
def ackEmpty (b : Block) : Bool := bf b 24 1 == 1
def ackCl (b : Block) : Nat := bf b 25 16

/-- An ACK (0x33) or NAK (0x3C) body (08 R182). -/
def mkAck (type s : Nat) (crv : Bool) (vc cl : Nat) (empty : Bool) : Block :=
  withCrc8 (type + s % 4096 * 2 ^ 8 + bitW crv (2 ^ 20) + vc % 8 * 2 ^ 21 + bitW empty (2 ^ 24) +
    cl % 65536 * 2 ^ 25)

def auditVcOf (b : Block) : Nat := bf b 20 3
def auditAc (b : Block) : Nat := bf b 24 16
/-- An AUDIT body (08 R182). -/
def mkAudit (s vc ac : Nat) : Block :=
  withCrc8 (0x55 + s % 4096 * 2 ^ 8 + vc % 8 * 2 ^ 20 + ac % 65536 * 2 ^ 24)

def echoTag (b : Block) : Nat := bf b 8 4
def echoTurn (b : Block) : Nat := bf b 12 24

/-- A short TIME body (08 R182, 05 R113). -/
def mkTimeShort (tag sec ns frac6 : Nat) : Block :=
  withCrc4 (0x60 + tag % 16 * 2 ^ 8 + sec % 65536 * 2 ^ 12 + ns % 2 ^ 30 * 2 ^ 28 + frac6 % 64 * 2 ^ 58)
/-- A long TIME body. -/
def mkTimeLong (tag secHi status : Nat) : Block :=
  withCrc4 (0x70 + tag % 16 * 2 ^ 8 + secHi % 2 ^ 32 * 2 ^ 12 + status % 8 * 2 ^ 44)

/-- The type byte of a control block (08 R180). -/
def blockType (b : Block) : Nat := bf b 0 8

/-- A TS1 (0x80) or TS2 (0x81) body, role 0 (09 R210). -/
def mkTs (type lane : Nat) (spare : Bool) (plan link rows : Nat) : Block :=
  withCrc8 (type + lane % 8 * 2 ^ 8 + bitW spare (2 ^ 11) + plan % 16 * 2 ^ 12 + link % 32 * 2 ^ 16 +
    (if type = 0x81 then rows % 256 * 2 ^ 24 else 0))

/-- A PARAM body: index in [11:8], content in [55:12] (09 R210). -/
def mkParam (index content : Nat) : Block := withCrc8 (0x82 + index % 16 * 2 ^ 8 + content)
/-- A PARAM_ACK body. -/
def mkParamAck (mask : Nat) : Block := withCrc8 (0x83 + mask % 65536 * 2 ^ 8)
/-- A SPEED body. -/
def mkSpeed (rate count : Nat) : Block := withCrc8 (0x84 + rate % 4 * 2 ^ 8 + count % 256 * 2 ^ 16)
/-- An EQ_REQ (0x85) or EQ_DONE (0x86) body. -/
def mkEq (type lane setting : Nat) : Block := withCrc8 (type + lane % 8 * 2 ^ 8 + setting % 16 * 2 ^ 12)
/-- A READY body. -/
def mkReady (s mask : Nat) : Block := withCrc8 (0x87 + s % 4096 * 2 ^ 8 + mask % 256 * 2 ^ 20)

/-- The body of a CAL block (09 R225). -/
def calBody : Block := BitVec.ofNat 64 (leNat [0x99, 0xC3, 0x3C, 0xC3, 0x3C, 0xC3, 0x3C, 0xC3])

/-! ### Times -/

def unitsPerNs : Nat := 2 ^ 32
def unitsPerSec : Nat := 1000000000 * unitsPerNs
/-- One ck of nominal time (05 R101). -/
def ckUnits : Nat := nominalInc
/-- One 156.25 ps capture phase, and its middle (05 R108). -/
def phaseUnits : Nat := 671088640
def halfPhase : Nat := 335544320

/-- The 12 bytes of a time in the format of 05 R101. -/
def timeBytes12 (t : Nat) : List Byte :=
  leBytes 2 (t / 65536 % 65536) ++ leBytes 4 (t % unitsPerSec / unitsPerNs) ++
    leBytes 6 (t / unitsPerSec % 2 ^ 48)

/-- A counter's value from a signed number of units, modulo the counter's range. -/
def timeOfInt (t : Int) : Nat := (t % ((2 ^ 48 * unitsPerSec : Nat) : Int)).toNat

/-- Microseconds in ck. -/
def usCk (n : Nat) : Nat := n * 800
/-- Milliseconds in ck. -/
def msCk (n : Nat) : Nat := n * 800000
/-- Nanoseconds in ck, rounded up. -/
def nsCk (n : Nat) : Nat := cdiv (n * 4) 5

/-! ### Hidiquel frames -/

/-- Header bytes 0 to 23 of a Hidiquel frame (13 R284). -/
def hidHeader (version opcode flags status : Nat) (serial counter : BitVec 64) (reqTag : BitVec 16)
    (len : Nat) : List Byte :=
  leBytes 1 version ++ leBytes 1 opcode ++ leBytes 1 flags ++ leBytes 1 status ++
    leBytes 8 serial.toNat ++ leBytes 8 counter.toNat ++ leBytes 2 reqTag.toNat ++ leBytes 2 len

/-- What the CMAC covers: the addresses, then the header and payload (13 R286). -/
def hidSigned (dst src : Mac) (header payload : List Byte) : List Byte :=
  beBytes 6 dst.toNat ++ beBytes 6 src.toNat ++ header ++ payload

/-- The addresses, optional C-tag and EtherType of a frame, in network order. -/
def ethPrefix (dst src : Mac) (ctag : Option (BitVec 16)) (etherType : Nat) : List Byte :=
  beBytes 6 dst.toNat ++ beBytes 6 src.toNat ++
    (match ctag with | some t => [0x81, 0x00] ++ beBytes 2 t.toNat | none => []) ++ beBytes 2 etherType

/-- A Hidiquel frame's bytes without FCS, padded to the minimum frame (13 R284). -/
def hidBytes (dst src : Mac) (ctag : Option (BitVec 16)) (etherType : Nat) (header payload : List Byte)
    (tag : BitVec 96) : List Byte :=
  let b := ethPrefix dst src ctag etherType ++ header ++ payload ++ beBytes 12 tag.toNat
  b ++ List.replicate (60 - b.length) 0

/-- The bytes of a request as received, its FCS apart (13 R284). -/
def hidRequestBytes (etherType opcode : Nat) (r : HidFrame) : List Byte :=
  hidBytes r.dst r.src r.ctag etherType
    (hidHeader r.version.toNat opcode r.flags.toNat 0 r.serial r.counter r.reqTag r.length) r.payload r.tag

end Sys2Proof.Machine
end

