-- ==== Sys2Proof/Machine/Ops.lean ====
section
/-!
DEFINITION. The named operations over the state that the commands share: keyed sub-states, counters
(13 R301, R304), the process image (10 R230), time (05 R101 to R107), Heron time, the lane plan (09 R208),
buffer accounts (12 R271 to R274), and the internal reset (02 R29, 03 R44).
-/
namespace Sys2Proof.Machine

/-! ### Keyed sub-states: an absent key reads as the value at reset -/

def port (s : State) (p : Nat) : PortSt := mGetD s.ports p PortSt.init
def setPort (s : State) (p : Nat) (x : PortSt) : State := { s with ports := mSet s.ports p x }
def link (s : State) (k : Nat) : LinkSt := mGetD s.links k LinkSt.init
def setLink (s : State) (k : Nat) (x : LinkSt) : State := { s with links := mSet s.links k x }
/-- A link's VC, keyed 8k + v. -/
def vc (s : State) (k v : Nat) : VcSt := mGetD s.vcs (8 * k + v) VcSt.init
def setVc (s : State) (k v : Nat) (x : VcSt) : State := { s with vcs := mSet s.vcs (8 * k + v) x }
def lane (s : State) (n : Nat) : LaneSt := mGetD s.lanes n LaneSt.init
def setLane (s : State) (n : Nat) (x : LaneSt) : State := { s with lanes := mSet s.lanes n x }
def chan (s : State) (c : Nat) : ChanSt := mGetD s.chans c ChanSt.init
def setChan (s : State) (c : Nat) (x : ChanSt) : State := { s with chans := mSet s.chans c x }
def stream (s : State) (q : Nat) : StreamSt := mGetD s.streams q StreamSt.init
def setStream (s : State) (q : Nat) (x : StreamSt) : State := { s with streams := mSet s.streams q x }
def meter (s : State) (m : Nat) : MeterSt := mGetD s.meters m MeterSt.init
def setMeter (s : State) (m : Nat) (x : MeterSt) : State := { s with meters := mSet s.meters m x }
def listener (s : State) (l : Nat) : ListenerSt := mGetD s.listeners l ListenerSt.init
def setListener (s : State) (l : Nat) (x : ListenerSt) : State :=
  { s with listeners := mSet s.listeners l x }
def region (s : State) (r : Nat) : RegionSt := mGetD s.regions r RegionSt.init
def setRegion (s : State) (r : Nat) (x : RegionSt) : State := { s with regions := mSet s.regions r x }
/-- A redundant pair's VC, keyed 8j + v. -/
def pair (s : State) (j v : Nat) : PairSt := mGetD s.pairs (8 * j + v) PairSt.init
def setPair (s : State) (j v : Nat) (x : PairSt) : State := { s with pairs := mSet s.pairs (8 * j + v) x }
def input (s : State) (i : Nat) : TimeInput := mGetD s.inputs i TimeInput.init
def setInput (s : State) (i : Nat) (x : TimeInput) : State := { s with inputs := mSet s.inputs i x }
def scrub (s : State) (m : Nat) : Scrub := mGetD s.scrubs m Scrub.init
/-- A class queue, keyed 8p + c. -/
def classQueue (s : State) (p c : Nat) : List Frame := mGetD s.classQ (8 * p + c) []
def setClassQueue (s : State) (p c : Nat) (q : List Frame) : State :=
  { s with classQ := mSet s.classQ (8 * p + c) q }

/-- Apply `f` for each element of a list, in order. -/
def each {α : Type} (l : List α) (f : α → State → State) (s : State) : State :=
  l.foldl (fun t a => f a t) s

/-- Apply `f` when a condition holds. -/
def whenB (b : Bool) (f : State → State) (s : State) : State := if b then f s else s

/-- Note something on a pin or wire (log entry 10). -/
def emit (e : Emission) (s : State) : State := { s with out := s.out ++ [e] }

/-- Draw the next free value's number. -/
def drawFree (s : State) : State := { s with free := s.free + 1 }

/-! ### Counters (13 R301, R304) -/

/-- A counter's object ID (13 R290). -/
def ctrId (cls inst num : Nat) : Nat := cls * 2 ^ 24 + inst * 256 + num

/-- The counters of 64 bits (13 R304). -/
def wideCounter (cls num : Nat) : Bool :=
  (cls == 0x20 && num == 0) || (cls == 0x23 && (num == 19 || num == 20)) ||
  (cls == 0x29 && (num == 0 || num == 1)) || (cls == 0x2C && num == 5) ||
  (cls == 0x2D && (num == 3 || num == 4 || num == 11)) || (cls == 0x2E && (num == 0 || num == 1))

def ctrMod (cls num : Nat) : Nat := if wideCounter cls num then 2 ^ 64 else 2 ^ 32

def readCtr (s : State) (cls inst num : Nat) : Nat := mGetD s.counters (ctrId cls inst num) 0

/-- Add to a counter, wrapping. -/
def bumpBy (cls inst num n : Nat) (s : State) : State :=
  { s with counters := mSet s.counters (ctrId cls inst num) ((readCtr s cls inst num + n) % ctrMod cls num) }

def bump (cls inst num : Nat) (s : State) : State := bumpBy cls inst num 1 s

def bumpDev (n : Nat) (s : State) : State := bump 0x20 0 n s
def bumpPort (p n : Nat) (s : State) : State := bump 0x23 p n s
def bumpClass (p c n : Nat) (s : State) : State := bump 0x24 (8 * p + c) n s
def bumpLane (l n : Nat) (s : State) : State := bump 0x26 l n s
def bumpLink (k n : Nat) (s : State) : State := bump 0x27 k n s
def bumpVc (k v n : Nat) (s : State) : State := bump 0x28 (8 * k + v) n s
def bumpPair (j v n : Nat) (s : State) : State := bump 0x29 (8 * j + v) n s
def bumpChan (c n : Nat) (s : State) : State := bump 0x2A c n s
def bumpStream (q n : Nat) (s : State) : State := bump 0x2B q n s
def bumpCopy (q p n : Nat) (s : State) : State := bump 0x2C (4 * q + p) n s
def bumpListen (l n : Nat) (s : State) : State := bump 0x2D l n s

/-- Held in Bittern's domain: `boot.*`, `otp.unreadable`, `power.*` (13 R301). -/
def keptCounter (id : Nat) : Bool :=
  id / 256 == 0x20 * 2 ^ 16 && (within 11 15 (id % 256) || within 45 48 (id % 256))

/-! ### Process image (10 R230, R232, R243) -/

/-- What a byte that nothing has written reads as: the clear's zero (03 R46). -/
def memDefault : Byte := 0

def readByte (s : State) (a : Nat) : Byte := mGetD s.mem a memDefault

/-- Write one byte, keeping the canonical form: no entry equals what an unlisted byte reads as. -/
def putByte (m : List Host.Cell) (a : Nat) (b : Byte) : List Host.Cell :=
  if b = memDefault then mErase m a else mSet m a b

/-- Addresses strictly rising, and no entry equal to what an unlisted address reads as. -/
def memWf (m : List Host.Cell) : Bool := mSorted m && m.all (fun c => decide (c.2 ≠ memDefault))

def writeByte (a : Nat) (b : Byte) (s : State) : State := { s with mem := putByte s.mem a b }

def readWord (s : State) (w : Nat) : Word :=
  BitVec.ofNat 32 (leNat ((List.range 4).map (fun i => readByte s (4 * w + i))))

/-- A byte of a word. -/
def byteOf (v : Word) (i : Nat) : Byte := (v >>> (8 * i)).setWidth 8

/-- Write the enabled bytes of a word (10 R230, R232). -/
def putWord (m : List Host.Cell) (w : Nat) (v : Word) (be : BitVec 4) : List Host.Cell :=
  (List.range 4).foldl (fun m i => if be.getLsbD i then putByte m (4 * w + i) (byteOf v i) else m) m

def writeWord (w : Nat) (v : Word) (be : BitVec 4) (s : State) : State :=
  { s with mem := putWord s.mem w v be }

/-- A host-owned word of the station block takes a value (10 R242): HOSTLTR, HEARTBEAT, HBWINDOW, ATTNMASK and
HOSTINFO stand in the image's SRAM as the host writes them. -/
def setHostWord (n : Nat) (v : Word) (s : State) : State :=
  let st := s.station
  match n with
  | 19 => { s with station := { st with hostLtr := v } }
  | 20 => { s with station := { st with heartbeat := v } }
  | 21 => { s with station := { st with hbWindow := v } }
  | 22 => { s with station := { st with attnMask := v } }
  | 62 => { s with station := { st with hostInfo0 := v } }
  | 63 => { s with station := { st with hostInfo1 := v } }
  | _ => s

/-- An SRAM word of the image takes a value whole. -/
def setSram (w : Nat) (v : Word) (s : State) : State :=
  if 0xFFC0 ≤ w then setHostWord (w - 0xFFC0) v s else writeWord w v 15 s

/-- Write bytes from a byte address on. -/
def writeBytes : Nat → List Byte → State → State
  | _, [], s => s
  | a, b :: r, s => writeBytes (a + 1) r (writeByte a b s)

/-- Bytes from a byte address on. -/
def readBytes (s : State) (a n : Nat) : List Byte := (List.range n).map (fun i => readByte s (a + i))

/-- A word merged with the enabled bytes of another. -/
def mergeWord (old new : Word) (be : BitVec 4) : Word :=
  BitVec.ofNat 32 (leNat ((List.range 4).map (fun i => if be.getLsbD i then byteOf new i else byteOf old i)))

/-- The region a word lies in: its index, record, and whether it is the area of bank 1 (10 R236). -/
def regionAt (s : State) (w : Nat) : Option (Nat × PimapRec × Bool) :=
  (s.tables.pimap.find? (fun x =>
    (decide (x.2.base ≤ w) && decide (w < x.2.base + x.2.len)) ||
      (x.2.banked && decide (x.2.base1 ≤ w) && decide (w < x.2.base1 + x.2.len)))).map
    (fun x => (x.1, x.2, x.2.banked && !(decide (x.2.base ≤ w) && decide (w < x.2.base + x.2.len))))

/-- The physical word of a bank: offset `o` in bank `b` of a region. -/
def bankWord (r : PimapRec) (b : Bool) (o : Nat) : Nat := (if b then r.base1 else r.base) + o

/-- The physical word that a read of word `w` reaches: the current window is the host-side bank, the
other window the hardware-side bank (10 R236). -/
def readTarget (s : State) (w : Nat) : Nat :=
  match regionAt s w with
  | some (i, r, other) =>
    if r.banked then
      bankWord r (if other then !(region s i).bank else (region s i).bank)
        (w - (if other then r.base1 else r.base))
    else w
  | none => w

/-- The physical word that a hardware write to word `w` reaches: the hardware-side bank (10 R236). -/
def hardwareTarget (s : State) (w : Nat) : Nat :=
  match regionAt s w with
  | some (i, r, other) =>
    if r.banked then bankWord r (!(region s i).bank) (w - (if other then r.base1 else r.base)) else w
  | none => w

/-- The scrubbed memories, numbered. -/
def memCode : MemoryId → Nat
  | .packetBuffer => 0 | .lanePool => 1 | .replayStore => 2 | .processImage => 3 | .multiTables => 4
  | .singleTables => 5

/-- The key of a stored word's flipped bits: memory, copy, word number or record (15 R328). -/
def upsetKey (m : MemoryId) (copy addr : Nat) : Nat := memCode m * 2 ^ 40 + copy * 2 ^ 36 + addr

/-! ### The straps and the lane plan (02 R36 to R39, 09 R208) -/

def ladderPin (s : State) (i : Nat) : LadderPin := s.ladder.pins.getD i LadderPin.init
def ladderCode (s : State) (i : Nat) : Nat := (ladderPin s i).code

/-- The station identity (02 R36). -/
def stationId (s : State) : Nat :=
  if ladderCode s 0 = 16 ∨ ladderCode s 1 = 16 then 0xFF else ladderCode s 0 * 16 + ladderCode s 1

/-- The lane plan; OPEN acts as code 15 (02 R37). -/
def plan (s : State) : Nat := if ladderCode s 2 = 16 then 15 else ladderCode s 2

/-- The strap mode of a port: reserved and OPEN read as off (02 R38). -/
def strapMode (s : State) (p : Nat) : Nat :=
  let c := ladderCode s (3 + p); if within 1 6 c then c else 0

/-- LTOL in units of a microsecond, none when unbounded (02 R39). -/
def ltolUs (s : State) : Option Nat :=
  match ladderCode s 7 with
  | 0 => some 1 | 1 => some 2 | 2 => some 5 | 3 => some 10 | 4 => some 20 | 5 => some 50
  | 6 => some 100 | 7 => some 200 | 8 => some 500 | 9 => some 1000 | 10 => some 2000
  | 11 => some 5000 | 12 => some 10000 | 13 => some 20000 | 14 => some 50000 | 15 => none
  | _ => some 1

def lanesFrom (a n : Nat) : List Nat := (List.range n).map (· + a)

/-- The lanes of link k, in ascending lane number (09 R208). -/
def planLanes (plan k : Nat) : List Nat :=
  match plan with
  | 0 => if k < 32 then [k] else []
  | 1 => if k < 16 then lanesFrom (2 * k) 2 else []
  | 2 => if k < 8 then lanesFrom (4 * k) 4 else []
  | 3 => if k < 4 then lanesFrom (8 * k) 8 else []
  | 4 => if k < 16 then [k] else if k < 24 then lanesFrom (2 * k - 16) 2 else []
  | 5 => if k < 16 then [k] else if k < 20 then lanesFrom (4 * k - 48) 4 else []
  | 6 => if k < 8 then lanesFrom (2 * k) 2 else if k < 12 then lanesFrom (4 * k - 16) 4 else []
  | 7 => if k < 16 then [k] else if k < 20 then lanesFrom (2 * k - 16) 2
         else if k < 22 then lanesFrom (4 * k - 56) 4 else []
  | 8 => if k < 24 then [k] else if k < 26 then lanesFrom (4 * k - 72) 4 else []
  | 9 => if k < 6 then lanesFrom (5 * k) 5 else if k < 8 then [k + 24] else []
  | 10 => if k < 10 then lanesFrom (3 * k) 3 else if k < 12 then [k + 20] else []
  | 11 => if k < 32 then [k] else []
  | 12 => if k < 16 then lanesFrom (2 * k) 2 else []
  | 13 => if k < 16 then [k] else []
  | 14 => if k < 8 then [k] else []
  | _ => []

def planLinks (plan : Nat) : Nat := ((List.range 32).filter (fun k => !(planLanes plan k).isEmpty)).length
/-- Links whose highest logical lane is a spare (02 R37, 09 R208). -/
def planSpare (plan k : Nat) : Bool := (plan == 9 && decide (k < 6)) || (plan == 10 && decide (k < 10))
/-- Plans whose links 2j and 2j + 1 form pair j. -/
def planPairs (plan : Nat) : Bool := plan == 11 || plan == 12

def inPlan (s : State) (k : Nat) : Bool := !(planLanes (plan s) k).isEmpty
def linkLanes (s : State) (k : Nat) : List Nat := planLanes (plan s) k
def width (s : State) (k : Nat) : Nat := (linkLanes s k).length
/-- The mask of every logical lane of a link. -/
def allLanes (s : State) (k : Nat) : Nat := 2 ^ width s k - 1
/-- The mask of the working lanes: all but a spare. -/
def workingMask (s : State) (k : Nat) : Nat :=
  if planSpare (plan s) k then 2 ^ (width s k - 1) - 1 else allLanes s k
/-- Lanes of a link that are not excluded. -/
def keptLanes (s : State) (k : Nat) : Nat := allLanes s k - (allLanes s k &&& (link s k).excluded)
/-- The link and logical lane of a physical lane. -/
def laneHome (s : State) (n : Nat) : Option (Nat × Nat) :=
  (List.range 32).findSome? (fun k => (findIx (· == n) (linkLanes s k) 0).map (fun i => (k, i)))

/-- The LANES record of a link, or the defaults of 04 R83. -/
def lanesRec (s : State) (k : Nat) : LanesRec :=
  (mFind s.tables.lanes k).getD
    { link := k, rate := 1, ackCount := 8, limitN := 4, limitM := 3, ackNs := 320, replayNs := 2000,
      auditUs := 1000, trainUs := 1000, pairElim := planPairs (plan s), timeBlocks := true }

/-- The lowest-numbered active lane of a link: the timing lane (05 R113). -/
def timingLane (s : State) (k : Nat) : Nat :=
  match firstBelow 8 (fun i => hasBit (link s k).finalMask i) with
  | some i => (linkLanes s k).getD i 0
  | none => (linkLanes s k).headD 0

/-- A block slot in ck at a line rate: 40, 20 or 10 ns (08 R178). -/
def slotCk (rate : Nat) : Nat := match rate with | 3 => 8 | 2 => 16 | _ => 32
/-- One UI / 64 in units of 2^-32 ns, rounded: a UI at 6.7, 3.35 or 1.675 Gbaud (01 R17; 09 R223). -/
def samplerStep (rate : Nat) : Int :=
  match rate with | 3 => 10016248 | 2 => 20032497 | _ => 40064993

/-! ### Phases and power -/

def frozen (s : State) : Bool := s.freeze.latched
/-- The device runs: out of reset, not frozen, not in S4. -/
def running (s : State) : Bool := !s.supply.inReset && !frozen s && s.power.level != 4
/-- CK runs: the device runs, and is not in S3. -/
def ckRuns (s : State) : Bool := running s && s.power.level != 3
def inService (s : State) : Bool := s.boot.phase == .service
def inBare (s : State) : Bool := s.boot.phase == .bare
/-- Tables are in force: WAIT_TIME and SERVICE. -/
def serving (s : State) : Bool := s.boot.phase == .service || s.boot.phase == .waitTime

/-! ### Time (05) -/

def dom (s : State) (d : Dom) : DomSt := if d = 0 then s.dunlin.dom0 else s.dunlin.dom1
def setDom (d : Dom) (x : DomSt) (s : State) : State :=
  if d = 0 then { s with dunlin := { s.dunlin with dom0 := x } }
  else { s with dunlin := { s.dunlin with dom1 := x } }
def otherDom (d : Dom) : Dom := if d = 0 then 1 else 0

def workingCount (s : State) : Nat := (dom s s.dunlin.working).count
/-- The time beneath H: LOCAL until the first rebase, then the working domain (05 R106). -/
def beneath (s : State) : Nat := if s.dunlin.rebased then workingCount s else s.dunlin.localCount
/-- What the time beneath H advances by in a ck (05 R101, R102). -/
def beneathInc (s : State) : Nat := if s.dunlin.rebased then (dom s s.dunlin.working).inc else nominalInc
/-- Heron time H (05 R106). On LOCAL, h is 0 but for a grid that a commit moved (06 R142). -/
def heronTime (s : State) : Int := (beneath s : Int) + s.dunlin.h
/-- ALIGNING (05 R107): until the removal of h is complete. -/
def aligning (s : State) : Bool := s.dunlin.h != 0 || s.dunlin.slewPpm != 0
def timeLock (s : State) : Bool := (dom s s.dunlin.working).st == .locked

def baseTime (t : TimeRec) : Nat := t.baseSec * unitsPerSec + t.baseNs * unitsPerNs
/-- The cycle in units of 2^-32 ns. -/
def cycleUnits (s : State) : Nat := s.tables.time.cycle * ckUnits

/-- Heron's own clock in ck: what the wheel, the deadlines and the meters count (06 R131). -/
def hck (s : State) : Nat := s.heron.acc / ckUnits
/-- The present in units of 2^-24 ck, as TATs are held (06 R131). -/
def now24 (s : State) : Nat := hck s * 2 ^ 24
/-- A TAT as an instant: the one nearest the present of those its 72 bits may name (06 R131, R141). -/
def tatAt (s : State) (t : BitVec 72) : Int := now24 s + (t - BitVec.ofNat 72 (now24 s)).toInt
/-- An instant as a TAT. -/
def tatOf (x : Int) : BitVec 72 := BitVec.ofInt 72 x
/-- Heron's offset within the cycle in ck, rounded down (05 R106). -/
def offset (s : State) : Nat := (s.heron.acc - s.heron.boundary) / ckUnits
/-- One cycle, where a limit is a number of cycles: 1 ms before Heron starts and in BARE (06 R378). -/
def oneCycle (s : State) : Nat := if s.heron.started then s.tables.time.cycle else 800000

/-- The h that keeps Heron's phase over a time beneath it, in [-C/2, C/2) (05 R107, 03 R59). -/
def phaseH (s : State) (under : Nat) : Int :=
  centred (((s.heron.acc : Int) - s.heron.boundary) - ((under : Int) - baseTime s.tables.time))
    (cycleUnits s)

/-- A rebase (05 R107): h zero before Heron starts, else the phase difference, then removed by slewing
at the TIME rate under SLEW and 100 ppm under STEP; `first` marks the first lock after a LOCAL start. A rebase in
the cycle of a STEP takes what is left of its h into the new one, and the cycle has its own length again (R118). -/
def rebase (first : Bool) (s : State) : State :=
  let t := s.tables.time
  let h := if s.heron.started then phaseH s (workingCount s) else 0
  let step := first && s.boot.startedLocal && t.alignment == 1 && h != 0
  bumpDev 6 { s with
    dunlin := { s.dunlin with
      rebased := true, h := h, stepPending := step, stepCycle := false,
      slewPpm := if step || h == 0 then 0 else if t.alignment == 0 then t.slewPpm else 100 }
    heron := { s.heron with len := if s.dunlin.stepCycle then cycleUnits s else s.heron.len } }

/-- Move h toward zero by at most `d` units. -/
def shrinkH (h : Int) (d : Nat) : Int := if h > d then h - d else if h < -(d : Int) then h + d else 0

/-- One ck passes (log entry 2); in S3 one XK period of 32 ck (05 R102). -/
def tick (s : State) : State :=
  let n := if s.power.level = 3 then 32 else 1
  let d := s.dunlin
  let inc := beneathInc s
  let h' := if d.stepPending || d.stepCycle then d.h else shrinkH d.h (inc * n * d.slewPpm / 1000000)
  { s with
    now := s.now + n
    dunlin := { d with localCount := d.localCount + nominalInc * n,
                       dom0 := { d.dom0 with count := d.dom0.count + d.dom0.inc * n },
                       dom1 := { d.dom1 with count := d.dom1.count + d.dom1.inc * n }, h := h' }
    heron := { s.heron with
      acc := ((s.heron.acc : Int) + inc * n + (h' - d.h)).toNat
      copyA := { s.heron.copyA with fired := [], firedFlip := [] }
      copyB := { s.heron.copyB with fired := [], firedFlip := [] }
      copyC := { s.heron.copyC with fired := [], firedFlip := [] } } }

/-! ### Heron copies (06 R127 to R129) -/

def copies (s : State) : List HeronCopy := [s.heron.copyA, s.heron.copyB, s.heron.copyC]
def setCopies (f : HeronCopy → HeronCopy) (s : State) : State :=
  { s with heron := { s.heron with copyA := f s.heron.copyA, copyB := f s.heron.copyB, copyC := f s.heron.copyC } }
def liveCopies (s : State) : List HeronCopy := (copies s).filter (fun c => c.live)
/-- The live copy mask, copies A, B, C in bits 0 to 2 (10 R242). -/
def liveMask (s : State) : Nat :=
  bitW s.heron.copyA.live 1 + bitW s.heron.copyB.live 2 + bitW s.heron.copyC.live 4

/-- The bitwise majority of three numbers. -/
def maj3 (a b c : Nat) : Nat := (a &&& b) ||| (a &&& c) ||| (b &&& c)

/-- The majority of what the live copies say; the first copy's where fewer than three are live. -/
def voted (s : State) (f : HeronCopy → Nat) : Nat :=
  match liveCopies s with
  | [a, b, c] => maj3 (f a) (f b) (f c)
  | a :: _ => f a
  | [] => 0

def safeVector (s : State) (p : Nat) : BitVec 8 :=
  match s.tables.safe with
  | some r => if p = 0 then r.v0 else if p = 1 then r.v1 else if p = 2 then r.v2 else r.v3
  | none => 0xFF

/-- The gate vector in force on a port (06 R119, R129, R143). -/
def gateVector (s : State) (p : Nat) : BitVec 8 :=
  if !s.heron.started then 0xFF
  else if s.heron.safe then safeVector s p
  else BitVec.ofNat 8 (voted s (fun c => (c.vector.getD p 0xFF).toNat))

/-- The hold flag in force on a port (06 R121). -/
def holdFlag (s : State) (p : Nat) : Bool :=
  s.heron.started && !s.heron.safe && voted s (fun c => bitW (c.hold.getD p false) 1) == 1

/-- The gate control list in force on a port (06 R119). -/
def gateList (t : Tables) (p : Nat) : List GatesRec := (t.gates.filter (fun x => x.1 / 1024 == p)).map (·.2)

/-- A class is gated on a port (07 R152). -/
def gated (s : State) (p c : Nat) : Bool :=
  if !s.heron.started then false
  else if s.heron.safe then !(safeVector s p).getLsbD c
  else (gateList s.tables p).any (fun g => !g.vector.getLsbD c)

/-! ### Ports (07) -/

def portsRec (s : State) (p : Nat) : Option PortsRec := if inBare s then none else mFind s.tables.ports p

/-- The largest frame of a port: 1,522 bytes in BARE (03 R60, 07 R147). -/
def maxFrame (s : State) (p : Nat) : Nat := match portsRec s p with | some r => r.maxFrame | none => 1522

/-- The image modes permitted from a strap mode (07 R146). -/
def modePermitted (strap mode : Nat) : Bool :=
  mode == 0 ||
  (match strap with
   | 1 => within 1 5 mode | 2 => within 2 5 mode | 3 => within 3 5 mode
   | 4 => within 4 5 mode | 5 => within 4 5 mode | 6 => mode == 6 | _ => false)

/-- The mode in force: the image's where it is permitted, else the strap mode (02 R38, 07 R146). -/
def modeInForce (s : State) (p : Nat) : Nat :=
  let strap := strapMode s p
  if strap = 0 then 0
  else match portsRec s p with
    | some r => if modePermitted strap r.mode then r.mode else strap
    | none => strap

/-- A port is off: by strap or by PORTS mode 0 (07 R146). -/
def portOff (s : State) (p : Nat) : Bool := modeInForce s p == 0

/-- Time per byte at the PCS in hundredths of a ck (06 R122). -/
def byteCk100 (x : PortSt) : Nat :=
  match x.mode with
  | 1 => 64 | 2 => 128 | 3 => 256
  | 6 => if x.speed = 0 then 64000 else if x.speed = 1 then 6400 else 640
  | _ => 640

/-- D of a frame of L bytes: (L + 20) bytes at the port's rate, rounded up (06 R122). -/
def wireCk (x : PortSt) (len : Nat) : Nat := cdiv ((len + 20) * byteCk100 x) 100

/-- Pre-emption is active (07 R149). -/
def preemptActive (s : State) (p : Nat) : Bool :=
  match portsRec s p with
  | some r => r.preempt && r.verification && (port s p).up && (port s p).verify == .verified
  | none => false

def isExpress (s : State) (p c : Nat) : Bool :=
  match portsRec s p with | some r => hasBit r.express c | none => true

/-- A pause ends at once on a class that has become gated (07 R152, R174). -/
def endPauses (s : State) : State :=
  each (List.range 4) (fun p s =>
    let x := port s p
    setPort s p { x with pausedUntil := x.pausedUntil.zipIdx.map (fun e => if gated s p e.2 then 0 else e.1) }) s

/-- The MGMT ports mask; every port in BARE (13 R285). -/
def mgmtMask (s : State) : Nat :=
  if inBare s then 15 else match s.tables.mgmt with | some m => m.ports | none => 0

/-! ### Frames and buffer accounts (12 R271 to R274) -/

/-- Cells of 256 bytes; a length counts the FCS. -/
def cellsOf (len : Nat) : Nat := cdiv len 256

/-- A frame's length as it leaves the MAC, FCS included. -/
def frameLen (f : Frame) : Nat := f.bytes.length + 4

def plainFrame (id : Nat) (bytes : List Byte) (arrival deadline : Nat) : Frame :=
  { id := id, bytes := bytes, stream := none, seq := 0, arrival := arrival, deadline := deadline,
    stale := false, whole := true, ended := true, cut := false, raised := false, carriedBad := false, account := none, cells := 0,
    hid := false, event := none, started := false, sent := 0 }

/-- Every frame that a port holds: its class queues, its wire, its pre-empted frame. -/
def portFrames (s : State) (p : Nat) : List Frame :=
  (List.range 8).flatMap (classQueue s p) ++
    (match (port s p).tx with | some t => [t.frame] | none => []) ++
    (match (port s p).preempted with | some x => [x.2] | none => [])

def sentFrames (s : State) : List Frame := (List.range 4).flatMap (portFrames s)

/-- A frame still has a copy somewhere on the transmit side. -/
def frameAlive (s : State) (id : Nat) : Bool := (sentFrames s).any (fun f => f.id == id)

/-- Cells of the reservations of a set of tables under the straps in force (12 R271). -/
def reservedCells (s : State) (t : Tables) : Nat :=
  let streams := (t.streams.map (fun x => x.2.buffers * cellsOf x.2.maxFrame)).sum
  let on := fun p => strapMode s p != 0 &&
    (match mFind t.ports p with | some r => r.mode != 0 | none => true)
  let rx := ((List.range 4).filter on).length * 8 * 40
  streams + rx + planLinks (plan s) * 64 + 64

/-- The receive reserve of an account: 40 cells, none for a port that is off (12 R271). -/
def rxReserve (s : State) (p : Nat) : Nat := if portOff s p then 0 else 40

/-- Cells of a receive account, keyed 8p + c. -/
def rxHeld (s : State) (p c : Nat) : Nat := mGetD s.rxCells (8 * p + c) 0

/-- Cells of a stream's frames, from opening until the last copy ends, each frame once (12 R271). -/
def streamCells (s : State) (q : Nat) : Nat :=
  let x := stream s q
  let fs := x.queue ++ x.tunnels.map (·.2) ++ (sentFrames s).filter (fun f => f.stream == some q)
  ((fs.map (·.id)).eraseDups.map (fun i =>
    match fs.find? (fun f => f.id == i) with | some f => cellsOf (frameLen f) | none => 0)).sum

/-- The cells in use of reservations that a commit has shrunk: they stay where they are until they free (12 R282). -/
def shrunkCells (s : State) : Nat :=
  (s.streams.map (fun x => streamCells s x.1 -
    (match mFind s.tables.streams x.1 with | some r => r.buffers * cellsOf r.maxFrame | none => 0))).sum

/-- Free cells of the shared pool (12 R271, R273): the remainder less what accounts have borrowed and what shrunk
reservations still hold. -/
def sharedFree (s : State) : Nat :=
  let borrowed := ((List.range 32).map (fun i => rxHeld s (i / 8) (i % 8) - rxReserve s (i / 8))).sum
  24576 - reservedCells s s.tables - borrowed - shrunkCells s

/-- A receive account can take `n` cells (12 R273). -/
def canTake (s : State) (p c n : Nat) : Bool :=
  let held := rxHeld s p c
  let extra := (held + n) - max held (rxReserve s p)
  decide (held + n ≤ 1064) && decide (extra ≤ sharedFree s)

def takeCells (p c n : Nat) (s : State) : State :=
  let held := rxHeld s p c + n
  { s with rxCells := mSet s.rxCells (8 * p + c) held,
           highWater := mSet s.highWater (8 * p + c) (max held (mGetD s.highWater (8 * p + c) 0)) }

def freeCells (account : Option Nat) (n : Nat) (s : State) : State :=
  match account with
  | some a => { s with rxCells := mSet s.rxCells a (mGetD s.rxCells a 0 - n) }
  | none => s

/-- Free a discarded frame's receive cells once no copy is left (12 R274). -/
def releaseFrame (f : Frame) (s : State) : State :=
  whenB (!frameAlive s f.id) (freeCells f.account f.cells) s

/-- Frame buffers of a stream in use: under assembly, tunnelled in, queued, or with a copy left (12 R271). -/
def buffersInUse (s : State) (q : Nat) : Nat :=
  let x := stream s q
  let ids := (x.queue ++ x.tunnels.map (·.2) ++
    (sentFrames s).filter (fun f => f.stream == some q)).map (·.id)
  ids.eraseDups.length + (if x.assembly.isSome then 1 else 0)

/-- Hidiquel transmit cells in use: each queued frame once, whatever its copies (12 R271). -/
def hidTxCells (s : State) : Nat :=
  let fs := (sentFrames s).filter (fun f => f.hid)
  ((fs.map (·.id)).eraseDups.map (fun i =>
    match fs.find? (fun f => f.id == i) with | some f => cellsOf (frameLen f) | none => 0)).sum

def hidRxCells (s : State) : Nat := (s.hid.rx.map (fun r => cellsOf r.bytes.length)).sum

/-- Put a frame that is no stream copy into a class queue: refused when the queue is full or the frame is
longer than the port's maximum (12 R274). -/
def enqueueFrame (p c : Nat) (f : Frame) (s : State) : State :=
  if 256 ≤ (classQueue s p c).length ∨ maxFrame s p < frameLen f then
    releaseFrame f (bumpClass p c 4 s)
  else setClassQueue s p c (classQueue s p c ++ [f])

/-- Cells of a link's transmit queue in use (12 R271, R278). -/
def linkCells (s : State) (k : Nat) : Nat :=
  ((List.range 8).flatMap (fun v => (vc s k v).txQ.map (fun m => cellsOf m.bytes.length))).sum

/-! ### Balls of the banks (02 R24) -/

/-- A ball of the VDDIO_Q bank is driven, unless the bank is unpowered, where it is high impedance (02 R24). -/
def driveQ (ck : Nat) (p : Pin) (v : Nat) (s : State) : State :=
  if s.supply.bankQ.unpowered then s else emit (.level ck p v) s

/-- A wake cause in S3: a host write to the station block, an edge of a time input, a brown-out or an overtemperature
detection (14 R317; 10 R247). -/
def wakeS3 (s : State) : State :=
  if s.power.level = 3 then { s with power := { s.power with woken := true } } else s

/-! ### The freeze latch (17 R345 to R348) -/

/-- The freeze latch is set and every domain stops: serdes to electrical idle, QCS_N high and MDC low once QS has
stopped, within 120 ns (17 R347, R348). The stamps are those of the edge. The draw gives this freeze its own free values (R350, R351). -/
def latchFreeze (held : Bool) (stampL stampW : Nat) (s : State) : State :=
  driveQ (s.now + 96) .mdc 0 (driveQ (s.now + 96) .qcsN 1 { drawFree s with freeze := { s.freeze with
    latched := true, heldToEnd := held, fromS3 := s.power.level == 3, stampLocal := stampL,
    stampWorking := stampW } })

/-! ### The internal reset (02 R29, R43; 03 R44, R64) -/

/-- The floor with its next `n` fuses blown (13 R298). -/
def blowFuses (n : Nat) (f : BitVec 127) : BitVec 127 :=
  (((List.range 127).filter (fun i => !f.getLsbD i)).take n).foldl (fun g i => g ||| ((1 : BitVec 127) <<< i)) f

/-- Fuses are blown: what the OTP holds from now on (03 R47). -/
def blowOtp (o : OtpBits) (s : State) : State := { s with otp := o, fuses := s.fuses.map (fun _ => o) }

/-- A reset during a floor raise leaves the fuses completed: between none and all of them (13 R298). -/
def cutRaise (s : State) : State :=
  match s.hid.raise with
  | some r =>
    let n := r.target - popCount 127 s.otp.floor.toNat
    drawFree (blowOtp { s.otp with floor := blowFuses (Config.fusesDone s.free % (n + 1)) s.otp.floor } s)
  | none => s

/-- What the internal reset leaves: everything at its reset value but Bittern's domain, the supplies'
own latches, OTP and flash, and the model's own fields. -/
def resetFrom (s : State) : State :=
  { State.reset with
    pending := s.pending, free := s.free, frameIds := s.frameIds, out := s.out, otp := s.otp,
    fuses := s.fuses
    supply := { s.supply with inReset := true, overtemp := false, srefFault := false,
                              bankP := { BankSt.init with unpowered := s.supply.bankP.unpowered },
                              bankQ := { BankSt.init with unpowered := s.supply.bankQ.unpowered } }
    boot := { Boot.init with standKnown := s.boot.standKnown, standA := s.boot.standA, standB := s.boot.standB }
    counters := s.counters.filter (fun x => keptCounter x.1) }

/-- The outputs take their levels of the internal reset (02 R23): QCS_N within 16 ck (03 R64), the balls of an
unpowered bank apart (R24). PGOOD, FAULT_N and PATN_N follow the state. -/
def resetPins (s : State) : State :=
  let n := s.now
  let s := each [.ppsOut, .evtOut 0, .evtOut 1, .tsDo] (fun p => emit (.level n p 0)) s
  let s := each [.qsck, .mdc] (fun p => driveQ n p 0) (driveQ (n + 16) .qcsN 1 s)
  each [.qio, .mdio, .pd, .tdo] (fun p => emit (.float n p)) s

/-- The internal reset (02 R29, R23). -/
def fullReset (s : State) : State := resetFrom (cutRaise (resetPins s))

/-- Power-on after every supply has been below its power-on-reset threshold: nothing is kept but the OTP's fuses
and the flash (02 R28, 13 R301, 15 R332). -/
def powerCycle (s : State) : State :=
  let t := fullReset (if s.supply.pgood then emit (.level s.now .pgood 0) s else s)
  { t with supply := Supply.init, counters := [] }

end Sys2Proof.Machine
end

