-- ==== Sys2Proof/Machine/CounterOps.lean ====
section
/-!
DEFINITION. The counter scopes (13 R290, R303, R304) and the counter snapshot space that Avocet reads (R303).
-/
namespace Sys2Proof.Machine

/-- A counter scope: its class, instances, counters per instance, and its base in the snapshot space. -/
structure Scope where
  cls : Nat
  instances : Nat
  counters : Nat
  base : Option Nat
deriving DecidableEq, Repr

/-- The scopes (R303, R304). -/
def scopes : List Scope :=
  [⟨0x20, 1, 49, some 0x0600⟩, ⟨0x21, 3, 2, some 0x0788⟩, ⟨0x22, 2, 2, some 0x07B8⟩, ⟨0x25, 8, 1, some 0x07D8⟩,
   ⟨0x23, 4, 21, some 0x0818⟩, ⟨0x24, 32, 6, some 0x0AB8⟩, ⟨0x26, 32, 7, some 0x10B8⟩,
   ⟨0x27, 32, 27, some 0x17B8⟩, ⟨0x2A, 64, 6, some 0x32B8⟩, ⟨0x28, 256, 8, some 0x3EB8⟩,
   ⟨0x29, 128, 5, some 0x7EB8⟩, ⟨0x2B, 1024, 7, none⟩, ⟨0x2C, 4096, 6, none⟩, ⟨0x2D, 1024, 12, none⟩,
   ⟨0x2E, 2048, 2, none⟩]

def scopeOf (cls : Nat) : Option Scope := scopes.find? (fun x => x.cls == cls)

/-- A counter's value, where the scope has the instance and the counter. -/
def counterAt (s : State) (cls inst num : Nat) : Option Nat :=
  match scopeOf cls with
  | some x => if inst < x.instances ∧ num < x.counters then some (readCtr s cls inst num) else none
  | none => none

/-- A capture queue entry as the snapshot space shows it. -/
def captureBytes (c : Capture) : List Byte :=
  layout 32 [(0, timeBytes12 c.stampLocal), (12, timeBytes12 c.stampWorking), num 24 1 (bitW c.rising 1 + 128)]

/-- The snapshot space's 8 bytes at a multiple of 8. -/
def snapshotCell (s : State) (a : Nat) : List Byte :=
  if a < 0x600 then
    match (input s (a / 0x200)).captures[a % 0x200 / 32]? with
    | some c => slice (captureBytes c) (a % 32) 8
    | none => leBytes 8 0
  else
    match scopes.find? (fun x => match x.base with
      | some b => decide (b ≤ a) && decide (a < b + x.counters * x.instances * 8) | none => false) with
    | some x =>
      let i := (a - x.base.getD 0) / 8
      leBytes 8 (readCtr s x.cls (i % x.instances) (i / x.instances))
    | none => leBytes 8 0

/-- `n` bytes of the snapshot space from an offset. -/
def snapshotBytes (s : State) (off n : Nat) : List Byte :=
  slice ((List.range (n / 8 + 2)).flatMap (fun i => snapshotCell s (8 * (off / 8 + i)))) (off % 8) n

end Sys2Proof.Machine
end

