-- ==== Sys2Proof/Machine/Crypto.lean ====
section
/-!
DEFINITION. The functions of the published standards that the device computes (00 R3): SHA-256 (FIPS 180-4), AES-128
(FIPS 197), CMAC (NIST SP 800-38B), key unwrap (RFC 3394) and ECDSA P-256 verification (FIPS 186-4). Words and field
elements are numbers; each function names the clause of its standard.
-/
namespace Sys2Proof.Machine

/-! ### SHA-256 (FIPS 180-4) -/

/-- A 32-bit word rotated right (section 3.2). -/
def rotr (n x : Nat) : Nat := (x >>> n) ||| (x <<< (32 - n)) % 2 ^ 32

/-- The 64 constants of section 4.2.2. -/
def shaK : List Nat :=
  [0x428a2f98, 0x71374491, 0xb5c0fbcf, 0xe9b5dba5, 0x3956c25b, 0x59f111f1, 0x923f82a4, 0xab1c5ed5] ++
  [0xd807aa98, 0x12835b01, 0x243185be, 0x550c7dc3, 0x72be5d74, 0x80deb1fe, 0x9bdc06a7, 0xc19bf174] ++
  [0xe49b69c1, 0xefbe4786, 0x0fc19dc6, 0x240ca1cc, 0x2de92c6f, 0x4a7484aa, 0x5cb0a9dc, 0x76f988da] ++
  [0x983e5152, 0xa831c66d, 0xb00327c8, 0xbf597fc7, 0xc6e00bf3, 0xd5a79147, 0x06ca6351, 0x14292967] ++
  [0x27b70a85, 0x2e1b2138, 0x4d2c6dfc, 0x53380d13, 0x650a7354, 0x766a0abb, 0x81c2c92e, 0x92722c85] ++
  [0xa2bfe8a1, 0xa81a664b, 0xc24b8b70, 0xc76c51a3, 0xd192e819, 0xd6990624, 0xf40e3585, 0x106aa070] ++
  [0x19a4c116, 0x1e376c08, 0x2748774c, 0x34b0bcb5, 0x391c0cb3, 0x4ed8aa4a, 0x5b9cca4f, 0x682e6ff3] ++
  [0x748f82ee, 0x78a5636f, 0x84c87814, 0x8cc70208, 0x90befffa, 0xa4506ceb, 0xbef9a3f7, 0xc67178f2]

/-- The initial hash value of section 5.3.3. -/
def shaStart : List Nat :=
  [0x6a09e667, 0xbb67ae85, 0x3c6ef372, 0xa54ff53a, 0x510e527f, 0x9b05688c, 0x1f83d9ab, 0x5be0cd19]

/-- The padded message (section 5.1.1). -/
def shaPad (m : List Byte) : List Byte :=
  m ++ [0x80] ++ List.replicate ((119 - m.length % 64) % 64) 0 ++ beBytes 8 (8 * m.length)

/-- The words of the message schedule after the first sixteen, newest first (section 6.2.2, step 1). -/
def shaExtend : Nat → List Nat → List Nat
  | 0, w => w
  | n + 1, w =>
    let a := w.getD 1 0
    let b := w.getD 14 0
    shaExtend n ((((rotr 17 a ^^^ rotr 19 a) ^^^ (a >>> 10)) + w.getD 6 0 +
      ((rotr 7 b ^^^ rotr 18 b) ^^^ (b >>> 3)) + w.getD 15 0) % 2 ^ 32 :: w)

/-- One round (section 6.2.2, step 3): the working variables a to h, and a constant with its schedule word. -/
def shaRound (v : List Nat) (kw : Nat) : List Nat :=
  match v with
  | [a, b, c, d, e, f, g, h] =>
    let t1 := h + ((rotr 6 e ^^^ rotr 11 e) ^^^ rotr 25 e) + ((e &&& f) ^^^ ((0xFFFFFFFF ^^^ e) &&& g)) + kw
    let t2 := ((rotr 2 a ^^^ rotr 13 a) ^^^ rotr 22 a) + (((a &&& b) ^^^ (a &&& c)) ^^^ (b &&& c))
    [(t1 + t2) % 2 ^ 32, a, b, c, (d + t1) % 2 ^ 32, e, f, g]
  | _ => v

/-- The compression of one block of 64 bytes. -/
def shaBlock (h : List Nat) (block : List Byte) : List Nat :=
  let w := (List.range 16).map (fun i => beNat (slice block (4 * i) 4))
  let ws := (shaExtend 48 w.reverse).reverse
  List.zipWith (fun x y => (x + y) % 2 ^ 32) h ((List.zipWith (fun k w => (k + w) % 2 ^ 32) shaK ws).foldl shaRound h)

/-- The first `n` blocks in turn. -/
def shaBlocks : Nat → List Nat → List Byte → List Nat
  | 0, h, _ => h
  | n + 1, h, m => shaBlocks n (shaBlock h (m.take 64)) (m.drop 64)

/-- SHA-256 of a byte string. -/
def sha256 (m : List Byte) : BitVec 256 :=
  let p := shaPad m
  BitVec.ofNat 256 ((shaBlocks (p.length / 64) shaStart p).foldl (fun a w => a * 2 ^ 32 + w) 0)

/-! ### AES-128 (FIPS 197) -/

/-- The product of two bytes in GF(2^8) modulo x^8 + x^4 + x^3 + x + 1 (section 4.2). -/
def gfMul (a b : Nat) : Nat :=
  ((List.range 8).foldl (fun (r : Nat × Nat) i =>
    (if b.testBit i then r.1 ^^^ r.2 else r.1, if r.2 < 128 then r.2 * 2 else (r.2 * 2) ^^^ 0x11B)) (0, a)).1

/-- The S-box of section 5.1.1. -/
def sBox : List Nat :=
  [0x63,0x7c,0x77,0x7b,0xf2,0x6b,0x6f,0xc5,0x30,0x01,0x67,0x2b,0xfe,0xd7,0xab,0x76] ++
  [0xca,0x82,0xc9,0x7d,0xfa,0x59,0x47,0xf0,0xad,0xd4,0xa2,0xaf,0x9c,0xa4,0x72,0xc0] ++
  [0xb7,0xfd,0x93,0x26,0x36,0x3f,0xf7,0xcc,0x34,0xa5,0xe5,0xf1,0x71,0xd8,0x31,0x15] ++
  [0x04,0xc7,0x23,0xc3,0x18,0x96,0x05,0x9a,0x07,0x12,0x80,0xe2,0xeb,0x27,0xb2,0x75] ++
  [0x09,0x83,0x2c,0x1a,0x1b,0x6e,0x5a,0xa0,0x52,0x3b,0xd6,0xb3,0x29,0xe3,0x2f,0x84] ++
  [0x53,0xd1,0x00,0xed,0x20,0xfc,0xb1,0x5b,0x6a,0xcb,0xbe,0x39,0x4a,0x4c,0x58,0xcf] ++
  [0xd0,0xef,0xaa,0xfb,0x43,0x4d,0x33,0x85,0x45,0xf9,0x02,0x7f,0x50,0x3c,0x9f,0xa8] ++
  [0x51,0xa3,0x40,0x8f,0x92,0x9d,0x38,0xf5,0xbc,0xb6,0xda,0x21,0x10,0xff,0xf3,0xd2] ++
  [0xcd,0x0c,0x13,0xec,0x5f,0x97,0x44,0x17,0xc4,0xa7,0x7e,0x3d,0x64,0x5d,0x19,0x73] ++
  [0x60,0x81,0x4f,0xdc,0x22,0x2a,0x90,0x88,0x46,0xee,0xb8,0x14,0xde,0x5e,0x0b,0xdb] ++
  [0xe0,0x32,0x3a,0x0a,0x49,0x06,0x24,0x5c,0xc2,0xd3,0xac,0x62,0x91,0x95,0xe4,0x79] ++
  [0xe7,0xc8,0x37,0x6d,0x8d,0xd5,0x4e,0xa9,0x6c,0x56,0xf4,0xea,0x65,0x7a,0xae,0x08] ++
  [0xba,0x78,0x25,0x2e,0x1c,0xa6,0xb4,0xc6,0xe8,0xdd,0x74,0x1f,0x4b,0xbd,0x8b,0x8a] ++
  [0x70,0x3e,0xb5,0x66,0x48,0x03,0xf6,0x0e,0x61,0x35,0x57,0xb9,0x86,0xc1,0x1d,0x9e] ++
  [0xe1,0xf8,0x98,0x11,0x69,0xd9,0x8e,0x94,0x9b,0x1e,0x87,0xe9,0xce,0x55,0x28,0xdf] ++
  [0x8c,0xa1,0x89,0x0d,0xbf,0xe6,0x42,0x68,0x41,0x99,0x2d,0x0f,0xb0,0x54,0xbb,0x16]

def subByte (x : Nat) : Nat := sBox.getD x 0
/-- The inverse S-box (section 5.3.2). -/
def invSubByte (x : Nat) : Nat := (findIx (· == x) sBox 0).getD 0

def xorBytes (a b : List Nat) : List Nat := List.zipWith (· ^^^ ·) a b

/-- ShiftRows: byte r of column c comes from column c + r (section 5.1.2); with 3 times the shift, its inverse. -/
def shiftRows (k : Nat) (s : List Nat) : List Nat :=
  (List.range 16).map (fun i => s.getD ((i + 4 * k * (i % 4)) % 16) 0)

/-- Each column times a polynomial with coefficients `p` (sections 5.1.3, 5.3.3). -/
def mixColumns (p : List Nat) (s : List Nat) : List Nat :=
  (List.range 16).map (fun i =>
    (List.range 4).foldl (fun x j => x ^^^ gfMul (p.getD ((j + 4 - i % 4) % 4) 0) (s.getD (i / 4 * 4 + j) 0)) 0)

/-- The next round key from the last, with the round's constant (section 5.2). -/
def nextKey (k : List Nat) (rcon : Nat) : List Nat :=
  let w0 := xorBytes (k.take 4) [subByte (k.getD 13 0) ^^^ rcon, subByte (k.getD 14 0), subByte (k.getD 15 0),
    subByte (k.getD 12 0)]
  let w1 := xorBytes w0 ((k.drop 4).take 4)
  let w2 := xorBytes w1 ((k.drop 8).take 4)
  w0 ++ w1 ++ w2 ++ xorBytes w2 (k.drop 12)

/-- The eleven round keys. -/
def keySchedule (k : List Nat) : List (List Nat) :=
  [0x01, 0x02, 0x04, 0x08, 0x10, 0x20, 0x40, 0x80, 0x1B, 0x36].foldl
    (fun ks r => ks ++ [nextKey (ks.getLastD []) r]) [k]

def bytesOfNat (n v : Nat) : List Nat := (beBytes n v).map (·.toNat)
def natOfBytes (l : List Nat) : Nat := l.foldl (fun a b => a * 256 + b) 0

/-- The cipher (section 5.1). -/
def aesEncrypt (key x : BitVec 128) : BitVec 128 :=
  let ks := keySchedule (bytesOfNat 16 key.toNat)
  let s := (List.range 9).foldl (fun s r =>
    xorBytes (mixColumns [2, 3, 1, 1] (shiftRows 1 (s.map subByte))) (ks.getD (r + 1) []))
    (xorBytes (bytesOfNat 16 x.toNat) (ks.getD 0 []))
  BitVec.ofNat 128 (natOfBytes (xorBytes (shiftRows 1 (s.map subByte)) (ks.getD 10 [])))

/-- The inverse cipher (section 5.3). -/
def aesDecrypt (key x : BitVec 128) : BitVec 128 :=
  let ks := keySchedule (bytesOfNat 16 key.toNat)
  let s := (List.range 9).foldl (fun s r =>
    mixColumns [14, 11, 13, 9] (xorBytes ((shiftRows 3 s).map invSubByte) (ks.getD (9 - r) [])))
    (xorBytes (bytesOfNat 16 x.toNat) (ks.getD 10 []))
  BitVec.ofNat 128 (natOfBytes (xorBytes ((shiftRows 3 s).map invSubByte) (ks.getD 0 [])))

/-! ### CMAC (NIST SP 800-38B) -/

/-- A subkey's doubling in GF(2^128) (section 6.1). -/
def cmacDouble (x : BitVec 128) : BitVec 128 := if x.getLsbD 127 then (x <<< 1) ^^^ 0x87 else x <<< 1

/-- The chained whole blocks before the last (section 6.2, steps 5 and 6). -/
def cmacChain (key : BitVec 128) : Nat → BitVec 128 → List Byte → BitVec 128
  | 0, c, _ => c
  | n + 1, c, m => cmacChain key n (aesEncrypt key (c ^^^ BitVec.ofNat 128 (beNat (m.take 16)))) (m.drop 16)

/-- The leftmost 96 bits of AES-128-CMAC (13 R286). -/
def cmac (key : BitVec 128) (m : List Byte) : BitVec 96 :=
  let k1 := cmacDouble (aesEncrypt key 0)
  let n := cdiv m.length 16 - 1
  let last := m.drop (16 * n)
  let block := if last.length = 16 then k1 ^^^ BitVec.ofNat 128 (beNat last)
    else cmacDouble k1 ^^^ BitVec.ofNat 128 (beNat (padTo 16 (last ++ [0x80])))
  (aesEncrypt key (cmacChain key n 0 m ^^^ block)).extractLsb' 32 96

/-! ### Key unwrap (RFC 3394, section 2.2.2) -/

/-- One step of the unwrap: A with the step's number, and the two registers rotated. -/
def unwrapStep (kek : BitVec 128) (x : BitVec 64 × BitVec 64 × BitVec 64) (t : Nat) :
    BitVec 64 × BitVec 64 × BitVec 64 :=
  let b := aesDecrypt kek ((x.1 ^^^ BitVec.ofNat 64 t) ++ x.2.2)
  (b.extractLsb' 64 64, b.extractLsb' 0 64, x.2.1)

/-- A wrapped 128-bit key of 24 bytes: the key, or none where the integrity check against the default initial value
fails (04 R88, R89). -/
def keyUnwrap (kek : BitVec 128) (w : List Byte) : Option (BitVec 128) :=
  let word := fun i => BitVec.ofNat 64 (beNat (slice w (8 * i) 8))
  let r := ((List.range 12).map (12 - ·)).foldl (unwrapStep kek) (word 0, word 1, word 2)
  if r.1 = 0xA6A6A6A6A6A6A6A6 then some (r.2.1 ++ r.2.2) else none

/-! ### ECDSA P-256 (FIPS 186-4, section 6.4; curve of appendix D.1.2.3) -/

/-- The prime of the field, the coefficient b, the order of the group and the base point. -/
def p256Prime : Nat := 0xFFFFFFFF00000001000000000000000000000000FFFFFFFFFFFFFFFFFFFFFFFF
def p256B : Nat := 0x5AC635D8AA3A93E7B3EBBD55769886BC651D06B0CC53B0F63BCE3C3E27D2604B
def p256Order : Nat := 0xFFFFFFFF00000000FFFFFFFFFFFFFFFFBCE6FAADA7179E84F3B9CAC2FC632551
def p256Gx : Nat := 0x6B17D1F2E12C4247F8BCE6E563A440F277037D812DEB33A0F4A13945D898C296
def p256Gy : Nat := 0x4FE342E2FE1A7F9B8EE7EB4A7C0F9E162BCE33576B315ECECBB6406837BF51F5

/-- A power modulo m, by the bits of a 256-bit exponent from the top down. -/
def powMod (m b e : Nat) : Nat :=
  (List.range 256).foldl (fun r i => if e.testBit (255 - i) then r * r % m * b % m else r * r % m) 1

/-- The difference of two field elements. -/
def fSub (a b : Nat) : Nat := (a + p256Prime - b) % p256Prime
def fMul (a b : Nat) : Nat := a * b % p256Prime

/-- A point in Jacobian coordinates (X, Y, Z): x = X/Z^2 and y = Y/Z^3; Z is 0 at infinity. -/
structure JPoint where
  x : Nat
  y : Nat
  z : Nat
deriving DecidableEq, Repr

def jZero : JPoint := { x := 1, y := 1, z := 0 }

/-- The double of a point on the curve with coefficient a = -3. -/
def jDouble (p : JPoint) : JPoint :=
  if p.z = 0 ∨ p.y = 0 then jZero
  else
    let yy := fMul p.y p.y
    let s := 4 * fMul p.x yy % p256Prime
    let zz := fMul p.z p.z
    let m := 3 * fMul (fSub p.x zz) ((p.x + zz) % p256Prime) % p256Prime
    let x := fSub (fMul m m) (2 * s % p256Prime)
    { x := x, y := fSub (fMul m (fSub s x)) (8 * fMul yy yy % p256Prime), z := 2 * fMul p.y p.z % p256Prime }

/-- The sum of two points. -/
def jAdd (p q : JPoint) : JPoint :=
  if p.z = 0 then q
  else if q.z = 0 then p
  else
    let pz := fMul p.z p.z
    let qz := fMul q.z q.z
    let u := fMul p.x qz
    let h := fSub (fMul q.x pz) u
    let s := fMul p.y (fMul qz q.z)
    let r := fSub (fMul q.y (fMul pz p.z)) s
    if h = 0 then (if r = 0 then jDouble p else jZero)
    else
      let hh := fMul h h
      let hhh := fMul h hh
      let v := fMul u hh
      let x := fSub (fSub (fMul r r) hhh) (2 * v % p256Prime)
      { x := x, y := fSub (fMul r (fSub v x)) (fMul s hhh), z := fMul h (fMul p.z q.z) }

/-- a G + b Q, by the bits of both from the top down. -/
def jCombine (a b : Nat) (q : JPoint) : JPoint :=
  let g : JPoint := { x := p256Gx, y := p256Gy, z := 1 }
  let gq := jAdd g q
  (List.range 256).foldl (fun r i =>
    let d := jDouble r
    match a.testBit (255 - i), b.testBit (255 - i) with
    | false, false => d
    | true, false => jAdd d g
    | false, true => jAdd d q
    | true, true => jAdd d gq) jZero

/-- A point lies on the curve. -/
def onCurve (x y : Nat) : Bool :=
  decide (x < p256Prime) && decide (y < p256Prime) &&
    fMul y y == fSub ((fMul x (fMul x x) + p256B) % p256Prime) (3 * x % p256Prime)

/-- ECDSA P-256 verification: the public key X and Y and the signature r and s, 32 bytes big-endian each, and the
hash of the signed bytes (04 R92, R94). -/
def ecdsaVerify (key : List Byte) (hash : BitVec 256) (sig : List Byte) : Bool :=
  let x := beNat (slice key 0 32)
  let y := beNat (slice key 32 32)
  let r := beNat (slice sig 0 32)
  let s := beNat (slice sig 32 32)
  if r = 0 ∨ s = 0 ∨ p256Order ≤ r ∨ p256Order ≤ s ∨ onCurve x y = false then false
  else
    let w := powMod p256Order s (p256Order - 2)
    let p := jCombine (hash.toNat * w % p256Order) (r * w % p256Order) { x := x, y := y, z := 1 }
    if p.z = 0 then false
    else
      let zi := powMod p256Prime p.z (p256Prime - 2)
      fMul p.x (fMul zi zi) % p256Order == r

end Sys2Proof.Machine
end

