-- ==== Sys2Proof/Machine/Flags.lean ====
section
/-!
DEFINITION. Every flag and status word that is computed from the state: the station block (10 R242),
FAULT_N (15 R326), PATN_N (10 R246), the fault log (15 R334), the capability chain (03 R54), the announce
payload (03 R61), the device's own Hidiquel frames (13 R285 to R287, R300), and `publish`, which sets the
flags that follow from what a command changed (10 R244) and sends the frames they call for (13 R299).
-/
namespace Sys2Proof.Machine

/-! ### Codes -/

def phaseCode : Phase → Nat
  | .reset => 0 | .early => 1 | .loadFirst => 2 | .loadSecond => 3 | .config => 4 | .waitTime => 5
  | .service => 6 | .bare => 7

def domCode : DomState → Nat
  | .disabled => 0 | .acquire => 1 | .locked => 2 | .holdover => 3

def stateCode : LinkState → Nat
  | .off => 0 | .detect => 1 | .sync => 2 | .align => 3 | .param => 4 | .speedup => 5 | .equalize => 6
  | .active => 7

/-- A link's state code: bit 3 is 1 during a retrain (09 R212). -/
def linkCode (x : LinkSt) : Nat :=
  stateCode x.st + (if x.retrain && x.st != .active then 8 else 0)

def slotCode : Option Slot → Nat → Nat → Nat
  | some .a, _, _ => 0
  | some .b, b, _ => b
  | none, _, n => n

def strapsWord (s : State) : Nat :=
  bitW s.straps.bootSlot 1 + bitW s.straps.pipW16 2 + bitW s.supply.extpwr 4 +
    s.straps.bitternPort.toNat * 8 + bitW s.straps.freezeArm 32 + bitW s.straps.mgmtLock 64

/-- A ladder reading's byte (03 R61). -/
def ladderByte (s : State) (i : Nat) : Nat := (ladderPin s i).code + bitW (ladderPin s i).unstable 128

/-! ### Faults (15) -/

/-- A fault whose row says "until reset" (15 R333). -/
def heldUntilReset (code : Nat) : Bool :=
  code == 1 || code == 2 || code == 0x11 || code == 0x12 || code == 0x13 || code == 0x24

/-- A fault whose row says "while active". -/
def heldWhileActive (code : Nat) : Bool :=
  code == 0x32 || code == 0x41 || code == 0x42 || code == 0x50 || code == 0x51 || code == 0x60 ||
  code == 0x70 || code == 0x80 || code == 0x81 || code == 0x83

/-- A fault of a domain holds FAULT_N (15 R333): enabled, not LOCKED, and locked before. -/
def domainFault (d : DomSt) : Bool := d.st != .disabled && d.st != .locked && d.lockedSince

/-- A fault whose row says "while active" is active (15 R326). -/
def faultActive (s : State) : Bool :=
  s.supply.srefFault || s.links.any (fun x => x.2.faultMask != 0 || x.2.down) || s.avocet.stopped ||
  s.station.wdExp || domainFault s.dunlin.dom0 || domainFault s.dunlin.dom1 || s.supply.bankP.brown ||
  s.supply.bankQ.brown || s.supply.overtemp

/-- FAULT_N is low (15 R326); in S4 it keeps its level at entry (14 R319). -/
def faultLow (s : State) : Bool :=
  match s.power.bittern with
  | some b => b.faultN
  | none => s.supply.inReset || !inService s || s.faults.untilReset || faultActive s

/-- A fault's entry says that it holds FAULT_N while active (15 R333): a domain fault only where the domain
has been LOCKED since SERVICE entry. -/
def holdsWhile (s : State) (code subject : Nat) : Bool :=
  heldWhileActive code &&
    (code != 0x70 || (if subject = 0 then s.dunlin.dom0.lockedSince else s.dunlin.dom1.lockedSince))

/-- A fault-log entry as captured at detection: all that follows its number (15 R334). -/
def faultBody (s : State) (code subject detail : Nat) : List Byte :=
  (layout 48 [num 4 2 code,
    num 6 1 (bitW (heldUntilReset code) 1 + bitW (holdsWhile s code subject) 2),
    num 8 4 (if s.heron.started then s.heron.cycle % 2 ^ 32 else 0), (12, timeBytes12 (workingCount s)),
    num 24 2 subject, num 28 8 detail, num 36 4 s.faults.corrected]).drop 4

/-- An entry is made no later than another: by the ck it falls due, in a ck in ascending code order, within a code in
ascending subject order (15 R337). -/
def madeBefore (x y : FaultWait) : Bool :=
  decide (x.due < y.due ∨ (x.due = y.due ∧ (x.code < y.code ∨ (x.code = y.code ∧ x.subject ≤ y.subject))))

/-- A fault takes its place among the entries to come. -/
def putFault (w : FaultWait) : List FaultWait → List FaultWait
  | [] => [w]
  | x :: r => if madeBefore x w then x :: putFault w r else w :: x :: r

/-- A fault is detected: its entry is made 4 ck later (15 R334); one whose row says "until reset" holds FAULT_N from
this ck (R326). -/
def logFault (code subject detail : Nat) (s : State) : State :=
  { s with faults := { s.faults with
      waiting := putFault { due := s.now + 4, code := code, subject := subject, body := faultBody s code subject detail }
        s.faults.waiting
      untilReset := s.faults.untilReset || heldUntilReset code } }

/-- Make a fault-log entry: the ring index after the newest (15 R334). -/
def makeEntry (w : FaultWait) (s : State) : State :=
  { s with faults := { s.faults with
      entries := mSet s.faults.entries (s.faults.made % 64) (leBytes 4 ((s.faults.made + 1) % 2 ^ 32) ++ w.body)
      made := s.faults.made + 1 } }

def entryDue (s : State) (w : FaultWait) : Bool := decide (w.due ≤ s.now)

/-- The entries that fall due in a ck are made, in order. -/
def faultDuty (s : State) : State :=
  let t := each (s.faults.waiting.takeWhile (entryDue s)) makeEntry s
  { t with faults := { t.faults with waiting := s.faults.waiting.dropWhile (entryDue s) } }

/-! ### The station block (10 R242) -/

def sumBits (n : Nat) (f : Nat → Bool) : Nat := ((List.range n).map (fun i => bitW (f i) (2 ^ i))).sum

def bankSel (s : State) : Nat := sumBits 64 (fun r => (region s r).bank)
def staleBits (s : State) : Nat := sumBits 64 (fun r => (region s r).stale)

def portByte (s : State) (p : Nat) : Nat :=
  let x := port s p
  bitW x.up 1 + bitW x.live 2 + bitW (preemptActive s p) 4 + bitW (x.verify == .failed) 8 + x.mode * 16

def statusWord (s : State) : Nat :=
  phaseCode s.boot.phase + s.boot.resultA * 2 ^ 4 + s.boot.resultB * 2 ^ 8 +
    slotCode s.boot.runSlot 1 3 * 2 ^ 12 + bitW s.ladder.done (2 ^ 14) + bitW (timeLock s) (2 ^ 15) +
    bitW (aligning s) (2 ^ 16) + s.dunlin.working.val * 2 ^ 17 + domCode s.dunlin.dom0.st * 2 ^ 18 +
    domCode s.dunlin.dom1.st * 2 ^ 20 + liveMask s * 2 ^ 22 + bitW s.heron.safe (2 ^ 25) +
    bitW (faultLow s) (2 ^ 26) + bitW s.station.wdExp (2 ^ 27)

def flogWord (s : State) : Nat :=
  (if s.faults.made = 0 then 63 else (s.faults.made - 1) % 64) + min s.faults.made 0xFFFF * 2 ^ 16

/-- Word 0xFFC0 + n of the station block as the host reads it (10 R242). -/
def stationWord (s : State) (n : Nat) : Word :=
  let w := fun (x : Nat) => BitVec.ofNat 32 x
  let st := s.station
  if !s.boot.cleared then 0 else
  match n with
  | 0 => w (0x3248 + 2 * 2 ^ 16 + Config.metalRevision.toNat * 2 ^ 20 + stationId s * 2 ^ 24)
  | 1 => w (statusWord s)
  | 2 => w (strapsWord s)
  | 3 => w (ladderByte s 0 + ladderByte s 1 * 256 + ladderByte s 2 * 65536 + ladderByte s 3 * 2 ^ 24)
  | 4 => w (ladderByte s 4 + ladderByte s 5 * 256 + ladderByte s 6 * 65536 + ladderByte s 7 * 2 ^ 24)
  | 5 => w s.heron.cycle
  | 6 => st.generation
  | 7 => w (bankSel s) | 8 => w (bankSel s / 2 ^ 32)
  | 9 => w (staleBits s) | 10 => w (staleBits s / 2 ^ 32)
  | 11 | 12 | 13 | 14 =>
    w ((List.range 8).map (fun i => linkCode (link s (8 * (n - 11) + i)) * 2 ^ (4 * i))).sum
  | 15 => w ((List.range 4).map (fun p => portByte s p * 2 ^ (8 * p))).sum
  | 16 => st.effTol
  | 17 => w (flogWord s)
  | 18 => w st.wdMiss
  | 19 => st.hostLtr | 20 => st.heartbeat | 21 => st.hbWindow | 22 => st.attnMask
  | 23 => st.doorbell | 24 => st.events
  | 25 => st.chHalf.setWidth 32 | 26 => (st.chHalf >>> 32).setWidth 32
  | 27 => st.chFull.setWidth 32 | 28 => (st.chFull >>> 32).setWidth 32
  | 29 | 30 | 31 | 32 | 33 | 34 | 35 | 36 => (st.hevt >>> (32 * (n - 29))).setWidth 32
  | 37 => st.ignWr | 38 => st.attnCount
  | 62 => st.hostInfo0 | 63 => st.hostInfo1
  | _ => 0

/-- A read of a word on either port (10 R230, R236; 03 R46, R60): zero before the clear is complete, and
below the station block in BARE. -/
def readImage (s : State) (w : Nat) : Word :=
  if 0xFFC0 ≤ w then stationWord s (w - 0xFFC0)
  else if !s.boot.cleared || inBare s then 0
  else readWord s (readTarget s w)

/-- PATN_N is asserted (10 R246, 15 R331): from SERVICE, while an unmasked EVENTS bit is set, outside a
re-arm pulse, and not while VDDIO_P is browned out. -/
def patnOn (s : State) : Bool :=
  inService s && !s.supply.inReset && s.power.level != 4 && s.station.rearmEnd.isNone &&
    !s.supply.bankP.brown && (s.station.events &&& ~~~s.station.attnMask) != 0

/-- Set event flags, and keep which were set in this ck (10 R243, R244). -/
def raiseFlags (ev : Word) (half full : BitVec 64) (hevt : BitVec 256) (s : State) : State :=
  let st := s.station
  let r := if st.raised.ck = s.now then st.raised else { FlagSets.init with ck := s.now }
  { s with station := { st with
      events := st.events ||| ev, chHalf := st.chHalf ||| half, chFull := st.chFull ||| full
      hevt := st.hevt ||| hevt
      raised := { ck := s.now, events := r.events ||| ev, chHalf := r.chHalf ||| half,
                  chFull := r.chFull ||| full, hevt := r.hevt ||| hevt } } }

/-! ### The capability chain and the announce payload (03 R53, R54, R61) -/

/-- The strap mode of the Bittern port allows S4 (14 R318). -/
def s4Possible (s : State) : Bool := within 4 6 (strapMode s s.straps.bitternPort.toNat)

/-- The records of stepping B: capability ID and body words. -/
def capabilities (s : State) : List (Nat × List Nat) :=
  [(0x001, [0x3248 * 65536 + 0x4648, 0x20 + Config.metalRevision.toNat, s.otp.serial.toNat % 2 ^ 32,
            s.otp.serial.toNat / 2 ^ 32]),
   (0x010, [0xF, ((List.range 4).map (fun p => strapMode s p * 16 ^ p)).sum]),
   (0x011, [0x1F]), (0x012, [1024 + 64 * 65536]), (0x013, [0xFF]),
   (0x020, [32 + 7 * 256 + 8 * 4096, 256 + ladderCode s 2 * 65536]),
   (0x021, [3]), (0x022, [1]),
   (0x030, [3 + 4 + liveMask s * 16, 1024 + 1024 * 65536]),
   (0x031, [1024 + 65536]), (0x032, [1024]), (0x040, [2 + 156 * 256]), (0x050, [64 + 32 * 256]),
   (0x060, [0x10000 + bitW s.straps.pipW16 (2 ^ 17)]),
   (0x070, [8 + s.straps.bitternPort.toNat * 16 + bitW (s4Possible s) 64]),
   (0x080, [bitW s.straps.freezeArm 1]), (0x090, [96 + bitW s.straps.mgmtLock 256]), (0x0A0, [0x1F])]

/-- The chain's words: each header names the ID, version 1, the body length and the next record (03 R53). -/
def chainWords : List (Nat × List Nat) → List Nat
  | [] => []
  | (id, body) :: r =>
    (id * 2 ^ 20 + 65536 + body.length * 256 + (if r.isEmpty then 0 else body.length + 1)) ::
      (body ++ chainWords r)

def otpFloor (o : OtpBits) : Nat := popCount 127 o.floor.toNat

/-- The announce payload (03 R61); times run from release to the entry of the phase shown. -/
def announcePayload (s : State) : List Byte :=
  let words := chainWords (capabilities s)
  leBytes 8 s.otp.serial.toNat ++ leBytes 1 (stationId s) ++ leBytes 1 (phaseCode s.boot.phase) ++
    leBytes 1 (slotCode s.boot.runSlot 1 0xFF) ++ leBytes 1 0 ++ leBytes 1 s.boot.resultA ++
    leBytes 1 s.boot.resultB ++ leBytes 2 (strapsWord s) ++
    (List.range 8).flatMap (fun i => leBytes 1 (ladderByte s i)) ++
    leBytes 4 (match s.boot.image with | some i => i.version | none => 0) ++ leBytes 4 (otpFloor s.otp) ++
    leBytes 4 (s.boot.enteredAt / 800) ++ leBytes 2 words.length ++ leBytes 2 0 ++ words.flatMap (fun w => leBytes 4 w)

/-! ### The device's own frames (13 R285 to R287, R300) -/

/-- The device address (04 R88); the all-zero form where no MGMT record is in force. -/
def deviceAddr (s : State) : Mac :=
  let dflt : Mac := BitVec.ofNat 48 (0x024648 * 2 ^ 24 + s.otp.serial.toNat % 2 ^ 24)
  if inBare s then dflt
  else match s.tables.mgmt with
    | some m => if m.devAddr = 0 then dflt else m.devAddr
    | none => dflt

def mgmtAddr (s : State) : Mac :=
  if inBare s then 0x034258000001 else match s.tables.mgmt with | some m => m.mgmtAddr | none => 0x034258000001

def mgmtType (s : State) : Nat :=
  if inBare s then 0x88B5 else match s.tables.mgmt with | some m => m.etherType | none => 0x88B5

/-- The tag of a device frame: all zero with OTP unreadable (03 R61). -/
def deviceTag (s : State) (signed : List Byte) : BitVec 96 :=
  if s.boot.otpBad then 0 else cmac s.hid.key signed

def deviceCounter (s : State) : BitVec 64 := s.hid.session ++ BitVec.ofNat 32 s.hid.txCount

/-- The bytes of an event frame (13 R300). -/
def eventBytes (s : State) (e : EventInfo) : List Byte :=
  let payload := leBytes 1 e.cls ++ [0] ++ leBytes 2 e.count ++ leBytes 4 e.cycle ++ timeBytes12 e.time ++
    e.detail
  let header := hidHeader 1 0x40 2 0 s.otp.serial (BitVec.ofNat 64 e.counter) 0 payload.length
  hidBytes (mgmtAddr s) (deviceAddr s) none (mgmtType s) header payload
    (deviceTag s (hidSigned (mgmtAddr s) (deviceAddr s) header payload))

/-- The next session: a fresh value from the entropy source, both low halves afresh (13 R287). -/
def drawSession (s : State) : State :=
  drawFree { s with hid := { s.hid with session := Config.sessionValue s.free, txCount := 1, rxHigh := 0 } }

/-- The ports a device frame goes out on (13 R285): the live ports of the mask; with none live, for an
event frame, the mask's ports that are on, where it ages out (13 R306). -/
def eventPorts (s : State) : List Nat :=
  let mask := (List.range 4).filter (fun p => hasBit (mgmtMask s) p && (port s p).mode != 0)
  let live := mask.filter (fun p => (port s p).live)
  if live.isEmpty then mask else live

/-- Queue a device frame once, with a copy in class 0 of each port; dropped when the transmit cells are
full (13 R300). -/
def queueDevice (ports : List Nat) (f : Frame) (s : State) : State :=
  if 32 < hidTxCells s + cellsOf (frameLen f) then bumpDev 29 s
  else each ports (fun p => enqueueFrame p 0 f) s

/-- Send an event frame, counter taken from the session. -/
def sendEventOn (ports : List Nat) (cls arg : Nat) (detail : List Byte) (s : State) : State :=
  let e : EventInfo :=
    { cls := cls, arg := arg, count := 1, cycle := s.heron.cycle % 2 ^ 32, time := workingCount s,
      detail := detail, counter := (deviceCounter s).toNat }
  let f := { plainFrame s.frameIds (eventBytes s e) (hck s) (hck s + oneCycle s) with
    hid := true, event := some e }
  queueDevice ports f
    { s with frameIds := s.frameIds + 1, hid := { s.hid with txCount := s.hid.txCount + 1 } }

/-- An announce frame on the given ports (03 R61), each marked as announced. -/
def announce (ports : List Nat) (s : State) : State :=
  if ports.isEmpty then s
  else each ports (fun p s => setPort s p { port s p with announced := true })
    (sendEventOn ports 0 0 (announcePayload s) s)

/-- Live ports of the MGMT mask. -/
def announcePorts (s : State) : List Nat :=
  (List.range 4).filter (fun p => hasBit (mgmtMask s) p && (port s p).live)

/-- A low half has reached 0xFFFFFFFF: a new session, an announce frame, a count (13 R287). -/
def renewSession (s : State) : State :=
  if 0xFFFFFFFF ≤ s.hid.txCount ∨ 0xFFFFFFFF ≤ s.hid.rxHigh then
    bumpDev 41 (announce (announcePorts s) (drawSession s))
  else s

/-- A queued event frame of the same class and argument that has not started (13 R300). -/
def queuedEvent (s : State) (cls arg : Nat) : Option Frame :=
  ((List.range 32).flatMap (fun i => mGetD s.classQ i [])).find? (fun f =>
    match f.event with | some e => e.cls == cls && e.arg == arg && !f.started | none => false)

/-- Merge an occurrence into a queued frame: its count rises and it carries the newest detail. -/
def mergeEvent (id : Nat) (e : EventInfo) (s : State) : State :=
  { s with classQ := s.classQ.map (fun x => (x.1, x.2.map (fun f =>
      if f.id = id then { f with event := some e, bytes := eventBytes s e } else f))) }

/-- An occurrence of a subscribed event: merged or sent (13 R300). -/
def sendEvent (cls arg : Nat) (detail : List Byte) (s : State) : State :=
  match queuedEvent s cls arg with
  | some f =>
    match f.event with
    | some e => bumpDev 40 (mergeEvent f.id { e with count := min 0xFFFF (e.count + 1), detail := detail } s)
    | none => s
  | none => renewSession (sendEventOn (eventPorts s) cls arg detail s)

/-- A subscription names a class and argument, or every argument (13 R299). -/
def subscribed (s : State) (cls arg : Nat) : Bool :=
  s.hid.subs.any (fun x => x.1 == cls && (x.2 == arg || (x.2 == 0xFF && (cls == 5 || cls == 6))))

/-- Send an event frame if the set subscribes it; only while Hidiquel serves (13 R299). -/
def notify (cls arg : Nat) (detail : List Byte) (s : State) : State :=
  if serving s && subscribed s cls arg then sendEvent cls arg detail s else s

/-! ### What follows from a change (10 R244, R246; 13 R299; 15 R326) -/

/-- The EVENTS bits that a change calls for (10 R244). -/
def changeBits (o n : State) : Word :=
  (if staleBits o != staleBits n then 8 else 0) ||| (if o.faults.made != n.faults.made then 16 else 0) |||
  (if !o.station.wdExp && n.station.wdExp then 32 else 0) |||
  (if timeLock o != timeLock n || o.dunlin.working != n.dunlin.working then 64 else 0) |||
  (if (List.range 32).any (fun k => linkCode (link o k) != linkCode (link n k)) then 128 else 0) |||
  (if (List.range 4).any (fun p => (port o p).up != (port n p).up || (port o p).live != (port n p).live)
   then 256 else 0)

/-- The event frames that a change calls for (13 R299). -/
def changeFrames (o n : State) (s : State) : State :=
  let s := each (List.range (n.faults.made - o.faults.made)) (fun i s =>
    let ix := (o.faults.made + i) % 64
    notify 3 0 (leBytes 1 ix ++ mGetD n.faults.entries ix []) s) s
  let s := if timeLock o != timeLock n || o.dunlin.working != n.dunlin.working
    then notify 4 0 (leBytes 4 (statusWord n)) s else s
  let s := each (List.range 32) (fun k s =>
    if linkCode (link o k) != linkCode (link n k)
    then notify 5 k (leBytes 1 k ++ leBytes 1 (linkCode (link n k))) s else s) s
  let s := each (List.range 4) (fun p s =>
    if (port o p).up != (port n p).up || (port o p).live != (port n p).live
    then notify 6 p (leBytes 1 p ++ leBytes 1 (portByte n p)) s else s) s
  if o.station.wdExp != n.station.wdExp then notify 7 0 (leBytes 1 (bitW n.station.wdExp 1)) s else s

/-- The pins that follow the state: FAULT_N and PATN_N reach the pad 2 ck later (01 R16, 15 R326), and
ATTNCOUNT counts each assertion of PATN_N (10 R246). -/
def drivePins (o s : State) : State :=
  let s := if faultLow o != faultLow s
    then emit (.level (s.now + Crossing.ckPatn.ck) .faultN (bitW (!faultLow s) 1)) s else s
  if patnOn o == patnOn s then s
  else
    let s := emit (.level (s.now + Crossing.ckPatn.ck) .patnN (bitW (!patnOn s) 1)) s
    { s with station := { s.station with
        attnCount := if patnOn s then s.station.attnCount + 1 else s.station.attnCount
        attnAt := if patnOn s then some s.now else s.station.attnAt } }

/-- What follows from a command that took the state from `o` to `n`. -/
def publish (o n : State) : State :=
  if n.supply.inReset || n.power.level == 4 || !n.boot.cleared then drivePins o n
  else drivePins o (changeFrames o n (raiseFlags (changeBits o n) 0 0 0 n))

/-- A command's effect where the state lets it occur; else nothing changes (log entry 1). -/
def act (guard : Bool) (op : State → State) (s : State) : Host.Outcome State Fault Refusal :=
  .next (if guard then publish s (op s) else s)

end Sys2Proof.Machine
end

