-- ==== Sys2Proof/Machine/AvocetOps.lean ====
section
/-!
DEFINITION. Operations of Avocet that several commands share: loading a channel (11 R250 to R252), edge
triggers reaching channels (11 R254, R255), and the regions that a channel feeds (10 R239).
-/
namespace Sys2Proof.Machine

/-- Descriptor `i` of channel `c` in force. -/
def dmaRec (s : State) (c i : Nat) : Option DmaRec := mFind s.tables.dma (16 * c + i)

/-- The descriptor that a record's next field names, for a shadowed channel; the record itself for a
simple one (11 R251, R252). -/
def nextDescriptor (s : State) (c : Nat) (x : Nat × DmaRec) : Option (Nat × DmaRec) :=
  if 32 ≤ c then some x
  else if x.2.next = 255 then none
  else (dmaRec s c x.2.next).map (fun r => (x.2.next, r))

/-- A descriptor becomes active in ck `from'`: the one that its next field names is loaded into the shadow, and
with trigger source 0 its first source read is issued in that ck (11 R251). -/
def activate (c from' : Nat) (d : Nat × DmaRec) (s : State) (x : ChanSt) : ChanSt :=
  { x with status := .waiting, active := some d, shadow := nextDescriptor s c d
           activeFrom := from', startsNow := d.2.trig == 0 }

/-- Load descriptor 0 and wait for its trigger; trigger source 0 starts at once (11 R250, R251). -/
def loadChannel (c : Nat) (s : State) : State :=
  setChan s c (match dmaRec s c 0 with
    | some r => activate c s.now (0, r) s ChanSt.init
    | none => ChanSt.init)

/-- The descriptor that a trigger would start: the active one of a waiting channel, the next of a busy one; and
the one that a stopped channel held (11 R255). -/
def awaited (s : State) (c : Nat) : Option DmaRec :=
  let x := chan s c
  match x.status with
  | .waiting | .stopped => x.active.map (·.2)
  | .busy => x.shadow.map (·.2)
  | .idle => none

/-- An edge trigger reaches a channel in its trigger ck: recognised in the next, or lost on a stopped channel (11 R254,
R255). A doorbell waits for the restart (R270). -/
def fireChan (f : DmaRec → Bool) (c : Nat) (s : State) : State :=
  match awaited s c with
  | some r =>
    if !f r then s
    else if (chan s c).status == .stopped then whenB (r.trig != 5) (bumpChan c 1) s
    else setChan s c { chan s c with triggers := (chan s c).triggers ++ [s.now] }
  | none => s

/-- An edge trigger whose trigger ck this is reaches every channel whose awaited descriptor names it. -/
def fire (f : DmaRec → Bool) (s : State) : State := each (s.chans.map (·.1)) (fireChan f) s

/-- The words of a process-image area that a descriptor's transfer covers. -/
def destWords (r : DmaRec) : Nat × Nat := (r.dst % 2 ^ 18 / 4, cdiv (r.dst % 2 ^ 18 + r.count) 4)

/-- A descriptor's destination lies inside a region (10 R239). -/
def destIn (s : State) (i : Nat) (r : DmaRec) : Bool :=
  r.dstSpace == 0 &&
    (match regionAt s (r.dst % 2 ^ 18 / 4) with | some (j, _, _) => j == i | none => false)

/-- The channels that feed a region (10 R239). -/
def feeders (s : State) (i : Nat) : List Nat :=
  (List.range 64).filter (fun c => (List.range 16).any (fun j =>
    match dmaRec s c j with | some r => destIn s i r | none => false))

/-- A channel's running transfer goes into a region. -/
def feedingNow (s : State) (i c : Nat) : Bool :=
  (chan s c).status == .busy &&
    (match (chan s c).active with | some x => destIn s i x.2 | none => false)

/-- Every unbanked region fed from a VC queue of a link becomes stale (10 R239). -/
def staleFromLink (k : Nat) (s : State) : State :=
  each s.tables.pimap (fun x s =>
    if x.2.kind = 0 && !x.2.banked && (feeders s x.1).any (fun c => (List.range 16).any (fun j =>
        match dmaRec s c j with | some r => r.srcSpace == 2 && r.src % 32 == k && destIn s x.1 r | none => false))
    then setRegion s x.1 { region s x.1 with stale := true } else s) s

/-- Start every channel under R250 and R251; held doorbells and messages trigger again (11 R267, R270). -/
def startAvocet (s : State) : State :=
  let s := { s with avocet := { s.avocet with running := true, stopped := false } }
  let s := each (List.range 64) loadChannel s
  each (List.range 32) (fun b s =>
    if s.station.doorbell.getLsbD b then fire (fun r => r.trig == 5 && r.arg == b) s else s) s

end Sys2Proof.Machine
end

