-- ==== Sys2Proof/Machine/Blocks.lean ====
section
/-!
DEFINITION. Blocks on a Dziak lane (08 R175 to R178, R183): the 67-bit form, the self-synchronous scrambler, a
packet as blocks of the striped sequence, and the receiver's way back.
-/
namespace Sys2Proof.Machine

/-! ### Sync headers (R175) -/

def syncData : Nat := 1
def syncControl : Nat := 2
def syncTail : Nat := 3

/-! ### The scrambler (R176): a history holds the last 58 bits on the lane, the newest in bit 0 -/

/-- The bit that 39 and 58 bits ago give. -/
def feedback (h : BitVec 58) : Bool := h.getLsbD 38 ^^ h.getLsbD 57

/-- The history after one more bit on the lane. -/
def remember (h : BitVec 58) (b : Bool) : BitVec 58 := (h <<< 1) ||| (if b then 1 else 0)

/-- A body with bit `i` set to a value, from one that has zero there. -/
def putBit (d : Block) (i : Nat) (b : Bool) : Block := if b then d ||| (1 <<< i) else d

/-- Scramble bits `i` to `i + n - 1` of a body. -/
def scrambleFrom (d : Block) : Nat → Nat → BitVec 58 → Block → Block × BitVec 58
  | 0, _, h, a => (a, h)
  | n + 1, i, h, a =>
    let b := d.getLsbD i ^^ feedback h
    scrambleFrom d n (i + 1) (remember h b) (putBit a i b)

/-- The body as sent, and the history after it. -/
def scramble (h : BitVec 58) (d : Block) : Block × BitVec 58 := scrambleFrom d 64 0 h 0

/-- Recover bits `i` to `i + n - 1` of a body. -/
def descrambleFrom (r : Block) : Nat → Nat → BitVec 58 → Block → Block × BitVec 58
  | 0, _, h, a => (a, h)
  | n + 1, i, h, a =>
    descrambleFrom r n (i + 1) (remember h (r.getLsbD i)) (putBit a i (r.getLsbD i ^^ feedback h))

/-- The body received, and the history after it. -/
def descramble (h : BitVec 58) (r : Block) : Block × BitVec 58 := descrambleFrom r 64 0 h 0

/-! ### The 67 bits (R175, R177) -/

/-- The number of ones is odd. -/
def oddOnes (w : LaneWord) : Bool := popCount 67 w.toNat % 2 == 1

/-- A block in the order of sending: sync header, scrambled body, and the bit that makes the ones odd. -/
def laneWord (sync : Nat) (scrambled : Block) : LaneWord :=
  let w := BitVec.ofNat 67 (sync % 4 + scrambled.toNat * 4)
  if oddOnes w then w else w ||| (1 <<< 66)

def wordSync (w : LaneWord) : Nat := bitsOf w.toNat 0 2
def wordBody (w : LaneWord) : Block := BitVec.ofNat 64 (bitsOf w.toNat 2 64)

/-- Parity holds and the sync header is a valid one. -/
def wordGood (w : LaneWord) : Bool := oddOnes w && wordSync w != 0

/-! ### Packets as blocks (R183, R188) -/

/-- The payload blocks of a packet: 8 bytes each, the last one filled with zero. -/
def payloadBlocks (payload : List Byte) : List Block :=
  (List.range (cdiv payload.length 8)).map (fun j => BitVec.ofNat 64 (leNat (slice payload (8 * j) 8)))

/-- The first `len` bytes that payload blocks hold. -/
def blockBytes (len : Nat) (data : List Block) : List Byte :=
  (data.flatMap (fun b => leBytes 8 b.toNat)).take len

/-- A packet's blocks in striped order. -/
def packetBlocks (built ready seq : Nat) (hdr : Block) (payload : List Byte) (tail : Block) : List TxBlock :=
  { built := built, ready := ready, sync := syncControl, body := hdr, tailOf := none } ::
    (payloadBlocks payload).map (fun b => { built := built, ready := ready, sync := syncData, body := b, tailOf := none }) ++
    [{ built := built, ready := ready, sync := syncTail, body := tail, tailOf := some seq }]

/-- What the striped sequence yields: a failure under a counter, or a whole packet. -/
inductive RxEvent where
  | failed (counter : Nat)
  | packet (hdr : Block) (data : List Block) (tail : Block)
deriving DecidableEq, Repr

/-- A block that stays on its lane: TIME, ECHO, CAL and training (R178, R180). -/
def laneLocal (sync : Nat) (b : Block) : Bool :=
  sync == syncControl && (blockType b == 0x5A || within 0x60 0x8F (blockType b) || blockType b == 0x99)

/-- One striped block, in a row that a block in error spoils or not. -/
def frameBlock (bad : Bool) (f : RxFrame) (sync : Nat) (b : Block) : RxFrame × List RxEvent :=
  if sync = syncControl ∧ blockType b = 0x2D then
    let cut := match f with | .inside _ _ => [.failed 1] | _ => []
    if bad then (.skipping, cut ++ [.failed 0]) else (.inside b [], cut)
  else if sync = syncData then
    match f with
    | .inside h d => (.inside h (d ++ [b]), [])
    | .outside => (.skipping, [.failed 1])
    | .skipping => (.skipping, [])
  else if sync = syncTail then
    match f with
    | .inside h d => (.outside, [.packet h d b])
    | .outside => (.outside, [.failed 1])
    | .skipping => (.outside, [])
  else (f, [])

/-- The blocks of a row, in ascending lane order; IDLE, ACK, NAK and AUDIT belong to no packet. -/
def frameBlocks (bad : Bool) : RxFrame → List (Nat × Block) → RxFrame × List RxEvent
  | f, [] => (f, [])
  | f, (sync, b) :: r =>
    let x := frameBlock bad f sync b
    let y := frameBlocks bad x.1 r
    (y.1, x.2 ++ y.2)

/-- A row: a block in error anywhere in it fails the packet that is open (R188). -/
def frameRow (bad : Bool) (f : RxFrame) (row : List (Nat × Block)) : RxFrame × List RxEvent :=
  match bad, f with
  | true, .inside _ _ =>
    let y := frameBlocks true .skipping row
    (y.1, .failed 0 :: y.2)
  | _, _ => frameBlocks bad f row

end Sys2Proof.Machine
end

