-- ==== Sys2Proof/Machine/StreamOps.lean ====
section
/-!
DEFINITION. Operations on talker streams that several commands share: the wheel's arithmetic (06 R131 to
R134), a frame's arrival in its stream queue (06 R132, 10 R240), Egret's release (07 R163 to R165), and the
discards of 06 R136, R137 and 07 R162.
-/
namespace Sys2Proof.Machine

/-- T in units of 2^-24 ck per byte, rounded half up (06 R131). -/
def byteTime (rate : Nat) : Nat := (6400000 * 2 ^ 24 * 2 + rate) / (2 * rate)

/-- The counted length of a frame of L bytes (06 R132). -/
def countedLen (mode overhead len : Nat) : Nat := if mode = 1 then len + overhead else len

/-- L of a stream frame as it leaves the MAC, R-TAG and FCS included (06 R123, 07 R163). -/
def sentLen (r : StreamsRec) (f : Frame) : Nat :=
  if f.cut && !f.whole then r.maxFrame
  else frameLen f + (if r.rtag && !hasRtag f.bytes then 6 else 0)

/-- e of a head frame, in units of 2^-24 ck (06 R133). -/
def eligibleAt (s : State) (r : StreamsRec) (x : StreamSt) (f : Frame) : Int :=
  tatAt s x.tat - ((r.burst : Int) - countedLen r.lenMode r.overhead (sentLen r f)) * byteTime r.rate

/-- The credit in whole bytes, rounded down (R133; log entry 29): B less what lies between the present and TAT. -/
def creditBytes (s : State) (r : StreamsRec) (x : StreamSt) : Int :=
  ((r.burst * byteTime r.rate : Nat) - max 0 (tatAt s x.tat - now24 s)) / (max 1 (byteTime r.rate) : Nat)

/-- The ck in which the head frame may first be released: max(a, e), rounded up to a ck. -/
def dueCk (s : State) (r : StreamsRec) (x : StreamSt) (f : Frame) : Nat :=
  max f.arrival (max 0 (-((-(eligibleAt s r x f)) / (2 ^ 24 : Int)))).toNat

/-- Where the wheel holds a stream with this head frame (06 R134). -/
def placeOf (s : State) (r : StreamsRec) (x : StreamSt) (f : Frame) : Place :=
  let d := dueCk s r x f
  if d < hck s + 8192 then .fine (cdiv d 8)
  else if d < hck s + 8388608 then .coarse (d / 8192)
  else .long

/-- Place a stream by its head frame, or take it off the wheel. -/
def placeStream (q : Nat) (s : State) : State :=
  let x := stream s q
  match mFind s.tables.streams q, x.queue with
  | some r, f :: _ => setStream s q { x with place := placeOf s r x f }
  | _, _ => setStream s q { x with place := .idle }

/-- The largest cut-through threshold among the member ports that are on, in 64-byte steps (07 R158). -/
def initialThreshold (s : State) (r : StreamsRec) : Nat :=
  let on := (List.range 4).filter (fun p => hasBit r.members p && !portOff s p)
  if on.isEmpty then 2
  else (on.map (fun p => match portsRec s p with
    | some x => if x.ctStart = 0 then 2 else x.ctStart | none => 2)).foldl max 0

/-- A frame arrives in its stream queue: oversize first, then the stale policy (06 R132, 10 R240). -/
def arriveFrame (q : Nat) (f : Frame) (s : State) : State :=
  match mFind s.tables.streams q with
  | none => s
  | some r =>
    if r.maxFrame < sentLen r f then bumpStream q 0 s
    else if f.stale && r.staleSkip then bumpStream q 3 s
    else
      let x := stream s q
      placeStream q (setStream s q { x with queue := x.queue ++
        [{ f with arrival := hck s, deadline := hck s + r.deadline, stream := some q }] })

/-- Change every copy of a frame: stream queue, class queues and wires. -/
def updateFrame (id q : Nat) (g : Frame → Frame) (s : State) : State :=
  let h := fun (f : Frame) => if f.id = id then g f else f
  let x := stream s q
  let s := setStream s q { x with queue := x.queue.map h, tunnels := x.tunnels.map (fun e => (e.1, h e.2)) }
  { s with classQ := s.classQ.map (fun e => (e.1, e.2.map h))
           ports := s.ports.map (fun e => (e.1, { e.2 with
             tx := e.2.tx.map (fun t => { t with frame := h t.frame })
             preempted := e.2.preempted.map (fun y => (y.1, h y.2)) })) }

/-- A tunnelled frame has grown beyond its stream's maximum frame, its carried FCS and an inserted R-TAG counted (07
R162, R163). -/
def tunnelTooLong (s : State) (q : Nat) (f : Frame) : Bool :=
  match mFind s.tables.streams q with
  | some r => decide (r.maxFrame < f.bytes.length + (if f.ended then 4 else 0) + (if r.rtag && !hasRtag f.bytes then 6 else 0))
  | none => false

/-- The rest of a VC's open tunnelled message is discarded as it comes (07 R162). -/
def skipRest (key : Nat) (s : State) : State :=
  let x := vc s (key / 8) (key % 8)
  setVc s (key / 8) (key % 8)
    { x with rxOpen := x.rxOpen.map (fun m => if m.poured then { m with skip := true } else m) }

/-- The frames that VC `key` was filling are left without their rest (08 R193, R207). -/
def orphanTunnel (key : Nat) (s : State) : State :=
  { s with streams := s.streams.map (fun e => (e.1, { e.2 with tunnels := mErase e.2.tunnels key })) }

/-- Discard every copy of a frame that has not started (07 R162). -/
def dropUnstarted (id q : Nat) (s : State) : State :=
  let x := stream s q
  let s := setStream s q { x with queue := x.queue.filter (fun f => f.id != id) }
  placeStream q
    { s with classQ := s.classQ.map (fun e => (e.1, e.2.filter (fun f => f.id != id || f.started))) }

/-- A member port with a port that is live among a stream's members, the given port apart. -/
def otherLive (s : State) (r : StreamsRec) (p : Nat) : Bool :=
  (List.range 4).any (fun o => o != p && hasBit r.members o && (port s o).live)

/-- One member copy at a release: queued, skipped or dropped (07 R165). -/
def memberCopy (q : Nat) (r : StreamsRec) (f : Frame) (p : Nat) (s : State) : State :=
  if portOff s p || (!(port s p).live && otherLive s r p) then bumpCopy q p 2 s
  else if 256 ≤ (classQueue s p r.cls).length ∨ maxFrame s p < sentLen r f then bumpCopy q p 3 s
  else setClassQueue s p r.cls (classQueue s p r.cls ++ [f])

/-- A release: TAT advances from a and e, Egret gives one sequence number and one copy per member
(06 R133, R135; 07 R163 to R165). -/
def releaseHead (q : Nat) (s : State) : State :=
  let x := stream s q
  match mFind s.tables.streams q, x.queue with
  | some r, f :: rest =>
    let cost := countedLen r.lenMode r.overhead (sentLen r f) * byteTime r.rate
    let g := { f with seq := x.seq, bytes := if r.rtag then insertRtag f.bytes x.seq else f.bytes }
    let s := setStream s q { x with
      queue := rest, tat := tatOf (max (tatAt s x.tat) (f.arrival * 2 ^ 24 : Nat) + cost), seq := (x.seq + 1) % 65536,
      lastRelease := hck s }
    placeStream q (each ((List.range 4).filter (hasBit r.members)) (memberCopy q r g) s)
  | _, _ => s

/-- Member ports that are not off: what a deadline discard before release counts on (06 R137). -/
def deadlineCounts (q : Nat) (r : StreamsRec) (s : State) : State :=
  each ((List.range 4).filter (fun p => hasBit r.members p && !portOff s p)) (fun p => bumpCopy q p 0) s

/-- The stream's TAT under a refill flag at an instant in units of 2^-24 ck (06 R136). -/
def refillTat (full : Bool) (rate burst at' : Nat) : BitVec 72 :=
  tatOf (if full then at' else at' + burst * byteTime rate : Nat)

/-- A head is past its deadline (06 R137). -/
def lateHead (s : State) (f : Frame) : Bool := !f.started && decide (f.deadline < hck s)

/-- Discard the head of a stream queue that is past its deadline, with its counts. -/
def expireStream (q : Nat) (f : Frame) (s : State) : State :=
  let x := stream s q
  let s := placeStream q (setStream s q { x with queue := x.queue.drop 1 })
  match mFind s.tables.streams q with
  | some r => releaseFrame f (deadlineCounts q r s)
  | none => releaseFrame f s

/-- Late heads of a stream queue are discarded one after another (06 R137, R144). -/
def dropLate (q : Nat) (s : State) : State :=
  each ((stream s q).queue.takeWhile (lateHead s)) (expireStream q) s

end Sys2Proof.Machine
end

