-- ==== Sys2Proof/Machine/LinkOps.lean ====
section
/-!
DEFINITION. Operations on Dziak links that several commands share: blocks that carry S (08 R189), release
and replay (R190 to R192), credit (R194, R196), the window check (R197), retrain and link down (R192, R193,
09 R219 to R221), and messages entering a link's transmit queue (08 R200, 11 R263, 12 R276).
-/
namespace Sys2Proof.Machine

/-- The VCMAP record of a VC; none for a link beyond the plan (04 R84). -/
def vcRec (s : State) (k v : Nat) : Option VcmapRec :=
  if inPlan s k then mFind s.tables.vcmap (8 * k + v) else none

/-- CL of a VC (08 R194): the buffer and the units freed, held while a shrunk buffer drains (R207). -/
def creditLimit (x : VcSt) : Nat := (x.bv + x.freed + x.hold) % 65536

/-- Units of packets accepted and not yet freed. -/
def unitsHeld (x : VcSt) : Nat := (x.ac + 65536 - x.freed) % 65536

/-- EMPTY: the VC holds no packet (08 R196). -/
def vcEmpty (x : VcSt) : Bool := unitsHeld x == 0

/-- Free units of a VC's buffer (08 R194, R196). -/
def freeUnits (k v n : Nat) (s : State) : State :=
  let x := vc s k v
  setVc s k v { x with freed := (x.freed + n) % 65536, hold := x.hold - n,
                       firstFree := if x.firstFree.isNone && n != 0 then some s.now else x.firstFree }

/-- Free a consumed or discarded message's credit on each member that counts it. -/
def freeMsg (k v : Nat) (m : Msg) (s : State) : State :=
  whenB m.mateFresh (freeUnits (k + 1) v m.mateUnits) (whenB m.fresh (freeUnits k v m.units) s)

/-- Pair elimination is on for a link (08 R200, R201). -/
def eliminates (s : State) (k : Nat) : Bool := planPairs (plan s) && (lanesRec s k).pairElim

/-- The link whose VC holds what a link delivers: the even member of a pair with elimination on. -/
def home (s : State) (k : Nat) : Nat := if eliminates s k then k / 2 * 2 else k

/-- The mapped VCs of a link, in the order of the rotation (08 R196). -/
def rotation (s : State) (k : Nat) : List Nat :=
  ((List.range 8).map (fun i => ((link s k).returnNext + i) % 8)).filter (fun v => (vcRec s k v).isSome)

/-- The next VC of the rotation with unreported frees (08 R196). -/
def unreported (s : State) (k : Nat) : Option Nat :=
  (rotation s k).find? (fun v => (vc s k v).freed != (vc s k v).reported)

/-- The VC whose credit an ACK or NAK returns: unreported frees first, then what 100 us call for (08 R196). -/
def returnVc (s : State) (k : Nat) : Option Nat :=
  match unreported s k with
  | some v => some v
  | none => (rotation s k).find? (fun v => decide ((vc s k v).lastReturn + usCk 100 ≤ s.now))

/-- A VC's credit has been reported, and the rotation moves on. -/
def noteReturn (k v : Nat) (s : State) : State :=
  let s := setLink s k { link s k with returnNext := (v + 1) % 8 }
  setVc s k v { vc s k v with reported := (vc s k v).freed, firstFree := none, lastReturn := s.now }

/-- A block carrying S has been built: U is 0 and the ack timer stops (08 R189). -/
def noteS (k : Nat) (s : State) : State := setLink s k { link s k with rxU := 0, ackDue := none }

/-- The lanes of a link wake: IDLE for 0.4 us, after 7.6 us more where the transmitter was powered down
(14 R312, R314). -/
def wakeLink (k : Nat) (s : State) : State :=
  let x := link s k
  if x.asleep then
    let t := max s.now x.wakeEnd + nsCk 400 + (if x.deep then nsCk 7600 else 0)
    setLink s k { x with asleep := false, deep := false, wakeEnd := t, idleSince := t }
  else s

/-- The ck from which a block built now may be sent: crossed into LTX, and the lanes awake (08 R203; 14 R312). -/
def readyCk (s : State) (k ck : Nat) : Nat := max (s.now + ck) (link s k).wakeEnd

/-- A control block waits for the next striped position (08 R189, R203). -/
def queueControl (k : Nat) (b : Block) (s : State) : State :=
  let x := link s k
  setLink s k { x with control := x.control ++
    [{ built := s.now, ready := readyCk s k 8, sync := syncControl, body := b, tailOf := none }] }

/-- The control blocks of a type that were built in this ck. -/
def builtNow (s : State) (k type : Nat) : List TxBlock :=
  (link s k).control.filter (fun c => c.built == s.now && blockType c.body == type)

/-- The body of an ACK (0x33) or NAK (0x3C) that returns credit for the given VC, or for none. -/
def ackBody (s : State) (type k : Nat) (v : Option Nat) : Block :=
  match v with
  | some v => mkAck type (link s k).rxS true v (creditLimit (vc s k v)) (vcEmpty (vc s k v))
  | none => mkAck type (link s k).rxS false 0 0 false

/-- Build an ACK or NAK. -/
def buildAck (type k : Nat) (v : Option Nat) (s : State) : State :=
  let s := wakeLink k s
  let t := noteS k (queueControl k (ackBody s type k v) s)
  match v with
  | some v => noteReturn k v t
  | none => t

/-- Send an ACK, unless a NAK was built in this ck: of the two, only the NAK is sent (08 R207). -/
def sendAckFor (k : Nat) (v : Option Nat) (s : State) : State :=
  if (builtNow s k 0x3C).isEmpty then buildAck 0x33 k v s else s

def sendAck (k : Nat) (s : State) : State := sendAckFor k (returnVc s k) s

/-- The VC that a NAK returns: that of an ACK of the same ck, whose place it takes (08 R207). -/
def nakVc (s : State) (k : Nat) : Option Nat :=
  match (builtNow s k 0x33).find? (fun c => ackCrv c.body) with
  | some c => some (ackVc c.body)
  | none => returnVc s k

/-- A NAK, counted (08 R188). -/
def sendNak (k : Nat) (s : State) : State :=
  let x := link s k
  let t := setLink s k { x with control := x.control.filter (fun c => !(c.built == s.now && blockType c.body == 0x33)) }
  bumpLink k 4 (buildAck 0x3C k (nakVc s k) t)

/-- The elimination state of a pair's VC resets, counted (08 R201). -/
def resetPair (j v : Nat) (s : State) : State :=
  bumpPair j v 3 (setPair s j v { pair s j v with isReset := true })

/-! ### Retrain and link down -/

/-- The lanes of a mask as physical lanes. -/
def maskLanes (s : State) (k m : Nat) : List Nat :=
  ((List.range 8).filter (fun i => hasBit m i)).filterMap (fun i => (linkLanes s k)[i]?)

/-- Exclude lanes under R219 or R220: counted and logged per lane, and an unused spare that still passes
joins (09 R221). -/
def excludeLanes (k m cause : Nat) (s : State) : State :=
  let m := m &&& keptLanes s k
  let code := stateCode (link s k).st
  let x := link s k
  let spareBit := 2 ^ (width s k - 1)
  let takesSpare := planSpare (plan s) k && !x.spareUsed && (x.excluded ||| m) &&& spareBit == 0 &&
    m &&& workingMask s k != 0
  let s := setLink s k { x with excluded := x.excluded ||| m, faultMask := x.faultMask ||| m,
                                spareUsed := x.spareUsed || takesSpare }
  let s := each (maskLanes s k m) (fun n s => logFault 0x41 n (cause + n * 256 + code * 65536)
    (bumpLane n 1 s)) s
  whenB takesSpare (bumpLink k 23) s

/-- Lanes whose latest full eye map shows a closed eye (09 R220). -/
def closedLanes (s : State) (k : Nat) : Nat :=
  ((List.range 8).filter (fun i => match (linkLanes s k)[i]? with
    | some n => hasBit (keptLanes s k) i && decide (0 < (lane s n).closedRun) | none => false)).foldl setBit 0

/-- The serdes run: CK runs, and SREFCLK is sound (02 R31). -/
def serdesRun (s : State) : Bool := ckRuns s && !s.supply.srefFault

/-- A lane-local block waits on a lane (08 R178, R203). -/
def queueLane (k n : Nat) (b : Block) (s : State) : State :=
  let x := lane s n
  setLane s n { x with queue := x.queue ++ [(readyCk s k 8, b)] }

/-- A lane begins to send a block: scrambled, with its parity (08 R175, R176). -/
def sendWord (n : Nat) (sync : Nat) (b : Block) (s : State) : LaneWord × State :=
  let x := lane s n
  let y := scramble x.txHist b
  (laneWord sync y.1, setLane s n { x with txHist := y.2 })

def trainTimeout (s : State) (k : Nat) (st : LinkState) : Nat :=
  let t := (lanesRec s k).trainUs
  usCk (if st = .equalize then max t 1000 else t)

/-- Enter a training state with its timeout (09 R212). -/
def enterState (k : Nat) (st : LinkState) (s : State) : State :=
  setLink s k { link s k with st := st, stateDue := s.now + trainTimeout s k st }

/-- Re-enter SYNC: TS1 on every kept lane, lanes unlocked and not yet seen, the exchange afresh, packets kept; blocks on
their way to the lanes are dropped (08 R199, 09 R229). -/
def enterSync (k : Nat) (again : Bool) (s : State) : State :=
  let s := each (linkLanes s k) (fun n s => setLane s n { lane s n with
    deferred := false, queue := [], calWait := none, rxHist := none, rxBad := false }) s
  enterState k .sync (setLink s k { link s k with
    control := [], sending := [], beaconLeft := 0, speedLeft := none, timeOwed := false, rxFrame := .outside
    retrain := again, locked := 0, aligned := 0, eqSent := 0, eqRecv := 0, readySent := 0, readyRecv := 0,
    params := [], paramSeen := 0, paramAcked := false, keepEq := false, episode := none,
    asleep := false, deep := false })

/-- A retrain of an ACTIVE link (08 R192, R199; 09 R220): counted, logged, closed lanes excluded, slots of
the link stale. One forced by a commit does not count towards M. -/
def startRetrain (k cause failing : Nat) (byCommit : Bool) (s : State) : State :=
  if (link s k).st ≠ .active then s
  else
    let s := logFault 0x40 k (cause + failing * 256 + 7 * 65536) (bumpLink k 9 s)
    let x := link s k
    let s := setLink s k { x with retrains := if byCommit then x.retrains else x.retrains + 1,
                                  lastCause := cause,
                                  commitRetrain := byCommit,
                                  excluded := if byCommit then 0 else x.excluded,
                                  faultMask := if byCommit then 0 else x.faultMask,
                                  spareUsed := if byCommit then false else x.spareUsed }
    let s := excludeLanes k (closedLanes s k) 5 s
    enterSync k true (staleFromLink k s)

/-- Packets still to be cut from a message. -/
def packetsLeft (m : TxMsg) : Nat := cdiv (m.bytes.length - m.pos) 256

/-- What a link down leaves of the messages that came over member `k` and are held on VC v of link `h`: open
ones are discarded, complete ones kept, their credit no longer counted on `k` (08 R193). -/
def forgetRx (k h v : Nat) (s : State) : State :=
  let x := vc s h v
  let cut := match x.rxOpen with
    | some m => k == h && !eliminates s k || (if k = h then m.units != 0 else m.mateUnits != 0)
    | none => false
  let mark := fun (m : Msg) => if k = h then { m with fresh := false } else { m with mateFresh := false }
  let s := setVc s h v { x with rxMsgs := x.rxMsgs.map mark, rxOpen := if cut then none else x.rxOpen.map mark }
  match x.rxOpen with
  | some m => if cut then freeMsg h v (mark m) (whenB m.poured (orphanTunnel (8 * h + v)) s) else s
  | none => s

/-- Back to DETECT (09 R213): counted, sequence numbers and credit afresh; the back-off doubles after a
timeout, up to 256 ms. -/
def toDetect (k : Nat) (timedOut down : Bool) (s : State) : State :=
  let b := (link s k).backoff
  let h := home s k
  let s := each (List.range 8) (fun v s =>
    let s := forgetRx k h v s
    let x := vc s k v
    setVc s k v { VcSt.init with bv := x.bv, rxOpen := x.rxOpen, rxMsgs := x.rxMsgs,
                                 txQ := if down then [] else x.txQ }) s
  let s := each (linkLanes s k) (fun n s => setLane s n { lane s n with
    queue := [], calWait := none, rxHist := none, rxBad := false }) s
  bumpLink k 20 (setLink s k { LinkSt.init with
    st := .detect, down := down || (link s k).down, backoff := if timedOut then min 256 (2 * b) else b,
    beaconDue := s.now, stateDue := s.now + trainTimeout s k .detect, rowDue := (link s k).rowDue })

/-- The link is declared down (08 R193): stores and transmit queues discarded and counted per packet, open
messages discarded, complete ones kept, slots stale, back to DETECT. -/
def declareDown (k cause : Nat) (timedOut : Bool) (s : State) : State :=
  let x := link s k
  let queued := ((List.range 8).map (fun v => ((vc s k v).txQ.map packetsLeft).sum)).sum
  let s := bumpBy 0x27 k 12 (x.store.length + queued) (bumpLink k 11 s)
  let s := logFault 0x42 k (cause + 0xFF * 256 + stateCode x.st * 65536) s
  toDetect k timedOut true (staleFromLink k s)

/-! ### Release, replay and credit on the transmit side -/

/-- C_rel of a released packet's VC takes its cost, unless a retrain has counted it (08 R194, R199). -/
def chargeRelease (k : Nat) (p : Stored) (s : State) : State :=
  if p.charged then s
  else setVc s k p.vc { vc s k p.vc with cRel := ((vc s k p.vc).cRel + p.cost) % 65536 }

/-- How far an S lies beyond the release point, modulo 4,096 (08 R190). -/
def beyond (s : State) (k sNum : Nat) : Nat := (sNum + 4096 - (link s k).released) % 4096

/-- Release packets up to S (08 R190): charged to C_rel, the replay timer restarts, the retrains in a row
end. An S not within 2,047 of the release point is ignored and counted. -/
def releaseUpTo (k sNum : Nat) (s : State) : State :=
  let x := link s k
  let n := min (beyond s k sNum) x.store.length
  if 2047 < beyond s k sNum then bumpLink k 8 s
  else if n = 0 then s
  else
    let rest := x.store.drop n
    setLink (each (x.store.take n) (chargeRelease k) s) k { x with
      store := rest, released := (x.released + n) % 4096, releasedAt := s.now, retrains := 0,
      episode := (match x.episode with
        | some e => if rest.any (fun p => p.seq == e) then some e else rest.head?.map (·.seq)
        | none => none) }

/-- The ck in which the replay timer expires: the oldest unacknowledged packet's tail finished sending, and the last
release lies back, by its time (08 R191). -/
def replayDue (s : State) (k : Nat) : Option Nat :=
  let x := link s k
  match x.store with
  | p :: _ => p.sentAt.map (fun t => max t x.releasedAt + nsCk (lanesRec s k).replayNs)
  | [] => none

/-- A replay episode from the oldest unacknowledged packet (08 R191, R192; 15 R329): the replay limit
retrains the link, a marked packet takes it down. `counted` unless the episode only replaces one of the same ck
(R207). -/
def startEpisode (k : Nat) (counted : Bool) (s : State) : State :=
  let x := link s k
  match x.store with
  | [] => s
  | p :: rest =>
    if p.marked then declareDown k 0 false s
    else if (lanesRec s k).limitN ≤ p.count then startRetrain k 0 0xFF false s
    else whenB counted (bumpLink k 6) (setLink s k { x with
      store := { p with count := p.count + 1, sentAt := none } :: rest, episode := some p.seq })

/-- Take CL for a VC (08 R197), and with EMPTY check the window. -/
def takeCredit (k v cl : Nat) (empty : Bool) (s : State) : State :=
  let x := { vc s k v with cl := cl }
  let s := setVc s k v x
  if empty && decide ((cl + 65536 - x.cRel) % 65536 < min 4 x.partnerBv) && (link s k).st == .active then
    startRetrain k 1 0xFF false (bumpLink k 10 s)
  else s

/-! ### Messages into a link's transmit queue -/

/-- The links that carry a message for link k: both members of its pair in plans 11 and 12 (08 R200). -/
def carriers (s : State) (k : Nat) : List Nat :=
  if planPairs (plan s) then [k / 2 * 2, k / 2 * 2 + 1] else [k]

/-- The link's transmit queue has room for a message (12 R271). -/
def queueRoom (s : State) (k : Nat) (bytes : List Byte) : Bool :=
  decide (linkCells s k + cellsOf bytes.length ≤ 64)

/-- Put one message into a member's queue; a member that is not ACTIVE is skipped, counted per packet, and one
without room drops its copy, counted by `full` (08 R200; 12 R276; 11 R263). -/
def queueOn (k v : Nat) (m : TxMsg) (full : Nat → State → State) (s : State) : State :=
  if planPairs (plan s) && (link s k).st != .active then
    bumpBy 0x29 (8 * (k / 2) + v) 4 (cdiv m.bytes.length 256) s
  else if !queueRoom s k m.bytes then full k s
  else setVc s k v { vc s k v with txQ := (vc s k v).txQ ++ [m] }

/-- A message enters the transmit queue, with its pair sequence numbers (08 R200). -/
def queueMessage (k v kind : Nat) (bytes : List Byte) (deadline : Nat) (full : Nat → State → State) (s : State) :
    State :=
  let pr := pair s (k / 2) v
  let n := cdiv bytes.length 256
  let m : TxMsg := { kind := kind, bytes := bytes, pos := 0, deadline := deadline,
                     pseq := if planPairs (plan s) then pr.next else 0 }
  let s := if planPairs (plan s) then setPair s (k / 2) v { pr with next := (pr.next + n) % 65536 } else s
  each (carriers s k) (fun k => queueOn k v m full) s

/-- A link that does not carry: beyond the plan, or with no carrier in ACTIVE (R155; 09 R212). -/
def linkAbsent (s : State) (k : Nat) : Bool :=
  !inPlan s k || (carriers s k).all (fun j => (link s j).st != .active)

end Sys2Proof.Machine
end

