-- ==== Sys2Proof/Machine/HeronOps.lean ====
section
/-!
DEFINITION. Operations of Heron that several commands share: gate entries (06 R119), firing events to their
subscribers (R125), bank swaps (10 R237 to R239), the vote, fences and SAFE (06 R127 to R129), the watchdog
(10 R241), and Avocet at a boundary (11 R267, R268).
-/
namespace Sys2Proof.Machine

/-! ### Curlew moves (09 R223, R226) -/

/-- The signed distance of the phase centre from the main phase, cyclic in 64 steps. -/
def phaseGap (x : LaneSt) : Int := (((x.wantPhase + 96 - x.phase) % 64 : Nat) : Int) - 32
def thresholdGap (x : LaneSt) : Int := (x.wantThreshold : Int) - x.threshold

/-- R223 calls for a move. -/
def phaseCalls (x : LaneSt) : Bool := decide (2 ≤ (phaseGap x).natAbs)
def thresholdCalls (x : LaneSt) : Bool := decide (2 ≤ (thresholdGap x).natAbs)

def laneRate (s : State) (n : Nat) : Nat :=
  match laneHome s n with | some (k, _) => (link s k).rate | none => 1

/-- One phase step toward the centre; it changes the receive latency by UI / 64. -/
def phaseMove (n : Nat) (s : State) : State :=
  let x := lane s n
  if phaseCalls x then
    let later := decide (0 < phaseGap x)
    bumpLane n 2 (setLane s n { x with
      phase := if later then (x.phase + 1) % 64 else (x.phase + 63) % 64,
      latency := if later then x.latency + samplerStep (laneRate s n) else x.latency - samplerStep (laneRate s n) })
  else s

/-- One threshold step toward the centre, within steps 0 to 31. -/
def thresholdMove (n : Nat) (s : State) : State :=
  let x := lane s n
  if thresholdCalls x then
    bumpLane n 2 (setLane s n { x with
      threshold := if 0 < thresholdGap x then min 31 (x.threshold + 1) else x.threshold - 1 })
  else s

def samplerMove (n : Nat) (s : State) : State := thresholdMove n (phaseMove n s)

/-- A lane with a deferred move makes one move, and the next is a block later; none called for ends it (R226). -/
def catchUp (n : Nat) (s : State) : State :=
  let x := lane s n
  if !x.deferred || decide (s.now < x.moveDue) then s
  else if phaseCalls x || thresholdCalls x then
    let s := if phaseCalls x then phaseMove n s else thresholdMove n s
    setLane s n { lane s n with moveDue := s.now + slotCk (laneRate s n) }
  else setLane s n { x with deferred := false }

/-- The deferred moves of a ck outside quiet windows (R226). -/
def curlewDuty (s : State) : State := if s.quiet then s else each (s.lanes.map (·.1)) catchUp s

/-- Set the quiet window (R226). -/
def setQuiet (open' : Bool) (s : State) : State := { s with quiet := open' }

/-- An event reaches the quiet window: equal IDs toggle it. -/
def quietEvent (id : Nat) (s : State) : State :=
  match s.tables.cal with
  | some r =>
    if !r.quiet then s
    else if r.openId = r.closeId then (if id = r.openId then setQuiet (!s.quiet) s else s)
    else if id = r.openId then setQuiet true s
    else if id = r.closeId then setQuiet false s
    else s
  | none => s

/-- An event reaches the meters' stream gates (06 R140). -/
def gateEvent (id : Nat) (s : State) : State :=
  each s.tables.police (fun x s =>
    let m := meter s x.1
    if !x.2.gated then s
    else if x.2.openId = x.2.closeId then
      (if id = x.2.openId then setMeter s x.1 { m with gate := !m.gate } else s)
    else if id = x.2.openId then setMeter s x.1 { m with gate := true }
    else if id = x.2.closeId then setMeter s x.1 { m with gate := false }
    else s) s

/-! ### Bank swaps (10 R237 to R239) -/

/-- The one-cycle rule: the previous swap lies at least one full cycle back (R237). -/
def swapAllowed (x : RegionSt) (cycle offset : Nat) : Bool :=
  match x.last with
  | none => true
  | some (c, o) => decide (c + 2 ≤ cycle) || (cycle == c + 1 && decide (o ≤ offset))

/-- The channels that completed a transfer into a physical bank. -/
def fedBank (x : RegionSt) (bank : Bool) : List Nat := if bank then x.fed1 else x.fed0

/-- The stale bit of a banked inbound region at its swap (R239). -/
def swapStale (s : State) (i : Nat) : Bool :=
  let x := region s i
  let f := feeders s i
  f.isEmpty || !(f.all (fun c => (fedBank x (!x.bank)).contains c)) || f.any (feedingNow s i)

/-- A swap of region i: its sides exchange, GENERATION increments once a ck. -/
def swapRegion (i : Nat) (r : PimapRec) (offset : Nat) (s : State) : State :=
  let x := region s i
  if !swapAllowed x s.heron.cycle offset then bumpDev 21 s
  else
    let s' := setRegion s i { x with
      bank := !x.bank,
      stale := if r.kind = 0 then swapStale s i else x.stale,
      last := some (s.heron.cycle, offset),
      fed0 := if x.bank then x.fed0 else [],
      fed1 := if x.bank then [] else x.fed1,
      swappedAt := s.now }
    if s'.station.generationAt = some s.now then s'
    else { s' with station := { s'.station with
        generation := s'.station.generation + 1, generationAt := some s.now } }

/-- An event swaps every banked region that names it. -/
def swapEvent (id offset : Nat) (s : State) : State :=
  each s.tables.pimap (fun x s =>
    if x.2.banked && x.2.swapId == id then swapRegion x.1 x.2 offset s else s) s

/-! ### Events (06 R125, R126) -/

/-- The EVT_OUT level after an action (04 R77). -/
def outAction (a : Nat) (v : Bool) : Bool := match a with | 1 => true | 2 => false | 3 => !v | _ => v

/-- The actions of a record on EVT_OUT, with Heron's clock at the record's offset (05 R111). -/
def evtActions (r : EventsRec) (s : State) : State :=
  let at' := s.heron.boundary + r.offset * ckUnits
  { s with dunlin := { s.dunlin with
      evtOut0 := outAction r.out0 s.dunlin.evtOut0, evtOut1 := outAction r.out1 s.dunlin.evtOut1,
      evtAt0 := if r.out0 = 0 then s.dunlin.evtAt0 else at', evtAt1 := if r.out1 = 0 then s.dunlin.evtAt1 else at' } }

/-- One record fires: its ID reaches every subscriber, its actions act. -/
def fireRecord (r : EventsRec) (s : State) : State :=
  let s := swapEvent r.id r.offset s
  let s := fire (fun d => d.trig == 1 && d.arg == r.id) s
  let s := if r.patn then raiseFlags 1 0 0 (1 <<< r.id) s else s
  let s := evtActions r s
  let s := gateEvent r.id (quietEvent r.id s)
  notify 1 r.id (leBytes 1 r.id) s

/-- The records fire in list order. -/
def fireRecords (l : List EventsRec) (s : State) : State := each l fireRecord s

/-- The 156.25 ps phase since release in which a time, `past` units of a counter that advances by `inc` before the
start of this ck, lies (05 R111). -/
def edgePhase (s : State) (past inc : Nat) : Nat := s.now * 8 - (2 * 8 * past + inc) / (2 * inc)

/-- A ck ends: each EVT_OUT pin shows the level that results from all the actions of the ck, at the instant of H of
the last of them (05 R111). -/
def showEvtOut (s : State) : State :=
  let d := s.dunlin
  let edge := fun (i at' : Nat) (v : Bool) =>
    let ph := edgePhase s (s.heron.acc - at') (beneathInc s)
    emit (.edge (ph / 8) (ph % 8) (.evtOut i) (bitW v 1))
  let s := if d.evtOut0 != d.evtShown0 then edge 0 d.evtAt0 d.evtOut0 s else s
  let s := if d.evtOut1 != d.evtShown1 then edge 1 d.evtAt1 d.evtOut1 s else s
  { s with dunlin := { s.dunlin with evtShown0 := d.evtOut0, evtShown1 := d.evtOut1 } }

/-- The records of a copy that are due at an offset, from its next record on, in list order. -/
def dueEvents (c : HeronCopy) (off : Nat) : List (Nat × EventsRec) :=
  (c.events.filter (fun x => decide (c.nextEvent ≤ x.1))).takeWhile (fun x => decide (x.2.offset ≤ off))

/-- The records that a copy fires at an offset, in list order: those due, changed by the upsets of its output. -/
def firesAt (c : HeronCopy) (off : Nat) : List Nat :=
  let due := (dueEvents c off).map (·.1)
  rising (fun i j => decide (i ≤ j)) (due.filter (fun i => !c.firedFlip.contains i) ++
    c.firedFlip.filter (fun i => !due.contains i))

/-- A copy's own record of what it fires. -/
def noteFired (off : Nat) (c : HeronCopy) : HeronCopy :=
  { c with fired := c.fired ++ firesAt c off, firedFlip := []
           nextEvent := match (dueEvents c off).getLast? with | some x => x.1 + 1 | none => c.nextEvent }

/-- The majority of three records, field by field, each field bitwise. -/
def majRecord (a b c : EventsRec) : EventsRec :=
  eventsOf (leBytes 8 (maj3 (leNat (eventsBytes a)) (leNat (eventsBytes b)) (leNat (eventsBytes c))))

/-- The record a copy holds under a key, a blank one where it holds none. -/
def copyRecord (c : HeronCopy) (i : Nat) : EventsRec :=
  mGetD c.events i { offset := 0, id := 0, patn := false, out0 := 0, out1 := 0 }

/-- The records that a copy fires, with their keys. -/
def firedBy (c : HeronCopy) (off : Nat) : List (Nat × EventsRec) := (firesAt c off).map (fun i => (i, copyRecord c i))

/-- The records that fire: what two of three live copies fire, what two live copies agree on, what the one
live copy fires (06 R128, R129). -/
def firingRecords (s : State) (off : Nat) : List EventsRec :=
  match liveCopies s with
  | [a, b, c] =>
    let ks := fun (x : HeronCopy) => firesAt x off
    let all := s.heron.copyA.events.map (·.1) ++ s.heron.copyB.events.map (·.1) ++ s.heron.copyC.events.map (·.1)
    let keys := rising (fun i j => decide (i ≤ j)) (all.eraseDups.filter (fun i =>
      decide (2 ≤ bitW ((ks a).contains i) 1 + bitW ((ks b).contains i) 1 + bitW ((ks c).contains i) 1)))
    keys.map (fun i => majRecord (copyRecord a i) (copyRecord b i) (copyRecord c i))
  | [a, b] => if firedBy a off = firedBy b off then (firedBy a off).map (·.2) else []
  | [a] => (firedBy a off).map (·.2)
  | _ => []

/-- Two live copies fire different sets at an offset (06 R129). -/
def firedDiffer (s : State) (off : Nat) : Bool :=
  match liveCopies s with
  | [a, b] => firedBy a off != firedBy b off
  | _ => false

/-- Enter SAFE, once, with the dispute of its vote (06 R129; 15 R335). -/
def enterSafe (mask detail : Nat) (s : State) : State :=
  if s.heron.safe then s
  else endPauses (logFault 2 mask detail (bumpDev 2 { s with heron := { s.heron with safe := true } }))

/-- The events due at an offset fire, unless `go` is false: the two live copies differ in this ck (06 R125, R129). -/
def fireDue (go : Bool) (off : Nat) (s : State) : State :=
  let l := if go then firingRecords s off else []
  let s := whenB (firedDiffer s off) (fun s => whenB go (bumpDev 3) (enterSafe (liveMask s) 4 s)) s
  fireRecords l (setCopies (noteFired off) s)

/-- What Heron does in one ck, by `f`: where two live copies fire different sets at one of its offsets, no event of
the ck fires, and the ck is counted once (06 R129). -/
def inOneCk (f : Bool → State → State) (s : State) : State :=
  let t := f true s
  if readCtr t 0x20 0 3 = readCtr s 0x20 0 3 then t else bumpDev 3 (f false s)

/-! ### Gate entries (06 R119) -/

/-- The entries of a port in a copy's table, in order. -/
def copyGates (c : HeronCopy) (p : Nat) : List GatesRec :=
  (c.gates.filter (fun x => x.1 / 1024 == p)).map (·.2)

/-- The index of the entry whose interval holds an offset, counted from entry `k` at offset `at'`. -/
def entryAt : List GatesRec → Nat → Nat → Nat → Nat
  | [], _, k, _ => k - 1
  | g :: r, off, k, at' => if off < at' + g.interval then k else entryAt r off (k + 1) (at' + g.interval)

/-- A copy takes the entry of a port that an offset calls for; an empty list leaves every gate open. -/
def takeGate (p off : Nat) (c : HeronCopy) : HeronCopy :=
  let g := copyGates c p
  let k := entryAt g off 0 0
  { c with
    entry := c.entry.set p k
    vector := c.vector.set p (match g[k]? with | some r => r.vector | none => 0xFF)
    hold := c.hold.set p (match g[k]? with | some r => r.hold | none => false) }

/-- An entry of port p is due in some copy at an offset. -/
def gateDue (s : State) (p off : Nat) : Bool :=
  (copies s).any (fun c => c.entry.getD p 0 != entryAt (copyGates c p) off 0 0)

/-- The entries of port p at an offset take effect in every copy. -/
def takeGates (p off : Nat) (s : State) : State := setCopies (takeGate p off) s

/-! ### The vote (06 R127 to R129) -/

/-- A copy's outputs in the order of 15 R335: output code, port, value. -/
def outputs (c : HeronCopy) : List (Nat × Nat × Nat) :=
  (List.range 4).map (fun p => (0, p, (c.vector.getD p 0xFF).toNat)) ++
  (List.range 4).map (fun p => (1, p, bitW (c.hold.getD p false) 1)) ++
  (List.range 4).map (fun p => (2, p, c.entry.getD p 0)) ++
  [(3, 0, c.nextEvent), (4, 0, c.fired.foldl setBit 0)]

/-- A table word as stored: gate lists of ports 0 to 3, the event list, then their shadows; an unused entry's word
is zero but for its upsets. -/
def tableWord (c : HeronCopy) (w : Nat) : Nat :=
  let g := if w < 5120 then c.gates else c.shadowGates
  let e := if w < 5120 then c.events else c.shadowEvents
  let i := w % 5120
  (if i < 4096 then (match mFind g i with | some r => 2 ^ 64 + leNat (gatesBytes r) | none => 0)
   else (match mFind e (i - 4096) with | some r => 2 ^ 64 + leNat (eventsBytes r) | none => 0)) ^^^ mGetD c.flips w 0

/-- The table word that the background comparator reads in this ck (06 R127). DESIGN CHOICE (log entry 43): the spec
gives a pass of 10,240 ck but neither its order nor its phase; the model reads word now mod 10,240, ports 0 to 3,
then the event list, then the shadows in the same order. -/
def comparatorWord (s : State) : Nat := s.now % 10240

/-- What a copy shows the comparators in this ck: its outputs and one table word. -/
def shown (s : State) (c : HeronCopy) : List (Nat × Nat × Nat) :=
  outputs c ++ [(5, 0, tableWord c (comparatorWord s))]

/-- The detail field of a dispute (15 R335). -/
def disputeDetail (s : State) (x : Nat × Nat × Nat) : Nat :=
  x.1 + x.2.1 * 8 + (if x.1 = 5 then comparatorWord s * 256 else 0)

/-- The first of two lists of outputs that differ, in the order of R335. -/
def firstDiffer : List (Nat × Nat × Nat) → List (Nat × Nat × Nat) → Option (Nat × Nat × Nat)
  | a :: l, b :: m => if a.2.2 = b.2.2 then firstDiffer l m else some a
  | _, _ => none

def majShown (a b c : List (Nat × Nat × Nat)) : List (Nat × Nat × Nat) :=
  (a.zip (b.zip c)).map (fun x => (x.1.1, x.1.2.1, maj3 x.1.2.2 x.2.1.2.2 x.2.2.2.2))

/-- A copy out of the comparison. -/
def fenced (h : Heron) (i : Nat) : Heron :=
  match i with
  | 0 => { h with copyA := { h.copyA with live := false } }
  | 1 => { h with copyB := { h.copyB with live := false } }
  | _ => { h with copyC := { h.copyC with live := false } }

/-- Fence a copy with its dispute: entry, count, the copy out of the comparison until reset (06 R128). -/
def fenceCopy (mask : Nat) (i : Nat) (d : Option Nat) (s : State) : State :=
  match d with
  | none => s
  | some detail =>
    logFault 1 mask detail (bumpDev 1 { s with heron := fenced s.heron i })

/-- The lower of two disputes by output code, then port. -/
def lowerDispute : Option (Nat × Nat × Nat) → Option (Nat × Nat × Nat) → Option (Nat × Nat × Nat)
  | none, y => y
  | x, none => x
  | some x, some y => if y.1 * 8 + y.2.1 < x.1 * 8 + x.2.1 then some y else some x

/-- The vote of one ck: three live copies fence the minority, two that disagree enter SAFE. -/
def vote (s : State) : State :=
  let mask := liveMask s
  match liveCopies s with
  | [a, b, c] =>
    let m := majShown (shown s a) (shown s b) (shown s c)
    let da := firstDiffer (shown s a) m
    let db := firstDiffer (shown s b) m
    let dc := firstDiffer (shown s c) m
    let t := fenceCopy mask 2 (dc.map (disputeDetail s)) (fenceCopy mask 1 (db.map (disputeDetail s))
      (fenceCopy mask 0 (da.map (disputeDetail s)) s))
    match lowerDispute da (lowerDispute db dc) with
    | some x => if (liveCopies t).length < 2 then enterSafe mask (disputeDetail s x) t else t
    | none => t
  | [a, b] =>
    match firstDiffer (shown s a) (shown s b) with
    | some x => enterSafe mask (disputeDetail s x) s
    | none => s
  | _ => s

/-! ### What a cycle boundary does besides Heron's own steps -/

/-- The host's word W, 8 where the field is 0 (10 R241). -/
def watchdogWindow (s : State) : Nat :=
  let w := (s.station.hbWindow &&& 0xFF).toNat
  if w = 0 then 8 else w

/-- Set the stale bit of every outbound region (10 R241). -/
def staleOutbound (v : Bool) (s : State) : State :=
  each s.tables.pimap (fun x s =>
    if x.2.kind = 1 then setRegion s x.1 { region s x.1 with stale := v } else s) s

/-- HEARTBEAT has changed: the outbound stale bits clear, but of a region that a commit has changed since the last
boundary, which starts stale (10 R241, R249; notes/assumptions/45.md). -/
def clearOutbound (s : State) : State :=
  each s.tables.pimap (fun x s =>
    if x.2.kind = 1 && !(region s x.1).fresh then setRegion s x.1 { region s x.1 with stale := false } else s) s

/-- A boundary has passed since the last commit's changes. -/
def settleRegions (s : State) : State :=
  { s with regions := s.regions.map (fun x => (x.1, { x.2 with fresh := false })) }

/-- The watchdog's comparison at a boundary (10 R241). -/
def watchdog (s : State) : State :=
  let st := s.station
  if st.heartbeat = st.lastHeartbeat then
    let m := min 255 (st.wdMiss + 1)
    let s := { s with station := { st with wdMiss := m } }
    if watchdogWindow s ≤ m ∧ !st.wdExp then
      logFault 0x60 0 0 (bumpDev 23 (staleOutbound true
        { s with station := { s.station with wdExp := true } }))
    else s
  else
    clearOutbound { s with station := { st with wdMiss := 0, lastHeartbeat := st.heartbeat, wdExp := false } }

/-- The boundary ck ends: the watchdog reads HEARTBEAT as it stands at the end of it (10 R241). -/
def settleWatchdog (s : State) : State :=
  if s.station.wdDue then settleRegions (watchdog { s with station := { s.station with wdDue := false } }) else s

/-- Unbanked inbound regions: stale unless every feeding channel completed in the ending cycle (10 R239). -/
def unbankedStale (s : State) : State :=
  each s.tables.pimap (fun x s =>
    if x.2.kind = 0 && !x.2.banked then
      let f := feeders s x.1
      let r := region s x.1
      setRegion s x.1 { r with stale := f.isEmpty || !(f.all (fun c => r.fed0.contains c)), fed0 := [] }
    else s) s

/-- Action 0 messages held when Avocet halts are discarded (12 R282). -/
def haltDiscard (s : State) : State :=
  each (List.range 32) (fun k => each (List.range 8) (fun v s =>
    let x := vc s k v
    let ms := x.rxMsgs.filter (fun m => m.action == 0) ++ (x.rxOpen.filter (fun m => m.action == 0)).toList
    let s := setVc s k v { x with rxMsgs := x.rxMsgs.filter (fun m => m.action != 0),
                                  rxOpen := x.rxOpen.filter (fun m => m.action != 0) }
    each ms (fun m s => freeMsg k v m (bumpBy 0x28 (8 * k + v) 7 m.packets s)) s)) s

/-- Rewrite as zero the faulting words that are still in error (11 R267, 15 R329). -/
def scrubWords (s : State) : State :=
  let bad := s.avocet.faultWords.filter (fun w =>
    decide (2 ≤ (mGetD s.upsets (upsetKey .processImage 0 w) []).length))
  { each bad (fun w s => setSram w 0 s) s with
    upsets := s.upsets.filter (fun x => !bad.any (fun w => upsetKey .processImage 0 w == x.1)) }

/-- No message counts as taken by a channel: a restart triggers on every complete message (11 R267). -/
def forgetTaken (s : State) : State :=
  { s with vcs := s.vcs.map (fun e =>
      (e.1, { e.2 with rxMsgs := e.2.rxMsgs.map (fun m => { m with taken := [] }) })) }

/-- Avocet at a boundary (11 R267, R268): three cycles in a row with errors halt it, any other stop ends
here, and a halt ends at the boundary after the epoch of a DMAPROG commit; `due` says that the epoch lay at an
earlier boundary. -/
def avocetBoundary (due : Bool) (s : State) : State :=
  let a := s.avocet
  let n := if a.errNow then a.errCycles + 1 else 0
  let s := { s with avocet := { a with errNow := false, errCycles := n, dmaCommit := a.dmaCommit && !due } }
  if !a.stopped then s
  else if a.halted then
    if due then
      startAvocet (forgetTaken { s with
        avocet := { s.avocet with halted := false, errCycles := 0, faultWords := [] }
        counters := mSet s.counters (ctrId 0x20 0 32) 0 })
    else s
  else if 3 ≤ n then
    haltDiscard (logFault 0x51 0 0 { s with
      avocet := { s.avocet with halted := true }
      counters := mSet s.counters (ctrId 0x20 0 32) 1 })
  else
    let s := scrubWords s
    startAvocet (forgetTaken { s with avocet := { s.avocet with faultWords := [] } })

end Sys2Proof.Machine
end

