-- ==== Sys2Proof/Machine/ImageCheck.lean ====
section
/-!
DEFINITION. The checks on an image and on a set of tables: the slot checks in their order (03 R52, R55;
04 R65 to R94), the cross-checks of R72 with 11 R253 and 12 R272, shared with COMMIT (13 R293).
-/
namespace Sys2Proof.Machine

/-! ### Cross-checks on tables: the failing object's class and instance (13 R290) -/

/-- Sections of several records whose every record passes a test; else the first that fails. -/
def firstBad {α : Type} (cls : Nat) (m : SMap α) (ok : Nat → α → Bool) : List (Nat × Nat) :=
  match m.find? (fun x => !ok x.1 x.2) with
  | some x => [(cls, x.1)]
  | none => []

/-- A port's GATES intervals sum to the cycle, or the port has none (04 R72, R76). -/
def gatesBad (t : Tables) : List (Nat × Nat) :=
  (List.range 4).filterMap (fun p =>
    let g := gateList t p
    if g.isEmpty || (g.map (fun r => r.interval)).sum == t.time.cycle then none else some (0x05, p * 1024))

/-- Every EVENTS offset lies below the cycle and not below the one before it. -/
def eventsBad : Nat → Nat → SMap EventsRec → List (Nat × Nat)
  | _, _, [] => []
  | cycle, last, (i, r) :: m =>
    if cycle ≤ r.offset ∨ r.offset < last then [(0x06, i)] else eventsBad cycle r.offset m

def listenRefOk (t : Tables) (r : ListenRec) : Bool :=
  (r.meter == 0xFFFF || (mFind t.police r.meter).isSome) &&
  (r.recovery == 0xFFFF || (mFind t.frer r.recovery).isSome)

/-- A VCMAP tunnel on a link of the plan names a cut-through stream (04 R72). -/
def vcmapRefOk (s : State) (t : Tables) (r : VcmapRec) : Bool :=
  !(inPlan s r.link) || r.action != 1 ||
    (match mFind t.streams r.queue with | some q => q.cutThrough | none => false)

/-- The VCMAP record at which the lane receive pool is exhausted (04 R72). -/
def poolBad (s : State) : Nat → SMap VcmapRec → List (Nat × Nat)
  | _, [] => []
  | n, (i, r) :: m =>
    let n' := if inPlan s r.link then n + r.units else n
    if 16384 < n' then [(0x0D, i)] else poolBad s n' m

/-- The areas of a region: first word and words. -/
def areas (r : PimapRec) : List (Nat × Nat) :=
  if r.banked then [(r.base, r.len), (r.base1, r.len)] else [(r.base, r.len)]

def apart (a b : Nat × Nat) : Bool := decide (a.1 + a.2 ≤ b.1) || decide (b.1 + b.2 ≤ a.1)

/-- PIMAP areas overlap no earlier area and stay below the station block (04 R72). -/
def pimapBad : List (Nat × Nat) → SMap PimapRec → List (Nat × Nat)
  | _, [] => []
  | seen, (i, r) :: m =>
    let own := areas r
    let selfOk := !r.banked || apart (r.base, r.len) (r.base1, r.len)
    if selfOk && own.all (fun a => decide (a.1 + a.2 ≤ 0xFFC0) && seen.all (apart a))
    then pimapBad (own ++ seen) m else [(0x0E, i)]

/-- A word may be written by Avocet: inbound or scratch (10 R235, 11 R256). -/
def avocetWritable (t : Tables) (w : Nat) : Bool :=
  decide (w < 0xFFC0) && (t.pimap.all (fun x =>
    x.2.kind != 1 || (areas x.2).all (fun a => !(decide (a.1 ≤ w) && decide (w < a.1 + a.2)))))

def overlaps (a : Nat × Nat) (w n : Nat) : Bool := decide (a.1 < w + n) && decide (w < a.1 + a.2)

/-- Words w to w + n - 1 may all be written by Avocet. -/
def avocetWritableRange (t : Tables) (w n : Nat) : Bool :=
  decide (w + n ≤ 0xFFC0) && t.pimap.all (fun x => x.2.kind != 1 || (areas x.2).all (fun a => !overlaps a w n))

def runOf (dst : Nat) (lo : Nat) (w : Nat) : Nat := bitsOf dst lo w + 1

/-- The source lies inside its space (11 R256). -/
def srcInside (s : State) (t : Tables) (r : DmaRec) : Bool :=
  match r.srcSpace with
  | 0 => decide (bitsOf r.src 0 18 + r.count ≤ 2 ^ 18)
  | 1 => bitsOf r.src 24 6 == 0 &&
    (match mFind t.listen (bitsOf r.src 14 10) with
     | some l => l.delivery == 0 && decide (bitsOf r.src 0 14 + r.count ≤ l.maxFrame)
     | none => false)
  | 2 => !(inPlan s (bitsOf r.src 0 5)) ||
    (match mFind t.vcmap (8 * bitsOf r.src 0 5 + bitsOf r.src 5 3) with
     | some v => v.action == 0 | none => false)
  | _ => decide (bitsOf r.src 0 16 + r.count ≤ 65536)

/-- The destination lies inside its space, its run inside the streams or links there are (11 R253, R256). -/
def dstInside (t : Tables) (r : DmaRec) : Bool :=
  match r.dstSpace with
  | 0 =>
    let a := bitsOf r.dst 0 18
    decide (a + r.count ≤ 2 ^ 18) && avocetWritableRange t (a / 4) (cdiv (a + r.count) 4 - a / 4)
  | 1 =>
    let first := bitsOf r.dst 14 10
    let n := runOf r.dst 24 6
    (List.range n).all (fun i => match mFind t.streams (first + i) with
      | some q => decide (bitsOf r.dst 0 14 + r.count / n ≤ q.maxFrame) | none => false)
  | _ => decide (bitsOf r.dst 0 5 + runOf r.dst 8 5 ≤ 32)

def srcOffset (r : DmaRec) : Nat :=
  match r.srcSpace with
  | 0 => bitsOf r.src 0 18 | 1 => bitsOf r.src 0 14 | 2 => bitsOf r.src 8 16 | _ => bitsOf r.src 0 16

def dstOffset (r : DmaRec) : Nat := match r.dstSpace with | 0 => bitsOf r.dst 0 18 | 1 => bitsOf r.dst 0 14 | _ => 0

/-- The run of streams or links of a destination; 1 in the process image. -/
def dstRun (r : DmaRec) : Nat :=
  match r.dstSpace with | 1 => runOf r.dst 24 6 | 2 => runOf r.dst 8 5 | _ => 1

/-- The DMAPROG conditions of 11 R253. -/
def dmaRefOk (s : State) (t : Tables) (r : DmaRec) : Bool :=
  let wide := max (2 ^ r.sw) (2 ^ r.dw)
  (r.trig != 0 || decide (r.channel < 32)) &&
  (32 ≤ r.channel || r.next == 255 || (mFind t.dma (16 * r.channel + r.next)).isSome) &&
  srcOffset r % 2 ^ r.sw == 0 && dstOffset r % 2 ^ r.dw == 0 && r.count % wide == 0 &&
  r.count % (dstRun r * wide) == 0 && srcInside s t r && dstInside t r

/-- What fails when a set of tables is put in force: objects in ascending class, then instance; the
shared pool of 12 R272 names none. -/
def crossBad (s : State) (t : Tables) : List (Nat × Nat) :=
  gatesBad t ++ eventsBad t.time.cycle 0 t.events ++ firstBad 0x08 t.listen (fun _ r => listenRefOk t r) ++
    firstBad 0x0D t.vcmap (fun _ r => vcmapRefOk s t r) ++ poolBad s 0 t.vcmap ++ pimapBad [] t.pimap ++
    firstBad 0x0F t.dma (fun _ r => dmaRefOk s t r) ++
    (if 24576 < reservedCells s t + 1024 then [(0xFF, 0)] else [])

/-! ### Sections of an image -/

structure DirEntry where
  typ : Nat
  version : Nat
  flags : Nat
  off : Nat
  count : Nat
  size : Nat
deriving DecidableEq, Repr

def dirEntryOf (b : List Byte) : DirEntry :=
  { typ := fld b 0 1, version := fld b 1 1, flags := fld b 2 1, off := fld b 4 4, count := fld b 8 4,
    size := fld b 12 2 }

def DirEntry.bytes (e : DirEntry) : Nat := e.count * e.size

def directory (b : List Byte) : List DirEntry :=
  (List.range (fld b 20 2)).map (fun i => dirEntryOf (slice b (fld b 16 4 + 16 * i) 16))

/-- Record size, least and greatest record count of a known section type (04 R70). -/
def sectionShape : Nat → Option (Nat × Nat × Nat)
  | 1 => some (72, 1, 1) | 2 => some (24, 4, 4) | 3 => some (48, 1, 1) | 4 => some (8, 0, 4096)
  | 5 => some (8, 0, 1024) | 6 => some (64, 0, 1024) | 7 => some (16, 0, 1024) | 8 => some (32, 0, 2048)
  | 9 => some (16, 0, 1024) | 10 => some (8, 0, 1024) | 11 => some (16, 0, 32) | 12 => some (16, 0, 256)
  | 13 => some (16, 0, 64) | 14 => some (32, 0, 544) | 15 => some (1168, 0, 1) | 16 => some (32, 2, 257)
  | 17 => some (8, 0, 1) | 18 => some (16, 0, 1)
  | 32 => some (1, 0, 2 ^ 32 - 1)
  | _ => none

/-- The record numbers and records of a section, cut to the version 1 size (04 R71). -/
def records (b : List Byte) (e : DirEntry) : List (List Byte) :=
  match sectionShape e.typ with
  | some (n, _, _) =>
    if e.typ = 32 then [] else (List.range e.count).map (fun i => slice b (e.off + i * e.size) n)
  | none => []

def sectionOf (b : List Byte) (d : List DirEntry) (typ : Nat) : List (List Byte) :=
  match d.find? (fun e => e.typ == typ) with | some e => records b e | none => []

/-- A record's fields lie in their ranges; `i` is its number in its section (04 R72). -/
def recordOk (typ i : Nat) (b : List Byte) : Bool :=
  match typ with
  | 1 => identOk (identOf b) | 2 => portsOk (portsOf b) | 3 => timeOk (timeOf b) | 4 => gatesOk (gatesOf b)
  | 5 => eventsOk (eventsOf b) | 6 => streamsOk (streamsOf b) | 7 => listenOk (listenOf b)
  | 8 => filtersOk (filtersOf b) | 9 => policeOk (policeOf b) | 10 => frerOk (frerOf b)
  | 11 => lanesOk (lanesOf b) | 12 => vcmapOk (vcmapOf b) | 13 => pimapOk (pimapOf b)
  | 14 => dmaOk (dmaOf b) | 15 => powerOk (powerOf b) | 16 => i != 0 || mgmtOk (mgmtOf b)
  | 18 => calOk (calOf b)
  | _ => true

/-- GATES records numbered within their port (04 R76). -/
def gateKeys : (Nat → Nat) → List (List Byte) → List Nat
  | _, [] => []
  | seen, b :: r =>
    let p := (gatesOf b).port
    (p * 1024 + seen p) :: gateKeys (fun q => if q = p then seen q + 1 else seen q) r

/-- The table keys of a section's records, in record order: their own key fields, or their numbers. -/
def recordKeys (typ : Nat) (rs : List (List Byte)) : List Nat :=
  match typ with
  | 4 => gateKeys (fun _ => 0) rs
  | 6 => rs.map (fun b => (streamsOf b).queue)
  | 7 => rs.map (fun b => (listenOf b).stream)
  | 11 => rs.map (fun b => (lanesOf b).link)
  | 12 => rs.map (fun b => 8 * (vcmapOf b).link + (vcmapOf b).vc)
  | 14 => rs.map (fun b => 16 * (dmaOf b).channel + (dmaOf b).index)
  | _ => List.range rs.length

/-- The first record whose key an earlier record of its section has (04 R72, uniqueness). -/
def firstTwin : List Nat → List Nat → Nat → Option Nat
  | _, [], _ => none
  | seen, k :: r, i => if seen.contains k then some i else firstTwin (k :: seen) r (i + 1)

def uniqueKeys (typ : Nat) (rs : List (List Byte)) : List Nat :=
  if typ = 16 then (rs.drop 1).map (fun b => (keyOf b).serial.toNat)
  else if typ = 6 ∨ typ = 7 ∨ typ = 11 ∨ typ = 12 then recordKeys typ rs
  else []

/-- The first record of a section that fails its own checks: range, uniqueness, entries per port. -/
def sectionBad (b : List Byte) (e : DirEntry) : Option Nat :=
  let rs := records b e
  match findIx (fun x => !recordOk e.typ x.1 x.2) ((List.range rs.length).zip rs) 0 with
  | some i => some i
  | none =>
    match firstTwin [] (uniqueKeys e.typ rs) 0 with
    | some i => some (if e.typ = 16 then i + 1 else i)
    | none =>
      if e.typ = 4 then
        firstBelow rs.length (fun i =>
          decide (1024 ≤ ((rs.take i).filter (fun x => (gatesOf x).port == (gatesOf (rs.getD i [])).port)).length))
      else none

/-- Sections lie apart, inside the image, on multiples of 8 (04 R65, R72). -/
def placeOk (b : List Byte) (d : List DirEntry) (i : Nat) (e : DirEntry) : Bool :=
  e.off % 8 == 0 && decide (fld b 16 4 + 16 * fld b 20 2 ≤ e.off) &&
  decide (e.off + e.bytes ≤ b.length - 160) &&
  (d.take i).all (fun x => x.bytes == 0 || e.bytes == 0 || apart (x.off, x.bytes) (e.off, e.bytes))

/-- A directory entry passes R70, R71, R92 and its counts. An optional section's entry that counts no record is judged
by these too, though its section is as if absent (R98; DESIGN CHOICE, notes/assumptions/42.md). -/
def entryOk (b : List Byte) (d : List DirEntry) (i : Nat) (e : DirEntry) : Bool :=
  placeOk b d i e &&
  (match sectionShape e.typ with
   | some (n, lo, hi) =>
     e.version != 0 && decide (n ≤ e.size) && (e.typ != 32 || e.size == 1) && within lo hi e.count &&
     !((d.take i).any (fun x => x.typ == e.typ))
   | none => hasBit e.flags 0)

def keyed {α : Type} (typ : Nat) (rs : List (List Byte)) (f : List Byte → α) : SMap α :=
  ((recordKeys typ rs).zip rs).foldl (fun m x => mSet m x.1 (f x.2)) []

/-- The tables of an image (04 R73 to R91). Records of links beyond the plan are ignored (R83, R84). -/
def tablesOf (s : State) (b : List Byte) (d : List DirEntry) : Tables :=
  let sec := sectionOf b d
  { ident := (sec 1).head?.map identOf
    time := match (sec 3).head? with | some r => timeOf r | none => noTime
    ports := keyed 2 (sec 2) portsOf
    gates := keyed 4 (sec 4) gatesOf
    events := keyed 5 (sec 5) eventsOf
    streams := keyed 6 (sec 6) streamsOf
    listen := keyed 7 (sec 7) listenOf
    filters := keyed 8 (sec 8) filtersOf
    police := keyed 9 (sec 9) policeOf
    frer := keyed 10 (sec 10) frerOf
    lanes := (keyed 11 (sec 11) lanesOf).filter (fun x => inPlan s x.1)
    vcmap := (keyed 12 (sec 12) vcmapOf).filter (fun x => inPlan s (x.1 / 8))
    pimap := keyed 13 (sec 13) pimapOf
    dma := keyed 14 (sec 14) dmaOf
    power := (sec 15).head?.map powerOf
    netTol := match (sec 15).head? with | some r => (powerOf r).netTol | none => 0xFFFFFFFF
    mgmt := (sec 16).head?.map mgmtOf
    safe := (sec 17).head?.map safeOf
    cal := (sec 18).head?.map calOf }

/-- The section type of an object class (13 R290). -/
def classSection (cls : Nat) : Nat := if cls = 3 then 3 else if cls = 4 then 2 else if cls = 0x14 then 1 else cls - 1

/-- The structure check (04 R72): the directory entry and record at which it fails, or none. -/
def structureBad (s : State) (b : List Byte) : Option (Nat × Nat) :=
  let dirOff := fld b 16 4
  let n := fld b 20 2
  if dirOff < 64 ∨ dirOff % 8 ≠ 0 ∨ n = 0 ∨ 32 < n ∨ b.length - 160 < dirOff + 16 * n then some (0, 0)
  else
    let d := directory b
    match findIx (fun x => !entryOk b d x.1 x.2) ((List.range d.length).zip d) 0 with
    | some i => some (i, 0)
    | none =>
      if !([1, 2, 3, 16].all (fun t => d.any (fun e => e.typ == t))) then some (d.length, 0)
      else
        match ((List.range d.length).zip d).findSome? (fun x => (sectionBad b x.2).map (fun r => (x.1, r))) with
        | some x => some x
        | none =>
          match crossBad s (tablesOf s b d) with
          | [] => none
          | (cls, k) :: _ =>
            let typ := classSection cls
            let i := (findIx (fun e => e.typ == typ) d 0).getD 0
            some (i, (findIx (· == k) (recordKeys typ (sectionOf b d typ)) 0).getD 0)

/-! ### The slot checks in their order (03 R52) -/

/-- An unwritten flash byte reads erased. -/
def flashByte (r : SlotRead) (i : Nat) : Byte := r.bytes.getD i 0xFF

/-- The first `n` bytes were read consistently. -/
def readOk (r : SlotRead) (n : Nat) : Bool := !r.broken || decide (n ≤ r.bytes.length)

def otpHash (o : OtpBits) (k : Nat) : BitVec 256 :=
  match k with | 0 => o.hash0 | 1 => o.hash1 | 2 => o.hash2 | _ => o.hash3

/-- The key-slot check (04 R93). -/
def keySlotOk (o : OtpBits) (block : List Byte) : Bool :=
  let k := fld block 0 1
  decide (k ≤ 3) && o.programmed.getLsbD k && !o.revoked.getLsbD k &&
    sha256 (slice block 32 64) == otpHash o k

/-- The signature check (04 R94). -/
def signatureOk (b block : List Byte) : Bool :=
  let r := beNat (slice block 96 32)
  let v := beNat (slice block 128 32)
  r != 0 && v != 0 && decide (r < p256Order) && decide (v < p256Order) &&
    ecdsaVerify (slice block 32 64) (sha256 (b.take (b.length - 64))) (slice block 96 64)

/-- A requirement is padding, or the chain holds it at its version or above (03 R55). -/
def requirementMet (s : State) (q : Nat) : Bool :=
  q / 16 == 0 || (capabilities s).any (fun c => c.1 == q / 16 && decide (q % 16 ≤ 1))

/-- The IDENT binding (04 R73). -/
def identityOk (s : State) (r : IdentRec) : Bool :=
  let sid := stationId s
  match r.mode with
  | 0 => true
  | 1 => sid == r.expected
  | 2 => (sid &&& r.mask) == (r.expected &&& r.mask)
  | _ => sid != 0xFF

/-- The outcome of a slot's checks: result code, image, failing entry and record of the structure check. -/
structure SlotResult where
  code : Nat
  image : Option Image
  entry : Nat
  record : Nat
deriving DecidableEq, Repr

def slotFails (code : Nat) : SlotResult := { code := code, image := none, entry := 0, record := 0 }

def ignoredSections (d : List DirEntry) : Nat :=
  (d.filter (fun e => (sectionShape e.typ).isNone)).length

/-- LANES and VCMAP records of links beyond the plan (04 R83, R84). -/
def absentRecords (s : State) (b : List Byte) (d : List DirEntry) : Nat :=
  ((recordKeys 11 (sectionOf b d 11)).filter (fun k => !inPlan s k)).length +
    ((recordKeys 12 (sectionOf b d 12)).filter (fun k => !inPlan s (k / 8))).length

def imageOf (s : State) (b block : List Byte) : Image :=
  let d := directory b
  { version := fld b 12 4, keySlot := fld block 0 1, revoke := fld block 1 1 % 16,
    ignored := ignoredSections d, linkAbsent := absentRecords s b d, tables := tablesOf s b d,
    keys := ((sectionOf b d 16).drop 1).map keyOf }

/-- Checks 4 to 9 of R52 on an image's bytes. -/
def checkImage (s : State) (b : List Byte) : SlotResult :=
  let block := b.drop (b.length - 160)
  if !keySlotOk s.otp block then slotFails 0x5
  else if !signatureOk b block then slotFails 0x4
  else if fld b 12 4 < otpFloor s.otp then slotFails 0x6
  else
    match structureBad s b with
    | some x => { code := 0x8, image := none, entry := x.1, record := x.2 }
    | none =>
      let i := imageOf s b block
      match i.tables.ident with
      | none => slotFails 0x8
      | some r =>
        if !(r.reqs.all (requirementMet s)) then slotFails 0x7
        else if !identityOk s r then slotFails 0x9
        else { code := 0, image := some i, entry := 0, record := 0 }

/-- Checks 1 to 9 of R52 on what a slot read returned; an absent slot B carries 0x1 unread (R49). -/
def checkSlot (s : State) (r : SlotRead) : SlotResult :=
  if !r.answers || !readOk r 64 then slotFails 0x3
  else
    let h := (List.range 64).map (flashByte r)
    if slice h 0 4 ≠ [0x4F, 0x43, 0x5A, 0x4C] ∨ fld h 4 2 ≠ 1 ∨ fld h 6 2 ≠ 64 then slotFails 0x1
    else
      let units := fld h 8 4
      if units = 0 ∨ 16384 < units then slotFails 0x2
      else if !readOk r (256 * units) then slotFails 0x3
      else checkImage s ((List.range (256 * units)).map (flashByte r))

end Sys2Proof.Machine
end

