-- ==== Sys2Proof/Machine/PortOps.lean ====
section
/-!
DEFINITION. Operations on Ethernet ports that several commands share: going down (07 R168, R169), coming
up (R170), verification (R150), and PHY management over MDIO (R171, R172).
-/
namespace Sys2Proof.Machine

/-- A queued copy whose stream has another live member (07 R169). -/
def hasOtherLive (s : State) (p : Nat) (f : Frame) : Bool :=
  match f.stream with
  | some q => match mFind s.tables.streams q with | some r => otherLive s r p | none => false
  | none => false

/-- Discard the queued copies of a class that another live member carries (07 R169). -/
def discardCovered (p c : Nat) (s : State) : State :=
  let q := classQueue s p c
  let gone := q.filter (hasOtherLive s p)
  let s := setClassQueue s p c (q.filter (fun f => !hasOtherLive s p f))
  each gone (fun f s => releaseFrame f (bumpCopy (f.stream.getD 0) p 4 s)) s

/-- A reassembly in progress is given up: its cells are freed, and it is counted under a counter of the port. -/
def dropReasm (p n : Nat) (s : State) : State :=
  match (port s p).reasm with
  | some r =>
    freeCells (some (8 * p + r.cls)) r.cells (bumpPort p n (setPort s p { port s p with reasm := none }))
  | none => s

/-- A port goes down (07 R168, R169): frames on the wire abandoned, covered copies discarded, pre-emption
and pause cleared, a frame that is coming in dropped as a code error. -/
def portGoesDown (p : Nat) (s : State) : State :=
  if !(port s p).up then s
  else
    let x := port s p
    let onWire := (match x.tx with | some t => [t.frame] | none => []) ++
      (match x.preempted with | some y => [y.2] | none => [])
    let s := dropReasm p 3 s
    let s := setPort s p { port s p with up := false, live := false, holdEnd := none, verify := .idle, tx := none,
                                         preempted := none, control := [], smdFrag := 0,
                                         pausedUntil := List.replicate 8 0,
                                         pfcOn := List.replicate 8 false, pfcDue := List.replicate 8 0 }
    let s := each onWire (fun f s => releaseFrame f (bumpPort p 11 s)) s
    bumpPort p 9 (each (List.range 8) (discardCovered p) s)

/-- A port's link criteria hold again (07 R170): counted, the link-up hold starts, receive resumes. -/
def portComesUp (p : Nat) (s : State) : State :=
  let x := port s p
  let hold := match portsRec s p with | some r => r.holdUs | none => 0
  let unverified := match portsRec s p with | some r => r.preempt && !r.verification | none => false
  let s := drawFree (setPort s p { x with
    up := true, live := false, holdEnd := some (s.now + usCk hold), verify := .idle, speedRestart := false,
    txLat := Config.portLatency (2 * s.free), rxLat := Config.portLatency (2 * s.free + 1),
    idleSince := s.now, pdelayDue := s.now, pdelayLast := none, latencyDue := s.now + msCk 1 })
  bumpPort p 10 (whenB unverified (bumpPort p 5) s)

/-- Verification begins: the first verify mPacket (07 R150). -/
def startVerify (p : Nat) (s : State) : State :=
  match portsRec s p with
  | some r =>
    if r.preempt && r.verification then
      emit (.control s.now p .verify)
        (setPort s p { port s p with verify := .running 1 (s.now + msCk r.verifyMs) })
    else s
  | none => s

/-- The PHY address of a port: of PORTS, none for 0xFF, and p in BARE (07 R171). -/
def phyAddress (s : State) (p : Nat) : Option Nat :=
  match portsRec s p with
  | some r => if r.phyAddr = 255 then none else some r.phyAddr
  | none => some p

/-- A write to a PHY register waits for the bus (07 R171): only of a port with an address. -/
def mdioWrite (p reg val : Nat) (s : State) : State :=
  match phyAddress s p with
  | some a => { s with mdio := { s.mdio with queue := s.mdio.queue ++ [(p, a, reg, val)] } }
  | none => s

/-- An access takes the bus for 25.6 µs (07 R171). -/
def mdioAccess (addr reg : Nat) (val : Option Nat) (s : State) : State :=
  emit (.mdio s.now addr reg val) { s with mdio := { s.mdio with freeAt := s.now + 20480 } }

/-- The accesses are made one at a time in port order (07 R171), and none while VDDIO_Q is browned out (15 R331). -/
def mdioDuty (s : State) : State :=
  if s.supply.bankQ.brown || decide (s.now < s.mdio.freeAt) then s
  else
    match firstBelow 4 (fun p => s.mdio.queue.any (fun e => e.1 == p)) with
    | none => s
    | some p =>
      match s.mdio.queue.find? (fun e => e.1 == p) with
      | some e => mdioAccess e.2.1 e.2.2.1 (some e.2.2.2)
          { s with mdio := { s.mdio with queue := s.mdio.queue.eraseP (fun e => e.1 == p) } }
      | none => s

/-- The PHY bring-up sequence begins: register 0 is written with reset, then polled (07 R172). -/
def phyBringUp (p : Nat) (s : State) : State :=
  if (port s p).mode = 6 ∧ (phyAddress s p).isSome then
    mdioWrite p 0 0x8000 (setPort s p { port s p with phy := .resetting s.now, phyDue := s.now + msCk 1 })
  else setPort s p { port s p with phy := .idle }

/-- The Clause 37 base page that the device sends: FD 1, HD 0, no pause, remote fault 0b00 (07 R145). -/
def ownPage : BitVec 16 := 0x0020

/-- The PCS starts: 1000BASE-X of code 4 sends its base page (07 R145). -/
def startPcs (p : Nat) (s : State) : State :=
  if (port s p).mode = 4 then emit (.control s.now p (.basePage ownPage)) s else s

/-- Put a port's mode in force and start its PCS and PHY. DESIGN CHOICE (log entry 44): before any in-band word, the
speed of an SGMII port is 1,000 Mb/s (07 R168 gives none); its link is down until a word's link bit is 1. -/
def startPort (p : Nat) (s : State) : State :=
  let m := modeInForce s p
  phyBringUp p (startPcs p (setPort s p { port s p with mode := m, speed := 2, linkBit := false }))

/-- The image asks for a mode that the strap does not permit: counted (02 R38, 07 R146). -/
def countRaise (p : Nat) (s : State) : State :=
  match mFind s.tables.ports p with
  | some r => if strapMode s p != 0 && !modePermitted (strapMode s p) r.mode then bumpPort p 17 s else s
  | none => s

/-! ### Stomps (07 R159, R162) -/

/-- Bytes of a copy that have left the MAC in this sending: after 8 bytes of preamble and SFD. -/
def bytesOut (x : PortSt) (t : Tx) (now' : Nat) : Nat := (now' + 25 - t.start) * 100 / byteCk100 x - 8

/-- A frame as its sending ends: whole, or as its final fragment where fragments have left (R149, R159). -/
def endOf (s : State) (p : Nat) (t : Tx) (bytes : List Byte) : Emission :=
  if 0 < t.frame.sent then
    .mpacket s.now p (port s p).smdFrame (some (port s p).smdFrag) (bytes.drop t.frame.sent)
  else .frame s.now p bytes

/-- End a copy in progress with the inverted FCS over `n` bytes of it, zero bytes where it is shorter; where fragments
have left, on the final one (R159). -/
def stompCopy (p n : Nat) (t : Tx) (s : State) : State :=
  let x := port s p
  emit (endOf s p t (withStomp (padTo n t.frame.bytes)))
    (setPort s p { x with tx := some { t with
      ends := .stomp, finish := t.start + cdiv ((24 + n - t.frame.sent) * byteCk100 x) 100 - 25 } })

/-- Stomp every copy of a frame in progress, each with at least 64 bytes sent (R162); of one that waits pre-empted, the
final fragment is stomped as it resumes: its rest is void. -/
def stompAll (id : Nat) (s : State) : State :=
  each (List.range 4) (fun p s =>
    match (port s p).tx with
    | some t =>
      if t.frame.id = id ∧ t.ends = .frame then
        stompCopy p (max 64 (t.frame.sent + bytesOut (port s p) t s.now)) t s
      else s
    | none => s) s

end Sys2Proof.Machine
end

