-- ==== Sys2Proof/Machine/CommitOps.lean ====
section
/-!
DEFINITION. A commit at its epoch (13 R295; 06 R130): the tables that a staged set would put in force, and
each block's own commit rule (R104, R136, R140, R142, R160, R167, R205, R207, R249, R268, R270, R342).
-/
namespace Sys2Proof.Machine

/-! ### The tables a staged set puts in force -/

def classOf (id : Nat) : Nat := id / 2 ^ 24
def instOf (id : Nat) : Nat := id / 256 % 65536
def fieldOf (id : Nat) : Nat := id % 256

/-- One staged entry put into a set of tables; no bytes remove the record. Records of links beyond the plan
are ignored (04 R83, R84). -/
def stageInto (s : State) (t : Tables) (x : Nat × Option (List Byte)) : Tables :=
  let i := instOf x.1
  let v := x.2
  match classOf x.1 with
  | 3 => (match v with | some b => { t with time := timeOf b } | none => t)
  | 4 => { t with ports := mPut t.ports i (v.map portsOf) }
  | 5 => { t with gates := mPut t.gates i (v.map gatesOf) }
  | 6 => { t with events := mPut t.events i (v.map eventsOf) }
  | 7 => { t with streams := mPut t.streams i (v.map streamsOf) }
  | 8 => { t with listen := mPut t.listen i (v.map listenOf) }
  | 9 => { t with filters := mPut t.filters i (v.map filtersOf) }
  | 10 => { t with police := mPut t.police i (v.map policeOf) }
  | 11 => { t with frer := mPut t.frer i (v.map frerOf) }
  | 12 => if inPlan s i then { t with lanes := mPut t.lanes i (v.map lanesOf) } else t
  | 13 => if inPlan s (i / 8) then { t with vcmap := mPut t.vcmap i (v.map vcmapOf) } else t
  | 14 => { t with pimap := mPut t.pimap i (v.map pimapOf) }
  | 15 => { t with dma := mPut t.dma i (v.map dmaOf) }
  | 16 =>
    if fieldOf x.1 = 1 then (match v with | some b => { t with netTol := fld b 0 4 } | none => t)
    else { t with power := v.map powerOf, netTol := if v.isNone then 0xFFFFFFFF else t.netTol }
  | 17 => { t with mgmt := v.map mgmtOf }
  | 18 => { t with safe := v.map safeOf }
  | 19 => { t with cal := v.map calOf }
  | _ => t

/-- The tables that a staged set would put in force; a record lost to errors stays out until reset (15 R329). -/
def stagedTables (s : State) (x : Staged) : Tables :=
  (x.entries.filter (fun e => e.2.isNone || !s.lost.contains e.1)).foldl (stageInto s) s.tables

/-- Objects that a set may not remove: the mandatory sections' records (04 R70, R72). -/
def removesMandatory (x : Staged) : List (Nat × Nat) :=
  (x.entries.filter (fun e => e.2.isNone && (classOf e.1 == 3 || classOf e.1 == 4 || classOf e.1 == 17))).map
    (fun e => (classOf e.1, instOf e.1))

/-- What fails when a set is validated under R72 and R272 (13 R293). -/
def commitBad (s : State) (x : Staged) : List (Nat × Nat) :=
  removesMandatory x ++ crossBad s (stagedTables s x)

/-- Table words below 5,120 are the lists in force, those from there on their shadows (06 R127). -/
def activeFlips (m : SMap Nat) : SMap Nat := m.filter (fun x => decide (x.1 < 5120))
def shadowFlips (m : SMap Nat) : SMap Nat :=
  (m.filter (fun x => decide (5120 ≤ x.1))).map (fun x => (x.1 - 5120, x.2))

/-- Write gate and event lists into a live copy's shadows: every word is written anew (06 R127, R130). -/
def shadowCopy (g : SMap GatesRec) (e : SMap EventsRec) (c : HeronCopy) : HeronCopy :=
  if c.live then { c with shadowGates := g, shadowEvents := e, flips := activeFlips c.flips } else c

def writeShadows (t : Tables) (s : State) : State := setCopies (shadowCopy t.gates t.events) s
def clearShadows (s : State) : State := setCopies (shadowCopy [] []) s

/-! ### Each block's own commit rule -/

/-- Keys that either of two tables holds. -/
def bothKeys {α : Type} (a b : SMap α) : List Nat := (a.map (·.1) ++ b.map (·.1)).eraseDups

/-- Make the other domain working: a hot switch, counted, and a rebase (05 R105, R107). -/
def hotSwitch (s : State) : State :=
  rebase false (bumpDev 5 { s with dunlin := { s.dunlin with working := otherDom s.dunlin.working } })

/-- A domain that is not enabled and not working runs at the nominal increment (05 R104). -/
def idleRate (d : Dom) (s : State) : State :=
  if (dom s d).st = .disabled ∧ s.dunlin.working ≠ d
  then setDom d { dom s d with inc := nominalInc, integral := 0 } s else s

/-- The working domain has left LOCKED: where the other is LOCKED, it becomes working in the next ck (05 R105). -/
def callSwitch (d : Dom) (s : State) : State :=
  if s.dunlin.working = d ∧ (dom s (otherDom d)).st = .locked
  then { s with dunlin := { s.dunlin with switchDue := some (s.now + 1) } } else s

/-- The hot switch that the ck before called for (05 R105); a domain disabled while working then runs at the
nominal increment (R104). -/
def switchDuty (s : State) : State :=
  match s.dunlin.switchDue with
  | some t =>
    if t ≤ s.now then
      let d := s.dunlin.working
      let s := { s with dunlin := { s.dunlin with switchDue := none } }
      if (dom s (otherDom d)).st = .locked then idleRate d (hotSwitch s) else s
    else s
  | none => s

/-- A domain enabled or disabled by a commit (05 R104, R105, R118). -/
def commitDomain (d : Dom) (was now' : Bool) (s : State) : State :=
  if !was && now' then
    setDom d { dom s d with st := .acquire, integral := 0, good := 0, bad := 0, saturated := false, lastSync := none,
                            gm := none, slavePort := none, heard := [], lockedSince := false } s
  else if was && !now' then
    let s := setDom d { dom s d with st := .disabled, lockedSince := false, gm := none, slavePort := none,
                                     heard := [] } s
    idleRate d (callSwitch d s)
  else s

/-- A commit that changes the cycle or the base time (06 R142). -/
def commitGrid (o n : TimeRec) (s : State) : State :=
  if s.heron.started && (o.cycle != n.cycle || baseTime o != baseTime n) then
    let h := phaseH s (beneath s)
    { s with
      dunlin := { s.dunlin with
        h := h, slewPpm := if h = 0 then 0 else if n.alignment = 0 then n.slewPpm else 100,
        stepPending := false, stepCycle := false } }
  else s

/-- The epoch instant t_E, the boundary's, in units of 2^-24 ck (06 R136). -/
def epochTat (s : State) : Nat := s.heron.boundary * 2 ^ 24 / ckUnits

/-- A stream under a commit (06 R136, 07 R160, R164). -/
def commitStream (o : Tables) (portsMoved : Nat → Bool) (q : Nat) (s : State) : State :=
  let x := stream s q
  match mFind o.streams q, mFind s.tables.streams q with
  | some _, none =>
    let s := bumpBy 0x2B q 1 x.queue.length s
    let s := setStream s q StreamSt.init
    each x.queue (fun f s => releaseFrame f s) s
  | none, some r =>
    setStream s q { StreamSt.init with
      tat := refillTat r.refillFull r.rate r.burst (epochTat s), threshold := initialThreshold s r }
  | some a, some r =>
    let moved := (List.range 4).any (fun p => hasBit r.members p && portsMoved p)
    placeStream q (setStream s q { x with
      tat := if a.rate = r.rate ∧ a.burst = r.burst then x.tat
             else refillTat r.refillFull r.rate r.burst (epochTat s),
      threshold := if a = r ∧ !moved then x.threshold else initialThreshold s r })
  | none, none => s

/-- A meter under a commit (06 R139, R140). -/
def commitMeter (o : Tables) (m : Nat) (s : State) : State :=
  let x := meter s m
  match mFind o.police m, mFind s.tables.police m with
  | _, none => { s with meters := mErase s.meters m }
  | none, some r =>
    setMeter s m { tat := refillTat r.refillFull r.rate r.burst (epochTat s), gate := !r.gated || r.initOpen }
  | some a, some r =>
    setMeter s m {
      tat := if a.rate = r.rate ∧ a.burst = r.burst then x.tat else refillTat r.refillFull r.rate r.burst (epochTat s),
      gate := if !r.gated then true else if !a.gated then r.initOpen else x.gate }

/-- The FRER parameters that a listener stream runs under a set of tables. -/
def frerFor (t : Tables) (l : Nat) : Option (Nat × Option FrerRec) :=
  (mFind t.listen l).map (fun r => (r.recovery, mFind t.frer r.recovery))

/-- A listener stream under a commit (07 R167; 12 R275 with frames of a removed stream discarded). -/
def commitListener (o : Tables) (l : Nat) (s : State) : State :=
  let x := listener s l
  match mFind s.tables.listen l with
  | none =>
    let s := { s with listeners := mErase s.listeners l }
    each x.held (fun f s => freeCells f.1.account f.1.cells s) s
  | some _ =>
    if frerFor o l = frerFor s.tables l then s
    else setListener s l { x with recovering := true, history := [] }

/-- What R205 lets retrain a link: the LANES values but the audit interval and the TIME flag. -/
def retrainValues (r : LanesRec) : List Nat :=
  [r.rate, r.ackCount, r.ackNs, r.replayNs, r.limitN, r.limitM, bitW r.pairElim 1]

/-- A link under a commit of LANES (08 R205): it retrains, or its training restarts at SYNC with every lane, and neither
counts towards M (09 R221, R229). -/
def commitLink (o : State) (k : Nat) (s : State) : State :=
  let a := lanesRec o k
  let r := lanesRec s k
  if !inPlan s k || retrainValues a == retrainValues r then s
  else
    let x := link s k
    match x.st with
    | .off => s
    | .detect => s
    | .active => startRetrain k 4 0xFF true s
    | _ => enterSync k x.retrain (setLink s k { x with
        commitRetrain := true, excluded := 0, faultMask := 0, spareUsed := false
        retrains := if x.retrain && !x.commitRetrain then x.retrains - 1 else x.retrains })

/-- A pair under a commit of LANES: turning elimination on resets each VC's state once (08 R201). -/
def commitPair (o : State) (j : Nat) (s : State) : State :=
  if planPairs (plan s) &&
      [2 * j, 2 * j + 1].any (fun k => inPlan s k && !(lanesRec o k).pairElim && (lanesRec s k).pairElim)
  then each (List.range 8) (resetPair j) s else s

/-- A receive VC under a commit of VCMAP (08 R207). -/
def commitVc (o : Tables) (i : Nat) (s : State) : State :=
  let k := i / 8
  let v := i % 8
  let x := vc s k v
  match mFind o.vcmap i, mFind s.tables.vcmap i with
  | none, some r => setVc s k v { x with bv := r.units }
  | some a, some r =>
    if a.units ≤ r.units then setVc s k v { x with bv := r.units }
    else setVc s k v { x with bv := r.units, hold := x.hold + (a.units - r.units) }
  | some a, none =>
    let s := orphanTunnel i (setVc s k v { x with bv := 0, hold := x.hold + a.units, rxOpen := none, rxMsgs := [] })
    let ms := (match x.rxOpen with | some m => [m] | none => []) ++ x.rxMsgs
    each ms (fun m s => freeMsg k v m (bumpBy 0x28 i 3 m.packets s)) s
  | none, none => s

/-- A region under a commit of PIMAP (10 R249). -/
def commitRegion (o : Tables) (i : Nat) (s : State) : State :=
  match mFind s.tables.pimap i with
  | none => { s with regions := mErase s.regions i }
  | some r =>
    if mFind o.pimap i = some r then s
    else setRegion s i { RegionSt.init with stale := decide (r.kind < 2), fresh := true }

/-- A channel's records in a set of tables. -/
def channelRecords (t : Tables) (c : Nat) : List (Option DmaRec) :=
  (List.range 16).map (fun j => mFind t.dma (16 * c + j))

/-- A channel under a commit of DMAPROG (11 R270). -/
def commitChannel (o : Tables) (c : Nat) (s : State) : State :=
  let x := chan s c
  if channelRecords o c = channelRecords s.tables c ∨ !s.avocet.running then s
  else
    let renew := fun (i : Nat) => (dmaRec s c i).map (fun r => (i, r))
    match x.status, x.active with
    | .busy, some a =>
      setChan s c { x with shadow := match renew a.1 with | some b => nextDescriptor s c b | none => none }
    | .waiting, some a =>
      (match renew a.1 with
       | some b => setChan s c (activate c (max s.now x.activeFrom) b s x)
       | none => setChan s c ChanSt.init)
    | _, _ => loadChannel c s

/-- A port under a commit of PORTS (07 R146, R150, R168, R172, R174; 16 R342). -/
def commitPort (o : State) (p : Nat) (staged : Bool) (s : State) : State :=
  let a := portsRec o p
  let r := portsRec s p
  let s := if staged then countRaise p s else s
  if a = r then s
  else
    let x := port s p
    let mode := modeInForce s p
    let s := if mode != x.mode then portGoesDown p s else s
    let flags := fun (y : Option PortsRec) => y.map (fun z => (z.preempt, z.verification))
    let single := fun (y : Option PortsRec) => match y with | some z => z.preempt && !z.verification | none => false
    let s := startPcs p (setPort s p { port s p with mode := mode })
    let s := if flags a != flags r || (port s p).verify == .failed then
        (if (port s p).live then startVerify p (setPort s p { port s p with verify := .idle })
         else setPort s p { port s p with verify := .idle })
      else s
    let s := if (port s p).up && single r && !single a then bumpPort p 5 s else s
    phyBringUp p s

/-- The CAL rate of a lane: 0 where it sends no CAL blocks (04 R91). -/
def calRate (t : Tables) (n : Nat) : Nat :=
  match t.cal with | some r => if hasBit r.lanes n then r.rate else 0 | none => 0

/-- The CAL record under a commit: clearing flag [0] closes the quiet window (09 R229), and a lane whose CAL rate
changes counts its slots afresh (R225). -/
def commitCal (o : Tables) (s : State) : State :=
  let s := each (List.range 32) (fun n s =>
    if calRate o n = calRate s.tables n then s
    else setLane s n { lane s n with
      calDue := s.now + 2 ^ calRate s.tables n * slotCk (laneRate s n), calWait := none }) s
  if s.quiet && !(match s.tables.cal with | some r => r.quiet | none => false) then setQuiet false s else s

/-- Requests queued with another EtherType are discarded (13 R306). -/
def commitMgmt (s : State) : State :=
  { s with hid := { s.hid with rx := s.hid.rx.filter (fun r => (ethHdr r.bytes).etherType == mgmtType s) } }

/-- LANES and VCMAP records for links beyond the plan, counted (04 R83, R84). -/
def countAbsent (x : Staged) (s : State) : State :=
  bumpBy 0x20 0 17 (x.entries.filter (fun e => e.2.isSome &&
    ((classOf e.1 == 12 && !inPlan s (instOf e.1)) ||
     (classOf e.1 == 13 && !inPlan s (instOf e.1 / 8))))).length s

/-- A set's tables come into force in every block but Heron (13 R295). -/
def putInForce (x : Staged) (s : State) : State :=
  let o := s
  let t := stagedTables s x
  let s := { s with tables := t }
  let s := commitDomain 1 o.tables.time.en1 t.time.en1 (commitDomain 0 o.tables.time.en0 t.time.en0 s)
  let s := commitGrid o.tables.time t.time s
  let s := each (List.range 4) (fun p =>
    commitPort o p ((mFind x.entries (0x04 * 2 ^ 24 + p * 256)).isSome)) s
  let moved := fun p => (portsRec o p).map (fun z => (z.ctStart, z.mode)) !=
    (portsRec s p).map (fun z => (z.ctStart, z.mode))
  let s := each (bothKeys o.tables.streams t.streams) (commitStream o.tables moved) s
  let s := each (bothKeys o.tables.police t.police) (commitMeter o.tables) s
  let s := each (bothKeys o.tables.listen t.listen) (commitListener o.tables) s
  let s := each (bothKeys o.tables.vcmap t.vcmap) (commitVc o.tables) s
  let s := each (List.range 32) (commitLink o) (each (List.range 16) (commitPair o) s)
  let s := each (bothKeys o.tables.pimap t.pimap) (commitRegion o.tables) s
  let s := each (List.range 64) (commitChannel o.tables) s
  endPauses (commitMgmt (commitCal o.tables (countAbsent x s)))

/-- Each live copy switches to its shadow tables (06 R130). -/
def takeShadows (s : State) : State :=
  setCopies (fun c => if c.live then { c with
    gates := c.shadowGates, events := c.shadowEvents, flips := shadowFlips c.flips,
    shadowGates := [], shadowEvents := [] } else c) s

/-- The staged set takes effect in every block and every live copy (13 R295, 06 R130). -/
def applySet (x : Staged) (s : State) : State :=
  let t := putInForce x (takeShadows s)
  let t := if s.tables.dma = t.tables.dma then t else { t with avocet := { t.avocet with dmaCommit := true } }
  bumpDev 39 { t with staged := none }

/-- The pending commit's epoch is this boundary: the working domain's time is at or after its time. -/
def epochHere (s : State) : Bool :=
  match s.commit with | some c => decide (c.time ≤ workingCount s) | none => false

/-- The empty staged set of a number. -/
def stagedSet (s : State) (number : Nat) : Staged :=
  match s.staged with | some x => x | none => { number := number, entries := [] }

/-- The commit step of a boundary (01 R10). -/
def commitStep (s : State) : State :=
  match s.commit with
  | some c =>
    if c.time ≤ workingCount s then
      notify 8 0 (leBytes 2 c.number ++ leBytes 8 s.heron.cycle)
        (applySet (stagedSet s c.number) { s with commit := none })
    else s
  | none => s

end Sys2Proof.Machine
end

