-- ==== Sys2Proof/Machine/EccOps.lean ====
section
/-!
DEFINITION. Memory errors (15 R327 to R329): upsets in stored words, correction, and the containment of an
uncorrectable error by memory. Where a word of the packet buffer, the lane pool or the replay store lies is
a constant of Config (notes/assumptions/5.md).
-/
namespace Sys2Proof.Machine

/-! ### Upsets and their judgement (R328) -/

/-- The flipped bits of a stored word. -/
def flips (s : State) (m : MemoryId) (copy a : Nat) : List Nat := mGetD s.upsets (upsetKey m copy a) []

/-- A bit flips; a second flip brings it back (R328). -/
def toggleBit (b : Nat) (l : List Nat) : List Nat := if l.contains b then l.filter (fun x => x != b) else l ++ [b]

def addUpset (u : Upset) (s : State) : State :=
  let l := u.bits.foldl (fun l b => toggleBit b l) (flips s u.mem u.copy u.addr)
  { s with upsets := mPut s.upsets (upsetKey u.mem u.copy u.addr) (if l.isEmpty then none else some l) }

def clearUpset (m : MemoryId) (copy a : Nat) (s : State) : State :=
  { s with upsets := mErase s.upsets (upsetKey m copy a) }

/-- Two bits or more differ from a codeword: more than two are judged as two are (notes/assumptions/35.md). -/
def uncorrectable (l : List Nat) : Bool := decide (2 ≤ l.length)
def correctable (l : List Nat) : Bool := l.length == 1

/-- The corrected-error total (R328). -/
def noteCorrected (s : State) : State :=
  { s with faults := { s.faults with corrected := min 0xFFFFFFFF (s.faults.corrected + 1) } }

/-- A correctable word is written back corrected. -/
def correctWord (m : MemoryId) (copy a : Nat) (s : State) : State :=
  if correctable (flips s m copy a) then noteCorrected (clearUpset m copy a s) else s

/-! ### The process image -/

/-- The data bits of a word that an error has flipped. -/
def flipMask (l : List Nat) : Word := l.foldl (fun m b => if b < 32 then m ^^^ (1 <<< b) else m) 0

/-- An SRAM word of the image, host-owned words of the station block among them. -/
def sramWord (s : State) (w : Nat) : Word := if 0xFFC0 ≤ w then stationWord s (w - 0xFFC0) else readWord s w

/-- The stored data bits of a word, errors included. -/
def storedWord (s : State) (w : Nat) : Word := sramWord s w ^^^ flipMask (flips s .processImage 0 w)

/-- Log and count an uncorrectable error of the image (R329, 0x0023). -/
def noteImageError (w : Nat) (s : State) : State := bumpDev 24 (logFault 0x23 0 (4 * w) s)

/-- A read judges a word: one wrong bit is corrected, two are logged and the word rewritten as zero. -/
def judgeImage (w : Nat) (s : State) : State :=
  let l := flips s .processImage 0 w
  if uncorrectable l then setSram w 0 (clearUpset .processImage 0 w (noteImageError w s))
  else correctWord .processImage 0 w s

/-- A merge judges the word it merges into: an uncorrectable one keeps its stored bits (10 R232). -/
def judgeMerge (w : Nat) (s : State) : State :=
  let l := flips s .processImage 0 w
  if uncorrectable l then
    clearUpset .processImage 0 w (noteImageError w (setSram w (storedWord s w) s))
  else correctWord .processImage 0 w s

/-- A write of some bytes of a word: a whole word is fresh, a part is merged (10 R230, R232). -/
def storeWord (w : Nat) (v : Word) (be : BitVec 4) (s : State) : State :=
  if be = 15 then writeWord w v be (clearUpset .processImage 0 w s)
  else if be = 0 then s
  else writeWord w v be (judgeMerge w s)

/-- A write of some bytes of a host-owned word of the station block, as of any SRAM word (10 R232). -/
def storeHostWord (n : Nat) (v : Word) (be : BitVec 4) (s : State) : State :=
  let s := if be = 15 then clearUpset .processImage 0 (0xFFC0 + n) s else judgeMerge (0xFFC0 + n) s
  setHostWord n (mergeWord (stationWord s n) v be) s

/-! ### The packet buffer (0x0020) -/

/-- Every frame that the buffer holds, the wires apart. -/
def bufferedFrames (s : State) : List Frame :=
  s.streams.flatMap (fun e => e.2.queue ++ e.2.tunnels.map (·.2)) ++ sentFrames s ++
    s.listeners.flatMap (fun e => e.2.held.map (·.1))

/-- A frame is discarded: copies in progress stomped, every other copy dropped, its cells freed (R329). -/
def discardFrame (f : Frame) (s : State) : State :=
  let s := stompAll f.id s
  let qs := (s.streams.filter (fun e => e.2.queue.any (fun g => g.id == f.id))).map (·.1)
  let keys := s.streams.flatMap (fun e => (e.2.tunnels.filter (fun t => t.2.id == f.id)).map (·.1))
  let heldOne := s.listeners.any (fun e => e.2.held.any (fun g => g.1.id == f.id))
  let s := each keys skipRest { s with
    streams := s.streams.map (fun e => (e.1, { e.2 with
      queue := e.2.queue.filter (fun g => g.id != f.id)
      tunnels := e.2.tunnels.filter (fun t => t.2.id != f.id) }))
    classQ := s.classQ.map (fun e => (e.1, e.2.filter (fun g => g.id != f.id)))
    listeners := s.listeners.map (fun e => (e.1, { e.2 with
      held := e.2.held.filter (fun g => g.1.id != f.id) })) }
  let s := each qs placeStream s
  if heldOne then freeCells f.account f.cells s else releaseFrame f s

/-- A message of a link transmit queue that holds the word is discarded. -/
def discardQueued (w key : Nat) (s : State) : State :=
  let k := key / 8
  let v := key % 8
  let x := vc s k v
  if Config.holds 1 key w && !x.txQ.isEmpty then
    drawFree (setVc s k v { x with txQ := x.txQ.eraseIdx (Config.pick s.free % x.txQ.length) })
  else s

/-- An uncorrectable word of the packet buffer found by the scrubber or by a read that is no transmission
and no channel's: the frame or cell that holds it is discarded. -/
def bufferLost (w : Nat) (s : State) : State :=
  let s := clearUpset .packetBuffer 0 w (logFault 0x20 0 (8 * w) s)
  let gone := (bufferedFrames s).filter (fun f => Config.holds 0 f.id w)
  let s := each gone discardFrame s
  let s := each (List.range 256) (discardQueued w) s
  { s with hid := { s.hid with rx := (s.hid.rx.zipIdx.filter (fun x => !Config.holds 2 x.2 w)).map (·.1) } }

/-- The word numbers of a memory that hold flipped bits. -/
def upsetWords (s : State) (m : MemoryId) (copy : Nat) : List Nat :=
  (s.upsets.filter (fun x => decide (upsetKey m copy 0 ≤ x.1) && decide (x.1 < upsetKey m copy 0 + 2 ^ 36))).map
    (fun x => x.1 - upsetKey m copy 0)

/-- The words of a frame that a transmission or a channel would find in error. -/
def frameErrors (s : State) (f : Frame) : List Nat :=
  (upsetWords s .packetBuffer 0).filter (fun w => Config.holds 0 f.id w)

/-- Ethernet transmit reads a frame's words: one wrong bit is corrected; an uncorrectable word stomps every
copy in progress and discards the frame (R329). -/
def transmitRead (f : Frame) (s : State) : State :=
  let ws := frameErrors s f
  let s := each ws (correctWord .packetBuffer 0) s
  let bad := ws.filter (fun w => uncorrectable (flips s .packetBuffer 0 w))
  if bad.isEmpty then s
  else discardFrame f (each bad (fun w s => clearUpset .packetBuffer 0 w (logFault 0x20 0 (8 * w) s)) s)

/-! ### The lane receive pool (0x0021) -/

/-- A message of a VC is discarded and its credit freed. -/
def discardMsg (k v i : Nat) (s : State) : State :=
  let x := vc s k v
  match x.rxMsgs[i]? with
  | some m => freeMsg k v m (setVc s k v { x with rxMsgs := x.rxMsgs.eraseIdx i })
  | none =>
    match x.rxOpen with
    | some m =>
      freeMsg k v m (whenB m.poured (orphanTunnel (8 * k + v)) (setVc s k v { x with rxOpen := none }))
    | none => s

/-- An uncorrectable word of the lane pool: the packet that holds it is discarded (R329). -/
def poolLost (w : Nat) (s : State) : State :=
  let s := clearUpset .lanePool 0 w (logFault 0x21 0 (8 * w) s)
  let key := Config.poolVc w
  if 256 ≤ key then s
  else
    let n := (vc s (key / 8) (key % 8)).rxMsgs.length
    drawFree (discardMsg (key / 8) (key % 8) (Config.pick s.free % (n + 1)) s)

/-! ### The replay store (0x0022) -/

/-- An uncorrectable word of the replay store: an unacknowledged packet that holds it is marked (R329). -/
def storeLost (w : Nat) (s : State) : State :=
  let s := clearUpset .replayStore 0 w (logFault 0x22 0 (8 * w) s)
  each (List.range 32) (fun k s => setLink s k { link s k with
    store := (link s k).store.map (fun p =>
      { p with marked := p.marked || Config.holds 3 (4096 * k + p.seq) w }) }) s

/-! ### Tables (0x0024) -/

/-- The bytes of a configuration object in a set of tables: the record in its image layout (13 R290). -/
def recordBytes (t : Tables) (id : Nat) : Option (List Byte) :=
  let i := instOf id
  match classOf id with
  | 3 => if i = 0 then some (timeBytes t.time) else none
  | 4 => (mFind t.ports i).map portsBytes
  | 5 => (mFind t.gates i).map gatesBytes
  | 6 => (mFind t.events i).map eventsBytes
  | 7 => (mFind t.streams i).map streamsBytes
  | 8 => (mFind t.listen i).map listenBytes
  | 9 => (mFind t.filters i).map filtersBytes
  | 10 => (mFind t.police i).map policeBytes
  | 11 => (mFind t.frer i).map frerBytes
  | 12 => (mFind t.lanes i).map lanesBytes
  | 13 => (mFind t.vcmap i).map vcmapBytes
  | 14 => (mFind t.pimap i).map pimapBytes
  | 15 => (mFind t.dma i).map dmaBytes
  | 16 => if i = 0 then t.power.map powerBytes else none
  | 17 => if i = 0 then t.mgmt.map mgmtBytes else none
  | 18 => if i = 0 then t.safe.map safeBytes else none
  | 19 => if i = 0 then t.cal.map calBytes else none
  | 20 => if i = 0 then t.ident.map identBytes else none
  | _ => none

/-- The multi-record sections whose tables stand in two copies (R327): every one but Heron's own lists. -/
def twoCopies (id : Nat) : Bool := within 6 15 (classOf id)

/-- A record uncorrectable in both copies is out of force until reset, as a commit removing it would take it
out; of an EVENTS record the subscriber tables are lost, so no copy fires it (R329). -/
def loseRecord (id : Nat) (s : State) : State :=
  let s := logFault 0x24 0 id { s with lost := s.lost ++ [id] }
  let s := putInForce { number := 0, entries := [(id, none)] } s
  if classOf id = 6 then setCopies (fun c => { c with events := mErase c.events (instOf id) }) s else s

/-- A table word uncorrectable in one copy is rewritten from the other (R328). -/
def repairCopy (id copy : Nat) (s : State) : State :=
  if uncorrectable (flips s .multiTables copy id) then noteCorrected (clearUpset .multiTables copy id s)
  else correctWord .multiTables copy id s

/-- A read judges a record of a multi-record section in both copies. -/
def judgeRecord (id : Nat) (s : State) : State :=
  if uncorrectable (flips s .multiTables 0 id) && uncorrectable (flips s .multiTables 1 id) then
    let t := clearUpset .multiTables 1 id (clearUpset .multiTables 0 id s)
    if twoCopies id && (recordBytes s.tables id).isSome then loseRecord id t else t
  else repairCopy id 1 (repairCopy id 0 s)

/-- Bits flipped in the first eight bytes of a record. -/
def flipBytes (l : List Nat) (b : List Byte) : List Byte :=
  b.zipIdx.map (fun x => l.foldl (fun v i => if i / 8 = x.2 then v ^^^ (1 <<< (i % 8)) else v) x.1)

/-- A read votes a single-record table bitwise: each copy that differs is rewritten from the majority, and
bits wrong in two copies are what the vote reads (R327, R328). -/
def judgeSingle (id : Nat) (s : State) : State :=
  let f := fun c => flips s .singleTables c id
  let maj := (List.range 64).filter (fun b =>
    decide (2 ≤ bitW ((f 0).contains b) 1 + bitW ((f 1).contains b) 1 + bitW ((f 2).contains b) 1))
  let differ := fun c => !((f c).all (fun b => maj.contains b) && maj.all (fun b => (f c).contains b))
  let t := each ((List.range 3).filter differ) (fun _ => noteCorrected) s
  let t := each (List.range 3) (fun c => clearUpset .singleTables c id) t
  match recordBytes t.tables id with
  | some b => if maj.isEmpty then t else { t with tables := stageInto t t.tables (id, some (flipBytes maj b)) }
  | none => t

/-- What a read of word `w` of a memory finds (R328, R329). The tables have no addresses outside the device:
their read judges every record that an upset has reached (notes/assumptions/35.md). -/
def judgeWord (m : MemoryId) (w : Nat) (s : State) : State :=
  let bad := uncorrectable (flips s m 0 w)
  match m with
  | .packetBuffer => if bad then bufferLost w s else correctWord m 0 w s
  | .lanePool => if bad then poolLost w s else correctWord m 0 w s
  | .replayStore => if bad then storeLost w s else correctWord m 0 w s
  | .processImage => judgeImage w s
  | .multiTables => each (upsetWords s m 0 ++ upsetWords s m 1).eraseDups judgeRecord s
  | .singleTables => each (upsetWords s m 0 ++ upsetWords s m 1 ++ upsetWords s m 2).eraseDups judgeSingle s

end Sys2Proof.Machine
end

