-- ==== Sys2Proof/Machine/TransferOps.lean ====
section
/-!
DEFINITION. Operations of an Avocet transfer that its commands share: sources (11 R256, R264), reads and
landings in each space (R257, R261 to R263; 10 R238, R240), and the errors that stop it (R265).
-/
namespace Sys2Proof.Machine

/-! ### Descriptor fields (R256) -/

/-- The listener stream of a packet buffer source. -/
def srcListener (r : DmaRec) : Nat := bitsOf r.src 14 10
def srcLink (r : DmaRec) : Nat := r.src % 32
def srcVc (r : DmaRec) : Nat := bitsOf r.src 5 3
/-- Consume or pop at the full completion. -/
def srcTakes (r : DmaRec) : Bool := hasBit r.src 31

def dstStream (r : DmaRec) : Nat := bitsOf r.dst 14 10
def dstLink (r : DmaRec) : Nat := r.dst % 32
def dstVc (r : DmaRec) : Nat := bitsOf r.dst 5 3
def fanOut (r : DmaRec) : Bool := r.dstSpace == 2 && hasBit r.dst 13
/-- Bytes of one piece of a run. -/
def pieceLen (r : DmaRec) : Nat := if fanOut r then r.count else r.count / dstRun r

/-! ### Sources (R255, R264) -/

/-- The channel's trigger is the arrival on the VC that it reads from (R255). -/
def ownArrival (r : DmaRec) : Bool := r.trig == 4 && r.srcSpace == 2 && r.arg == r.src % 256

/-- Position of the message that a channel reads: the oldest it has not taken where the VC's arrival triggers it,
otherwise the oldest held (R255, R264). -/
def messageAt (s : State) (c : Nat) (r : DmaRec) : Option Nat :=
  findIx (fun m => m.action == 0 && (!ownArrival r || !m.taken.contains c))
    (vc s (home s (srcLink r)) (srcVc r)).rxMsgs 0

/-- The message that a channel's running transfer reads. -/
def readingAt (s : State) (c k v : Nat) : Option Nat :=
  findIx (fun m => m.readBy.contains c) (vc s (home s k) v).rxMsgs 0

/-- Mark a message as the one that a channel's running transfer reads. -/
def markReading (c k v i : Nat) (s : State) : State :=
  let h := home s k
  let x := vc s h v
  setVc s h v { x with rxMsgs := x.rxMsgs.zipIdx.map (fun e =>
    let t := e.1.readBy.filter (fun y => y != c)
    { e.1 with readBy := if e.2 = i then t ++ [c] else t }) }

/-- A transfer of an arrival trigger takes the trigger VC's oldest message that its channel has not taken, whatever
it reads (R255). -/
def takeArrival (c : Nat) (r : DmaRec) (s : State) : State :=
  if r.trig ≠ 4 then s
  else
    let h := home s (r.arg % 32)
    let x := vc s h (r.arg / 32)
    match findIx (fun m => m.action == 0 && !m.taken.contains c) x.rxMsgs 0 with
    | some i => setVc s h (r.arg / 32) { x with
        rxMsgs := x.rxMsgs.zipIdx.map (fun e => if e.2 = i then { e.1 with taken := e.1.taken ++ [c] } else e.1) }
    | none => s

/-- The bytes of a source that is read whole at its start: count bytes from the offset, zero beyond the end. -/
def cutSource (r : DmaRec) (b : List Byte) : List Byte := padTo r.count (slice b (srcOffset r) r.count)

/-- A source ends before the bytes that are asked of it. -/
def shortSource (r : DmaRec) (b : List Byte) : Bool := decide (b.length < srcOffset r + r.count)

/-- Capture entries held in the three queues, as one number. -/
def heldCaptures (s : State) : Nat :=
  ((List.range 3).map (fun i => (input s i).captures.length * 32 ^ i)).sum

/-! ### Image reads and writes -/

/-- A byte of the image as Avocet reads it: the window's bank below the station block (10 R236). -/
def imageByte (s : State) (a : Nat) : Byte :=
  if 0xFFC0 ≤ a / 4 then byteOf (stationWord s (a / 4 - 0xFFC0)) (a % 4)
  else readByte s (4 * readTarget s (a / 4) + a % 4)

/-- The words that bytes [a, a + n) of the image touch. -/
def wordsOf (a n : Nat) : List Nat := (List.range (cdiv (a % 4 + n) 4)).map (fun i => a / 4 + i)

/-- A byte of the image lies in a region whose stale bit is 1 (10 R240). -/
def staleByte (s : State) (a : Nat) : Bool :=
  match regionAt s (a / 4) with | some (i, _, _) => (region s i).stale | none => false

/-- One word of a landing: into the hardware-side bank; elements of 1 or 2 bytes are merged (10 R236; R257). -/
def landWord (w : Nat) (v : Word) (be : BitVec 4) (merge : Bool) (s : State) : State :=
  let t := hardwareTarget s w
  let s := { s with hwWrote := (s.now, if s.hwWrote.1 = s.now then s.hwWrote.2 ++ [t] else [t]) }
  if merge then writeWord t v be (judgeMerge t s) else storeWord t v be s

/-- Bytes land in the image from a byte address on. -/
def landImage (a : Nat) (b : List Byte) (merge : Bool) (s : State) : State :=
  each (wordsOf a b.length) (fun w s =>
    let at' := fun (i : Nat) => if a ≤ 4 * w + i then b[4 * w + i - a]? else none
    let v := BitVec.ofNat 32 (leNat ((List.range 4).map (fun i => (at' i).getD 0)))
    let be := BitVec.ofNat 4 (((List.range 4).map (fun i => bitW (at' i).isSome (2 ^ i))).sum)
    landWord w v be merge s) s

/-! ### Talker frames (R262) -/

/-- A write at a payload offset; bytes below it that no write has filled are free values. -/
def putPayload (off : Nat) (b : List Byte) (gap : Nat → Byte) (p : List Byte) : List Byte :=
  let base := p ++ (List.range (off - p.length)).map gap
  base.take off ++ b ++ base.drop (off + b.length)

def writePayload (q off : Nat) (b : List Byte) (stale : Bool) (s : State) : State :=
  let x := stream s q
  match x.assembly with
  | some o =>
    let n := s.free
    let s := if o.payload.length < off then drawFree s else s
    setStream s q { x with assembly := some { o with
      payload := putPayload off b (Config.unwrittenByte n) o.payload, stale := o.stale || stale } }
  | none => s

/-- The opening of a frame buffer: a free one, else the oldest queued frame's, else the piece is discarded. -/
def openBuffer (c q : Nat) (s : State) : State :=
  let x := stream s q
  let fresh : OpenBuffer := { chan := c, payload := [], stale := false }
  match x.assembly, mFind s.tables.streams q with
  | none, some r =>
    if buffersInUse s q < r.buffers then setStream s q { x with assembly := some fresh }
    else
      (match x.queue with
       | f :: rest =>
         placeStream q (setStream (releaseFrame f (bumpStream q 5 (setStream s q { x with queue := rest }))) q
           { x with queue := rest, assembly := some fresh })
       | [] => bumpStream q 6 (setChan s c { chan s c with dropped := (chan s c).dropped ++ [q] }))
  | _, _ => s

/-- A frame's bytes: template and payload, filled to 60 bytes (R262). -/
def talkerBytes (r : StreamsRec) (payload : List Byte) : List Byte :=
  let b := r.template ++ payload
  b ++ List.replicate (60 - b.length) 0

/-- The commit: the frame arrives in its stream queue. -/
def commitFrame (q : Nat) (s : State) : State :=
  let x := stream s q
  match x.assembly, mFind s.tables.streams q with
  | some o, some r =>
    let f := { plainFrame s.frameIds (talkerBytes r o.payload) (hck s) (hck s + r.deadline) with
      stream := some q, stale := o.stale }
    arriveFrame q f { setStream s q { x with assembly := none } with frameIds := s.frameIds + 1 }
  | _, _ => s

/-- The part of piece `i` of a run that lies in bytes [a, hi) of the transfer. -/
def pieceSpan (r : DmaRec) (a hi i : Nat) : Nat × Nat := (max a (i * pieceLen r), min hi ((i + 1) * pieceLen r))

/-- Another channel has the frame buffer of piece `i`'s stream open, and the piece is not discarded: a bank conflict
(R262). -/
def pieceConflict (s : State) (c : Nat) (r : DmaRec) (i : Nat) : Bool :=
  match (stream s (dstStream r + i)).assembly with
  | some o => o.chan != c && !(chan s c).dropped.contains (dstStream r + i)
  | none => false

/-- Bytes [a, a + b.length) of a transfer land in the streams of its run, those of a stale region marked; a piece
whose last byte lands commits its frame. -/
def landStreams (c : Nat) (r : DmaRec) (a : Nat) (b : List Byte) (stale : List Bool) (s : State) : State :=
  each (List.range (dstRun r)) (fun i s =>
    let q := dstStream r + i
    let p := pieceSpan r a (a + b.length) i
    if p.2 ≤ p.1 || pieceConflict s c r i then s
    else
      let s := if p.1 = i * pieceLen r then openBuffer c q s else s
      if (chan s c).dropped.contains q then s
      else
        let s := writePayload q (r.dst % 2 ^ 14 + (p.1 - i * pieceLen r)) (slice b (p.1 - a) (p.2 - p.1))
          (((stale.drop (p.1 - a)).take (p.2 - p.1)).any id) s
        if p.2 = (i + 1) * pieceLen r ∧ hasBit r.dst 31 then commitFrame q s else s) s

/-! ### VC messages (R263) -/

/-- One link's message: queued, skipped or dropped. -/
def commitMessage (c k v : Nat) (b : List Byte) (s : State) : State :=
  if linkAbsent s k then bumpChan c 5 s
  else queueMessage k v 0 b (s.now + oneCycle s) (fun j => bumpVc j v 5) s

/-- Messages whose last byte lies in (a, hi]. -/
def landLinks (c : Nat) (r : DmaRec) (a hi : Nat) (all : List Byte) (s : State) : State :=
  let p := pieceLen r
  each (List.range (dstRun r)) (fun i s =>
    let start := if fanOut r then 0 else i * p
    if a < start + p ∧ start + p ≤ hi then commitMessage c (dstLink r + i) (dstVc r) (slice all start p) s else s) s

/-! ### Source reads (R256 to R259) -/

/-- The record of a channel's running transfer. -/
def runningRec (s : State) (c : Nat) : Option DmaRec :=
  let x := chan s c
  match x.status with | .busy => x.active.map (·.2) | _ => none

/-- A source holds what the first read asks for (R264); one outside its space is asked, and meets the bus error. -/
def sourceHeld (s : State) (c : Nat) (r : DmaRec) : Bool :=
  !srcInside s s.tables r ||
    (match r.srcSpace with
     | 1 => !(listener s (srcListener r)).held.isEmpty
     | 2 => (messageAt s c r).isSome
     | _ => true)

/-- A transfer asks for a read: its first ck has come, its source holds something, bytes remain, and the read runs at
most 256 bytes ahead of the writes (R258). -/
def asksRead (s : State) (c : Nat) : Bool :=
  let x := chan s c
  match runningRec s c with
  | some r => decide (x.startedAt ≤ s.now) && decide (16 * x.issued < r.count) &&
      decide (min r.count (16 * (x.issued + 1)) ≤ x.landed + 256) && (x.issued != 0 || sourceHeld s c r)
  | none => false

/-- The two channels, at most, whose source read this ck grants: the lowest that ask (R259). -/
def readGrants (s : State) : List Nat := ((s.chans.map (·.1)).filter (asksRead s)).take 2

/-- A source that is read whole at the transfer's first read: its bytes, and a count where it is short (R264). -/
def openWhole (c : Nat) (r : DmaRec) (b : List Byte) (id : Nat) (s : State) : State :=
  let s := whenB (shortSource r b) (bumpChan c 3) s
  setChan s c { chan s c with bytes := cutSource r b, srcId := id }

/-- The first read opens the source, whole: the oldest frame or message (R256, R264). The counter snapshot is taken as
the ck ends (`snapSource`). -/
def openSource (c : Nat) (r : DmaRec) (s : State) : State :=
  let s := takeArrival c r s
  match r.srcSpace with
  | 1 =>
    (match (listener s (srcListener r)).held with
     | (f, _) :: _ => openWhole c r f.bytes f.id s
     | [] => s)
  | 2 =>
    (match messageAt s c r with
     | some i => openWhole c r (((vc s (home s (srcLink r)) (srcVc r)).rxMsgs[i]?.map (·.bytes)).getD []) 0
         (markReading c (srcLink r) (srcVc r) i s)
     | none => s)
  | _ => s

/-- The image bytes that a read takes: from where the reads before it ended to the end of its last word, so that each
word is read once (R256; 01 R14). -/
def readSpan (x : ChanSt) (r : DmaRec) : Nat × Nat :=
  (srcOffset r + x.bytes.length, min (srcOffset r + r.count) (4 * cdiv (srcOffset r + 16 * (x.issued + 1)) 4))

/-- The physical SRAM words of a read's span. -/
def spanWords (s : State) (p : Nat × Nat) : List Nat :=
  ((wordsOf p.1 (p.2 - p.1)).filter (fun w => decide (p.1 < p.2 ∧ w < 0xFFC0))).map (readTarget s)

/-- A 16-byte read of the image: its bytes with those of a stale region marked, its words judged (R257; 10 R240). -/
def readImageSpan (c : Nat) (r : DmaRec) (s : State) : State :=
  let x := chan s c
  let p := readSpan x r
  let at' := (List.range (p.2 - p.1)).map (fun i => p.1 + i)
  let ws := spanWords s p
  setChan (each ws (correctWord .processImage 0) s) c { x with
    bytes := x.bytes ++ at'.map (imageByte s), stale := x.stale ++ at'.map (staleByte s), issued := x.issued + 1
    flight := x.flight ++ [{ at' := s.now, bad := ws.filter (fun w => uncorrectable (flips s .processImage 0 w)) }] }

/-- The words of the packet buffer or the lane pool that read `n` of a transfer touches. -/
def heldWords (s : State) (x : ChanSt) (r : DmaRec) (n : Nat) : List Nat :=
  let lo := srcOffset r + 16 * n
  let here := fun (owner w : Nat) =>
    decide (lo < Config.wordOffset owner w + 8) && decide (Config.wordOffset owner w < min (lo + 16) (srcOffset r + r.count))
  match r.srcSpace with
  | 1 => (upsetWords s .packetBuffer 0).filter (fun w => Config.holds 0 x.srcId w && here x.srcId w)
  | 2 =>
    let key := 8 * home s (srcLink r) + srcVc r
    (upsetWords s .lanePool 0).filter (fun w => Config.poolVc w == key && here key w)
  | _ => []

/-- The memory of a whole source. -/
def sourceMemory (r : DmaRec) : MemoryId := if r.srcSpace = 1 then .packetBuffer else .lanePool

/-- A 16-byte read of a source that was opened whole: its words judged. -/
def readWholeSpan (c : Nat) (r : DmaRec) (s : State) : State :=
  let x := chan s c
  let ws := heldWords s x r x.issued
  setChan (each ws (correctWord (sourceMemory r) 0) s) c { x with
    issued := x.issued + 1
    flight := x.flight ++ [{ at' := s.now, bad := ws.filter (fun w => uncorrectable (flips s (sourceMemory r) 0 w)) }] }

/-- One granted source read. -/
def issueRead (c : Nat) (s : State) : State :=
  match runningRec s c with
  | some r =>
    let s := if (chan s c).issued = 0 then openSource c r s else s
    if r.srcSpace = 0 then readImageSpan c r s else readWholeSpan c r s
  | none => s

/-- The counter snapshot of a transfer whose first read this ck has made, taken as the ck ends (13 R302). -/
def snapSource (c : Nat) (s : State) : State :=
  let x := chan s c
  match runningRec s c with
  | some r =>
    if r.srcSpace = 3 && x.bytes.isEmpty && x.flight.any (fun y => y.at' == s.now) then
      setChan s c { x with bytes := snapshotBytes s (srcOffset r) r.count, srcId := heldCaptures s }
    else s
  | none => s

/-! ### The holding register (R257) -/

/-- A read's data has returned: it is in the holding register 4 ck after its issue (R258). -/
def isBack (s : State) (y : SourceRead) : Bool := decide (y.at' + 4 ≤ s.now)

/-- Bytes of a transfer whose data has returned. -/
def returned (s : State) (x : ChanSt) (r : DmaRec) : Nat :=
  min r.count (16 * (x.issued - (x.flight.filter (fun y => !isBack s y)).length))

/-- The 16-byte holding register: the bytes taken from the prefetch and not yet written. -/
def holding (x : ChanSt) : List Byte := slice x.bytes x.wrote (x.taken - x.wrote)

/-- The first loop of R257: source elements enter while the holding register has room and the prefetch holds them. -/
def fillHold (c : Nat) (s : State) : State :=
  let x := chan s c
  match runningRec s c with
  | some r =>
    let w := 2 ^ r.sw
    setChan s c { x with
      flight := x.flight.filter (fun y => !isBack s y)
      taken := x.taken + w * min ((16 - (x.taken - x.wrote)) / w) ((returned s x r - x.taken) / w) }
  | none => s

/-- A transfer asks for a write group: its holding register has an element (R257, R259). -/
def asksWrite (s : State) (c : Nat) : Bool :=
  let x := chan s c
  match runningRec s c with | some r => decide (2 ^ r.dw ≤ x.taken - x.wrote) | none => false

/-- The two channels, at most, whose write group this ck grants (R259). -/
def writeGrants (s : State) : List Nat := ((s.chans.map (·.1)).filter (asksWrite s)).take 2

/-- The second loop of R257: the holding register's elements are written as one group, which lands in the next ck. -/
def writeGroup (c : Nat) (s : State) : State :=
  let x := chan s c
  match runningRec s c with
  | some r =>
    setChan s c { x with wrote := x.wrote + 2 ^ r.dw * ((x.taken - x.wrote) / 2 ^ r.dw), wroteAt := s.now }
  | none => s

/-! ### Bus errors (R265) -/

/-- The pieces of a write group. -/
def groupPieces (x : ChanSt) (r : DmaRec) : List Nat :=
  (List.range (dstRun r)).filter (fun i => decide ((pieceSpan r x.landed x.wrote i).1 < (pieceSpan r x.landed x.wrote i).2))

/-- A write group of the ck before lands in this ck. -/
def groupDue (s : State) (x : ChanSt) : Bool := decide (x.landed < x.wrote) && decide (x.wroteAt < s.now)

/-- The error that a landing group meets: its destination is outside its space, or another channel has the frame
buffer of one of its streams open (R262, R265). -/
def writeError (s : State) (c : Nat) (r : DmaRec) : Option BusCause :=
  let x := chan s c
  if !groupDue s x then none
  else if !dstInside s.tables r then some .outside
  else if r.dstSpace == 1 && (groupPieces x r).any (pieceConflict s c r) then some .conflict
  else none

/-- The words in uncorrectable error that a returned read met. -/
def returnedBad (s : State) (c : Nat) : List Nat := ((chan s c).flight.filter (isBack s)).flatMap (·.bad)

/-- The bus error that a channel's running transfer meets in this ck: cause, space and address. A word in error is
found when its read's data returns, an access outside its space at the access. -/
def busError (s : State) (c : Nat) : Option (BusCause × Nat × Nat) :=
  match runningRec s c with
  | some r =>
    (match writeError s c r, returnedBad s c with
     | some e, _ => some (e, r.dstSpace, r.dst)
     | none, w :: _ => some (.ecc, r.srcSpace, if r.srcSpace = 0 then 4 * w else r.src)
     | none, [] =>
       if (readGrants s).contains c && !srcInside s s.tables r then some (.outside, r.srcSpace, r.src) else none)
  | none => none

/-! ### Landing -/

/-- Bytes [a, hi) of a transfer land at its destination. -/
def landBytes (c : Nat) (r : DmaRec) (a hi : Nat) (s : State) : State :=
  let x := chan s c
  let b := slice x.bytes a (hi - a)
  match r.dstSpace with
  | 0 => landImage (r.dst % 2 ^ 18 + a) b (decide (r.dw < 2)) s
  | 1 => landStreams c r a b (x.stale.drop a) s
  | _ => landLinks c r a hi x.bytes s

/-- The write group that was granted in the ck before lands, unless it meets an error (R258, R265): of a group that
meets a conflict, the bytes for other streams stand (R266). -/
def landGroup (c : Nat) (s : State) : State :=
  let x := chan s c
  match runningRec s c with
  | some r =>
    if !groupDue s x then s
    else match writeError s c r with
      | none => landBytes c r x.landed x.wrote
          (setChan s c { x with landed := x.wrote, firstLand := if x.landed = 0 then s.now else x.firstLand })
      | some .conflict => landBytes c r x.landed x.wrote s
      | some _ => s
  | none => s

end Sys2Proof.Machine
end

