-- ==== Sys2Proof/Machine/Avocet.lean ====
section
/-!
DEFINITION. The family of Avocet: triggers (11 R254, R255), half and full completions (R260 to R264), bus
errors (R265, R266), what Avocet does in each ck (R257 to R259; notes/assumptions/24.md), and the age limits of
listener frames (12 R275) and of held messages (R277).
-/
namespace Sys2Proof.Machine

/-! ### Triggers and starts (R251, R254, R255, R258, R264) -/

/-- A transfer of the active descriptor begins: it asks for its first source read from ck `t` on. -/
def begin' (c t : Nat) (s : State) : State :=
  let x := chan s c
  setChan s c { ChanSt.init with
    status := .busy, active := x.active, shadow := x.shadow, triggers := x.triggers, activeFrom := x.activeFrom
    startedAt := t }

/-- A source in space 1 or 2 with no complete frame or message: the transfer is skipped, its channel keeps the
descriptor and waits for its next trigger (R264). -/
def skipTransfer (c : Nat) (r : DmaRec) (s : State) : State :=
  takeArrival c r (bumpChan c 2 (setChan s c { chan s c with status := .waiting }))

/-- The first read of a busy channel finds nothing to read. -/
def skipDue (s : State) (c : Nat) : Bool :=
  let x := chan s c
  match runningRec s c with
  | some r => decide (x.startedAt ≤ s.now) && x.issued == 0 && !sourceHeld s c r
  | none => false

def skipEmpty (c : Nat) (s : State) : State :=
  if skipDue s c then (match runningRec s c with | some r => skipTransfer c r s | none => s) else s

/-- The VC of an arrival trigger holds a message that the channel has not taken (R254, R255). -/
def arrived (s : State) (c : Nat) (r : DmaRec) : Bool :=
  (vc s (home s (r.arg % 32)) (r.arg / 32)).rxMsgs.any (fun m =>
    m.action == 0 && !m.taken.contains c && decide (m.doneAt < s.now))

/-- The channel waits for a trigger with a descriptor that is active. -/
def isWaiting (s : State) (c : Nat) : Bool :=
  (chan s c).status == .waiting && decide ((chan s c).activeFrom ≤ s.now)

/-- A waiting channel starts in this ck: trigger source 0, or a pending trigger (R251, step 3). -/
def startDue (s : State) (c : Nat) : Bool := isWaiting s c && ((chan s c).startsNow || (chan s c).pendingFlag)

/-- A trigger of the channel falls to be recognised: an edge in the ck after its trigger ck, an arrival in the ck
after one in which the waiting channel's VC held a message (R254, R255). -/
def triggerDue (s : State) (c : Nat) : Bool :=
  match awaited s c with
  | some r =>
    if r.trig = 4 then isWaiting s c && decide ((chan s c).activeFrom < s.now) && arrived s c r
    else (match (chan s c).triggers with | t :: _ => decide (t < s.now) | [] => false)
  | none => false

/-- Triggers of the first trigger ck are taken, as one. -/
def takeTrigger (c : Nat) (s : State) : State :=
  let x := chan s c
  match x.triggers with
  | t :: _ => setChan s c { x with triggers := x.triggers.filter (fun y => y != t) }
  | [] => s

/-- Another channel has still to take doorbell b. -/
def doorbellWaits (s : State) (b : Nat) : Bool :=
  (List.range 64).any (fun d => !(chan s d).triggers.isEmpty &&
    (match awaited s d with | some r => r.trig == 5 && r.arg == b | none => false))

/-- Doorbell b is consumed once every channel has taken it; a set in the same ck wins (10 R243, R245). -/
def consumeDoorbell (b : Nat) (s : State) : State :=
  let st := s.station
  if doorbellWaits s b || (st.rungAt == s.now && st.rung.getLsbD b) then s
  else { s with station := { st with doorbell := st.doorbell &&& ~~~((1 : Word) <<< b) } }

/-- The channel recognises a trigger (R255): a waiting one starts, its first source read 3 ck later (R258); a busy one
sets its pending flag or counts an overrun, as does one whose trigger fell before its descriptor was active (R270). -/
def recognise (c : Nat) (r : DmaRec) (s : State) : State :=
  let early := match (chan s c).triggers with | t :: _ => decide (t < (chan s c).activeFrom) | [] => false
  let s := if r.trig = 4 then s else takeTrigger c s
  let x := chan s c
  let s := if isWaiting s c && !early && !x.pendingFlag then begin' c (s.now + 3) s
    else if x.pendingFlag then bumpChan c 0 s
    else setChan s c { x with pendingFlag := true }
  if r.trig = 5 then consumeDoorbell r.arg s else s

/-- A channel's trigger is recognised where one is due, and it starts where a start is. -/
def serveTriggers (c : Nat) (s : State) : State :=
  let s := if triggerDue s c then (match awaited s c with | some r => recognise c r s | none => s) else s
  if startDue s c then begin' c s.now s else s

/-- AVOCET_TRIGGER (R255). -/
def execAvocetTrigger (c : Chan) (s : State) : Host.Outcome State Fault Refusal :=
  act (ckRuns s && s.avocet.running && (triggerDue s c.val || startDue s c.val)) (serveTriggers c.val) s

/-! ### Completions (R260, R261) -/

/-- An event frame of class AVOCET, merged per channel while its previous one waits (R260; 13 R299). -/
def reportFrame (c half : Nat) (s : State) : State :=
  sendEvent 2 c (leBytes 1 c ++ leBytes 1 half) (whenB (queuedEvent s 2 c).isSome (bumpChan c 4) s)

def completeHalf (c : Nat) (r : DmaRec) (s : State) : State :=
  let s := fire (fun d => d.trig == 2 && d.arg == c) s
  let s := if r.half && r.patn then raiseFlags 2 (1 <<< c) 0 0 s else s
  if r.half && r.hidEvent then reportFrame c 0 s else s

/-- The half completion's ck: the landed bytes first reach ceil(count / 2) (R260). -/
def halfDue (s : State) (c : Nat) : Bool :=
  match runningRec s c with
  | some r => !(chan s c).halfDone && decide (cdiv r.count 2 ≤ (chan s c).landed)
  | none => false

/-- The full completion's ck: the last byte has landed (R260). -/
def fullDue (s : State) (c : Nat) : Bool :=
  match runningRec s c with
  | some r => (chan s c).halfDone && decide (r.count ≤ (chan s c).landed)
  | none => false

def halfCompletion (c : Nat) (s : State) : State :=
  match runningRec s c with
  | some r => completeHalf c r (setChan s c { chan s c with halfDone := true })
  | none => s

/-- AVOCET_HALF_COMPLETION (R260). -/
def execAvocetHalfCompletion (c : Chan) (s : State) : Host.Outcome State Fault Refusal :=
  act (ckRuns s && s.avocet.running && halfDue (landGroup c.val s) c.val)
    (fun s => halfCompletion c.val (landGroup c.val s)) s

/-- Source side effects of a full completion with bit [31] (R261): the message is consumed and its credit
freed, the listener frame freed, or the capture entries read are popped. -/
def consumeSource (c : Nat) (r : DmaRec) (s : State) : State :=
  match r.srcSpace with
  | 1 =>
    let l := srcListener r
    let x := listener s l
    let id := (chan s c).srcId
    let gone := x.held.filter (fun f => f.1.id == id)
    each gone (fun f s => freeCells f.1.account f.1.cells s)
      (setListener s l { x with held := x.held.filter (fun f => f.1.id != id) })
  | 2 =>
    (match readingAt s c (srcLink r) (srcVc r) with
     | some i => discardMsg (home s (srcLink r)) (srcVc r) i s
     | none => s)
  | 3 =>
    let held := (chan s c).srcId
    each (List.range 3) (fun i s =>
      let n := held / 32 ^ i % 32
      let covered := fun (e : Nat) => decide (e < n) &&
        decide (srcOffset r < 0x200 * i + 32 * (e + 1)) && decide (0x200 * i + 32 * e < srcOffset r + r.count)
      let x := input s i
      setInput s i { x with captures := (x.captures.zipIdx.filter (fun y => !covered y.2)).map (·.1) }) s
  | _ => s

/-- A transfer whose words all landed in one bank feeds it (10 R239). -/
def feedRegion (c : Nat) (r : DmaRec) (s : State) : State :=
  if r.dstSpace ≠ 0 then s
  else match regionAt s (r.dst % 2 ^ 18 / 4) with
    | some (i, p, _) =>
      let x := region s i
      if x.last.isSome ∧ (chan s c).firstLand < x.swappedAt then s
      else if p.banked && x.bank || !p.banked then setRegion s i { x with fed0 := x.fed0 ++ [c] }
      else setRegion s i { x with fed1 := x.fed1 ++ [c] }
    | none => s

def completeFull (c : Nat) (r : DmaRec) (s : State) : State :=
  let s := fire (fun d => d.trig == 3 && d.arg == c) s
  let s := if r.full && r.patn then raiseFlags 4 0 (1 <<< c) 0 s else s
  if r.full && r.hidEvent then reportFrame c 1 s else s

/-- The next descriptor becomes active in the ck after the completion, and a pending trigger stays its own (R251,
R252, R270). -/
def nextTransfer (c : Nat) (s : State) : State :=
  let x := chan s c
  setChan s c (match x.shadow with
    | none => ChanSt.init
    | some d => activate c (s.now + 1) d s { ChanSt.init with pendingFlag := x.pendingFlag, triggers := x.triggers })

def fullCompletion (c : Nat) (s : State) : State :=
  match runningRec s c with
  | some r =>
    let s := feedRegion c r s
    let s := if srcTakes r then consumeSource c r s else s
    nextTransfer c (completeFull c r s)
  | none => s

/-- AVOCET_FULL_COMPLETION (R251, R252, R260 to R263; 10 R239). -/
def execAvocetFullCompletion (c : Chan) (s : State) : Host.Outcome State Fault Refusal :=
  act (ckRuns s && s.avocet.running && fullDue (landGroup c.val s) c.val)
    (fun s => fullCompletion c.val (landGroup c.val s)) s

/-- A channel's landing in this ck, with the completions that it makes (R260). -/
def landChannel (c : Nat) (s : State) : State :=
  let s := landGroup c s
  let s := if halfDue s c then halfCompletion c s else s
  if fullDue s c then fullCompletion c s else s

/-! ### Bus errors (R265, R266) -/

def busCode : BusCause → Nat | .ecc => 0 | .outside => 1 | .conflict => 2

/-- Uncommitted VC messages of a channel: those of which some byte has landed, but not the last. -/
def openMessages (s : State) (c : Nat) : Nat :=
  let n := (chan s c).landed
  match runningRec s c with
  | some r =>
    if r.dstSpace ≠ 2 then 0
    else if fanOut r then (if 0 < n ∧ n < r.count then dstRun r else 0)
    else if n % pieceLen r = 0 then 0 else 1
  | none => 0

/-- Open frame buffers and uncommitted messages are discarded, each counted (R266). -/
def discardAssemblies (s : State) : State :=
  let frames := (s.streams.filter (fun e => e.2.assembly.isSome)).length
  let messages := (s.chans.map (fun x => openMessages s x.1)).sum
  bumpBy 0x20 0 31 (frames + messages)
    { s with streams := s.streams.map (fun e => (e.1, { e.2 with assembly := none })) }

/-- What an uncorrectable error leaves: the words rewritten, the frame or message that holds them discarded
(R266; 15 R329). -/
def containError (c : Nat) (s : State) : State :=
  match runningRec s c with
  | none => s
  | some r =>
    let ws := returnedBad s c
    if ws.isEmpty then s
    else if r.srcSpace = 0 then
      each ws (fun w s => { judgeImage w s with
        avocet := { s.avocet with faultWords := s.avocet.faultWords ++ [w] } }) s
    else
      let code := if r.srcSpace = 1 then 0x20 else 0x21
      consumeSource c r (each ws (fun w s => clearUpset (sourceMemory r) 0 w (logFault code 0 (8 * w) s)) s)

/-- Every channel stops with its descriptor; a trigger not yet recognised is lost, but a doorbell (R255, R266). -/
def stopChannel (c : Nat) (s : State) : State :=
  let x := chan s c
  let doorbell := match awaited s c with | some r => r.trig == 5 | none => false
  let s := if doorbell then s else bumpBy 0x2A c 1 x.triggers.eraseDups.length s
  setChan s c { ChanSt.init with
    status := if x.status == .idle then .idle else .stopped, active := x.active, shadow := x.shadow }

/-- The stop: one for every error of its ck, logged with each cause (R266, R270). -/
def stopAvocet (s : State) : State :=
  let cs := s.chans.map (·.1)
  let errs := cs.filterMap (fun c => (busError s c).map (fun e => (c, e)))
  let s := discardAssemblies s
  let s := each (errs.map (·.1)) containError s
  let s := each cs stopChannel s
  let s := bumpDev 30 { s with avocet := { s.avocet with running := false, stopped := true, errNow := true } }
  each errs (fun e s => logFault 0x50 e.1
    (e.1 + busCode e.2.1 * 64 + e.2.2.1 * 256 + e.2.2.2 % 2 ^ 32 * 65536) s) s

/-- Some channel meets a bus error in this ck. -/
def stopDue (s : State) : Bool := s.chans.any (fun x => (busError s x.1).isSome)

/-- AVOCET_BUS_ERROR (R265, R266). -/
def execAvocetBusError (c : Chan) (w : BusCause) (s : State) : Host.Outcome State Fault Refusal :=
  act (ckRuns s && s.avocet.running && (match busError s c.val with | some e => e.1 == w | none => false))
    stopAvocet s

/-! ### Avocet in each ck (R254, R257 to R259) -/

/-- The EVT_IN triggers whose trigger ck has come (R254). -/
def edgesDue (s : State) : State :=
  let due := s.avocet.edges.filter (fun e => decide (e.1 ≤ s.now))
  each due (fun e s => fire (fun r => r.trig == 6 && bitsOf r.arg 0 1 == e.2.1 &&
      hasBit (bitsOf r.arg 1 2) (if e.2.2 then 0 else 1)) s)
    { s with avocet := { s.avocet with edges := s.avocet.edges.filter (fun e => decide (s.now < e.1)) } }

/-- The start of a ck: triggers are recognised, the write groups of the ck before land with their completions, and
the channels stop where one of them meets a bus error. -/
def avocetDuty (s : State) : State :=
  let s := edgesDue s
  if !s.avocet.running then s
  else
    let cs := s.chans.map (·.1)
    let s := each cs landChannel (each cs serveTriggers s)
    if stopDue s then stopAvocet s else s

/-- The end of a ck, after the host's writes have landed (01 R19): holding registers fill, and the write groups and
source reads that the ck grants are made (R257, R259). -/
def grantDuty (s : State) : State :=
  if !s.avocet.running then s
  else
    let cs := s.chans.map (·.1)
    let s := each cs fillHold (each cs skipEmpty s)
    if stopDue s then stopAvocet s
    else each cs snapSource (each (readGrants s) issueRead (each (writeGrants s) writeGroup s))

/-! ### Age limits (12 R275, R277) -/

/-- The oldest held frame of a listener stream is past its age limit, fixed at its t_f (16 R378). -/
def listenAged (s : State) (l : Nat) : Bool :=
  match (listener s l).held with
  | (_, t) :: _ => decide (t ≤ s.now)
  | [] => false

/-- The oldest held frame of a listener stream is discarded, where its age limit has come (12 R275). -/
def listenAge (l : Nat) (s : State) : State :=
  let x := listener s l
  if !listenAged s l then s
  else match x.held with
    | (f, _) :: rest => bumpListen l 10 (freeCells f.account f.cells (setListener s l { x with held := rest }))
    | [] => s

/-- LISTEN_AGE_DISCARD (12 R275). -/
def execListenAgeDiscard (l : Stream) (s : State) : Host.Outcome State Fault Refusal :=
  act (ckRuns s && listenAged s l.val) (listenAge l.val) s

/-- The oldest message of a VC that is two cycles past its completion, held for Avocet. -/
def agedMessage (s : State) (k v : Nat) : Option Nat :=
  findIx (fun m => m.action == 0 && decide (m.deadline ≤ s.now)) (vc s k v).rxMsgs 0

/-- A held message past its age limit is discarded, its credit freed (12 R277). -/
def poolAge (k v : Nat) (s : State) : State :=
  match agedMessage s k v with
  | some i => bumpVc k v 6 (discardMsg k v i s)
  | none => s

/-- LANEPOOL_AGE_DISCARD (12 R277). -/
def execLanepoolAgeDiscard (k : Link) (v : VC) (s : State) : Host.Outcome State Fault Refusal :=
  act (ckRuns s && (agedMessage s k.val v.val).isSome) (poolAge k.val v.val) s

/-- The age limits of a ck: after the completions of the ck, whose consumption stands, and before its source reads, so
that a channel takes the next message (12 R283). -/
def ageDuty (s : State) : State :=
  each (s.vcs.map (·.1)) (fun i => poolAge (i / 8) (i % 8)) (each (s.listeners.map (·.1)) listenAge s)

end Sys2Proof.Machine
end

