-- ==== Sys2Proof/Machine/HeronEvents.lean ====
section
/-!
DEFINITION. The family of Heron: cycle boundaries (01 R10, R11), gate entries (06 R119, R126), events (R125)
and the vote (R127 to R129).
-/
namespace Sys2Proof.Machine

/-- The last offset of the cycle that ends, in ck. -/
def lastOffset (s : State) : Nat := (s.heron.len - 1) / ckUnits

/-- Entries and events of the ending cycle that this ck passes over (01 R10). -/
def passedOver (go : Bool) (s : State) : State :=
  fireDue go (lastOffset s) (each (List.range 4) (fun p => takeGates p (lastOffset s)) s)

/-- A STEP alignment's cycle ends: h is gone (03 R59). -/
def endStep (s : State) : State :=
  if s.dunlin.stepCycle then { s with dunlin := { s.dunlin with stepCycle := false, h := 0 } } else s

/-- The length of the cycle that begins: C, or C + d under STEP (03 R59). -/
def beginCycle (s : State) : State :=
  if s.dunlin.stepPending then
    bumpDev 4 { s with
      dunlin := { s.dunlin with stepPending := false, stepCycle := true }
      heron := { s.heron with len := ((cycleUnits s : Int) + s.dunlin.h).toNat } }
  else { s with heron := { s.heron with len := cycleUnits s } }

/-- Entry 0 of every list, then the events at offset 0 (01 R10, steps 3 and 4). -/
def openCycle (go : Bool) (s : State) : State :=
  let s := setCopies (fun c => { c with nextEvent := 0 }) s
  fireDue go 0 (each (List.range 4) (fun p => takeGates p 0) s)

/-- A new boundary: the cycle counter increments and the offset restarts. -/
def countCycle (s : State) : State :=
  bumpDev 0 { s with
    heron := { s.heron with cycle := s.heron.cycle + 1, boundary := s.heron.boundary + s.heron.len } }

/-- What other blocks do at a boundary: the watchdog compares at the ck's end (10 R241), the unbanked regions,
Avocet. -/
def boundaryDuties (due : Bool) (s : State) : State :=
  let s := { s with station := { s.station with wdDue := true } }
  avocetBoundary due (unbankedStale s)

/-- A boundary in the order of 01 R10; no event fires where `go` is false. -/
def boundaryOf (go : Bool) (s : State) : State :=
  boundaryDuties s.avocet.dmaCommit
    (openCycle go (beginCycle (commitStep (countCycle (endStep (passedOver go s))))))

def boundary (s : State) : State := inOneCk boundaryOf s

/-- Heron time has reached the end of the cycle (05 R106). -/
def boundaryDue (s : State) : Bool :=
  s.heron.started && decide (s.heron.boundary + s.heron.len ≤ s.heron.acc)

/-- Heron's offset within the cycle, not beyond it. -/
def cycleOffset (s : State) : Nat := min (offset s) (lastOffset s)

/-- CYCLE_BOUNDARY (01 R10). -/
def execCycleBoundary (s : State) : Host.Outcome State Fault Refusal :=
  act (ckRuns s && boundaryDue s) boundary s

/-- GATE_ENTRY (06 R119). -/
def execGateEntry (p : Port) (s : State) : Host.Outcome State Fault Refusal :=
  act (ckRuns s && s.heron.started && gateDue s p.val (cycleOffset s)) (takeGates p.val (cycleOffset s)) s

/-- An event record is due in some live copy. -/
def eventDue (s : State) : Bool := (liveCopies s).any (fun c => !(dueEvents c (cycleOffset s)).isEmpty)

/-- HERON_EVENT (06 R125). -/
def execHeronEvent (s : State) : Host.Outcome State Fault Refusal :=
  act (ckRuns s && s.heron.started && eventDue s) (fun s => fireDue true (cycleOffset s) s) s

/-- Entries and events of this ck that have not acted yet: the entries first (06 R126). -/
def takeDue (go : Bool) (s : State) : State :=
  let off := cycleOffset s
  let s := each (List.range 4) (fun p s => if gateDue s p off then takeGates p off s else s) s
  if eventDue s || (liveCopies s).any (fun c => !c.firedFlip.isEmpty) then fireDue go off s else s

/-- Heron's own work in a ck: the boundary, then entries and events, in the order of R106 (01 R10, R15). -/
def heronWork (s : State) : State :=
  inOneCk (fun go s => takeDue go (if boundaryDue s then boundaryOf go s else s)) s

/-! ### Upsets in a copy (06 R127) -/

def flipBits (v bits : Nat) : Nat := v ^^^ bits

def changeCopy (i : Fin 3) (f : HeronCopy → HeronCopy) (s : State) : State :=
  let h := s.heron
  match i with
  | 0 => { s with heron := { h with copyA := f h.copyA } }
  | 1 => { s with heron := { h with copyB := f h.copyB } }
  | 2 => { s with heron := { h with copyC := f h.copyC } }

/-- A bit of an entry's word flips: the record under the key after it, and the bits that no record shows. -/
def flipGate (bit : Nat) (m : SMap GatesRec) (k : Nat) : SMap GatesRec × Nat :=
  match mFind m k with
  | some r =>
    let v := flipBits (leNat (gatesBytes r)) (2 ^ bit)
    let r' := gatesOf (leBytes 8 v)
    (mSet m k r', v ^^^ leNat (gatesBytes r'))
  | none => (m, 2 ^ bit)

def flipEvent (bit : Nat) (m : SMap EventsRec) (k : Nat) : SMap EventsRec × Nat :=
  match mFind m k with
  | some r =>
    let v := flipBits (leNat (eventsBytes r)) (2 ^ bit)
    let r' := eventsOf (leBytes 8 v)
    (mSet m k r', v ^^^ leNat (eventsBytes r'))
  | none => (m, 2 ^ bit)

/-- Flipped bits of a table word that no record shows. -/
def flipWord (w bits : Nat) (m : SMap Nat) : SMap Nat := mSet m w (mGetD m w 0 ^^^ bits)

def flipCopyGate (k bit : Nat) (shadow : Bool) (c : HeronCopy) : HeronCopy :=
  let x := flipGate bit (if shadow then c.shadowGates else c.gates) k
  let c := { c with flips := flipWord (k + (if shadow then 5120 else 0)) x.2 c.flips }
  if shadow then { c with shadowGates := x.1 } else { c with gates := x.1 }

def flipCopyEvent (k bit : Nat) (shadow : Bool) (c : HeronCopy) : HeronCopy :=
  let x := flipEvent bit (if shadow then c.shadowEvents else c.events) k
  let c := { c with flips := flipWord (4096 + k + (if shadow then 5120 else 0)) x.2 c.flips }
  if shadow then { c with shadowEvents := x.1 } else { c with events := x.1 }

/-- The set that a copy fires in this ck is upset: before its events of the ck, or of what it has fired. -/
def flipFired (r : Nat) (c : HeronCopy) : HeronCopy :=
  if c.fired.contains r then { c with fired := c.fired.filter (· != r) }
  else { c with firedFlip := if c.firedFlip.contains r then c.firedFlip.filter (· != r) else c.firedFlip ++ [r] }

def heronUpset (u : HeronUpset) (s : State) : State :=
  match u with
  | .gateBit i p e b shadow => changeCopy i (flipCopyGate (p.val * 1024 + e) b shadow) s
  | .eventBit i r b shadow => changeCopy i (flipCopyEvent r b shadow) s
  | .vector i p bits => changeCopy i (fun c =>
      { c with vector := c.vector.set p.val (c.vector.getD p.val 0xFF ^^^ bits) }) s
  | .hold i p => changeCopy i (fun c => { c with hold := c.hold.set p.val (!c.hold.getD p.val false) }) s
  | .entry i p bits => changeCopy i (fun c =>
      { c with entry := c.entry.set p.val (flipBits (c.entry.getD p.val 0) bits) }) s
  | .nextEvent i bits => changeCopy i (fun c => { c with nextEvent := flipBits c.nextEvent bits }) s
  | .fired i r => changeCopy i (flipFired r) s

/-- An upset of a ck's fired set. -/
def isFired : HeronUpset → Bool
  | .fired _ _ => true
  | _ => false

/-- One ck's vote under upsets: those of the fired sets strike the events of the ck, the others its outputs (06 R127
to R129). -/
def voteUnder (u : List HeronUpset) (s : State) : State :=
  let s := heronWork (each (u.filter isFired) heronUpset s)
  vote (each (u.filter (fun x => !isFired x)) heronUpset s)

/-- HERON_VOTE (06 R127). -/
def execHeronVote (u : List HeronUpset) (s : State) : Host.Outcome State Fault Refusal :=
  act (ckRuns s && s.heron.started) (voteUnder u) s

/-- Heron in each ck: its entries and events keep their ck whatever is commanded, and its copies are compared (01
R15; 06 R106, R127; notes/assumptions/2.md). -/
def heronDuty (s : State) : State := if s.heron.started then vote (heronWork s) else s

end Sys2Proof.Machine
end

