-- ==== Sys2Proof/Machine/Boot.lean ====
section
/-!
DEFINITION. The family of start-up: ladder, clear, OTP, flash layout, slot choice, CONFIG, WAIT_TIME, the
start of Heron, SERVICE and BARE entry (02 R34, R35; 03 R45 to R61; 04 R89; 15 R332).
-/
namespace Sys2Proof.Machine

/-! ### The ladder (02 R34 to R36, R43) -/

/-- The upper edges of the code bands in units of 0.1 mV (R35). -/
def ladderEdges : List Nat :=
  [231, 307, 411, 547, 730, 975, 1298, 1732, 2310, 3072, 4111, 5474, 7298, 9747, 12980, 20000]

/-- The code of a pin voltage; 16 is OPEN (R35). -/
def codeOf (tenthMv : Nat) : Nat := (ladderEdges.filter (fun e => decide (e ≤ tenthMv))).length

def sampleList (x : LadderSample) : List Nat :=
  [x.sidHi, x.sidLo, x.lplan, x.pmode0, x.pmode1, x.pmode2, x.pmode3, x.ltol]

/-- One reading of a pin: the fourth of a set settles it if all agree, the twelfth in any case (R34). -/
def readPin (taken v : Nat) (p : LadderPin) : LadderPin :=
  if p.settled then p
  else
    let set := p.set ++ [codeOf v]
    if set.length < 4 then { p with set := set }
    else if set.all (· == set.headD 0) then { code := set.headD 0, unstable := false, settled := true, set := [] }
    else if 11 ≤ taken then { code := 16, unstable := true, settled := true, set := [] }
    else { p with set := [] }

/-- The due instant of reading i: 100 us and every 50 us (R34). -/
def readingDue (i : Nat) : Nat := usCk (100 + 50 * i)

/-- Ports of the strap in BARE, and of CONFIG: put each mode in force. -/
def startPorts (s : State) : State := each (List.range 4) startPort s

/-- Lanes of the plan start training in DETECT (03 R56, 09 R213), with whatever their scramblers hold (08 R176). -/
def startLinks (s : State) : State :=
  let s := each (List.range 32) (fun n s =>
    drawFree (setLane s n { lane s n with txHist := Config.scramblerStart s.free })) s
  each (List.range 32) (fun k s =>
    if inPlan s k then setLink s k { LinkSt.init with
      st := .detect, beaconDue := s.now, stateDue := s.now + trainTimeout s k .detect } else s) s

/-- The measurement ends: sources off, LADDER_DONE, reserved PMODE codes counted, a held freeze taken
(R34, R38, R43; 17 R345). -/
def ladderEnds (s : State) : State :=
  let s := { s with ladder := { s.ladder with active := false, done := true } }
  let s := each (List.range 4) (fun p s =>
    if within 7 15 (ladderCode s (3 + p)) then bumpPort p 16 s else s) s
  let s := if inBare s then startLinks (startPorts s) else s
  if !s.freeze.held then s
  else if s.straps.freezeArm then
    latchFreeze true s.freeze.stampLocal s.freeze.stampWorking { s with freeze := { s.freeze with held := false } }
  else bumpDev 42 { s with freeze := { s.freeze with held := false } }

/-- LADDER_READING (R34). -/
def execLadderReading (x : LadderSample) (s : State) : Host.Outcome State Fault Refusal :=
  act (running s && s.ladder.active && decide (readingDue s.ladder.taken ≤ s.now)) (fun s =>
    let i := s.ladder.taken
    let pins := (List.range 8).map (fun j => readPin i ((sampleList x).getD j 0) (ladderPin s j))
    let bad := (List.range 8).filter (fun j => (pins.getD j LadderPin.init).unstable && !(ladderPin s j).unstable)
    let s := each bad (fun j s => bump 0x25 j 0 s) { s with ladder := { s.ladder with taken := i + 1, pins := pins } }
    if pins.all (fun p => p.settled) then ladderEnds s else s) s

/-! ### Early steps (03 R45, R46, R47) -/

/-- Every scrubber starts with CK: its first read is due 16 ck later (15 R327). -/
def startScrubs (s : State) : State :=
  each (List.range 6) (fun m s => { s with scrubs := mSet s.scrubs m { next := 0, due := s.now + 16 } }) s

/-- CORE_PLL_LOCK (R45): CK starts, and with it the clear of the image, one word per ck. -/
def execCorePllLock (s : State) : Host.Outcome State Fault Refusal :=
  act (running s && !s.boot.pllLocked) (fun s =>
    startScrubs { s with boot := { s.boot with pllLocked := true, clearDue := s.now + 65536 } }) s

/-- The announce frames of a phase entry: now on live ports, later on each port that first becomes live (R61). -/
def announcePhase (s : State) : State :=
  let s := each (List.range 4) (fun p s => setPort s p { port s p with announced := false }) s
  announce (announcePorts s) s

/-- The latched reset cause is logged, counted and cleared (15 R332). -/
def logCause (s : State) : State :=
  let t := { s with supply := { s.supply with cause := .empty } }
  match s.supply.cause with
  | .empty => s
  | .railBrownOut => logFault 0x82 0 0 (bumpDev 43 t)
  | .thermal => logFault 0x84 0 0 (bumpDev 44 t)
  | .xinLost => logFault 0x90 0 0 t

/-- The TIME settings of BARE (R60): both domains run; the values that no rule gives, the preferred domain and the
gPTP domain numbers among them, are constants of Config (notes/assumptions/19.md). -/
def bareTimeRec : TimeRec :=
  { noTime with
    en0 := true, en1 := true, preferred := Config.bareTime 6 % 2 == 1, gptp0 := Config.bareTime 7 % 128
    gptp1 := Config.bareTime 8 % 128, lockNs := Config.bareTime 0, lossMs := Config.bareTime 1
    logSync0 := -(Config.bareTime 2 : Int), logSync1 := -(Config.bareTime 2 : Int)
    mask0 := Config.bareTime 3, mask1 := Config.bareTime 4, ppsUs := Config.bareTime 5 }

/-- BARE entry (R51, R60): logged, counted; ports, lanes and both domains run at their straps. -/
def enterBare (s : State) : State :=
  let s := logCause (logFault 0x11 0 0 (bumpDev 13 s))
  let s := { s with
    tables := { emptyTables with time := bareTimeRec }
    dunlin := { s.dunlin with dom0 := { s.dunlin.dom0 with st := .acquire },
                              dom1 := { s.dunlin.dom1 with st := .acquire },
                              working := if bareTimeRec.preferred then 1 else 0 }
    hid := { s.hid with key := s.otp.mgmtKey }
    boot := { s.boot with phase := .bare, trying := none, runSlot := none, enteredAt := s.now } }
  announcePhase (if s.ladder.done then startLinks (startPorts s) else s)

/-- A command on the flash interface: chip select, command, address and dummy clocks (R45, R49). -/
def flashCommand (chip cmd addr dummies : Nat) (s : State) : State :=
  if s.supply.bankQ.unpowered then s else emit (.flashCmd s.now chip cmd addr dummies) s

/-- Words of the image are zero with valid check bits (R46). -/
def clearWords (lo n : Nat) (s : State) : State :=
  { s with
    mem := s.mem.filter (fun c => decide (c.1 < 4 * lo) || decide (4 * (lo + n) ≤ c.1))
    upsets := s.upsets.filter (fun u =>
      decide (u.1 < upsetKey .processImage 0 lo) || decide (upsetKey .processImage 0 (lo + n) ≤ u.1)) }

/-- PROCESS_IMAGE_CLEAR_DONE (R45, R46): 65,536 words at one per ck from the lock on, every word zero, BOOTPHASE
EARLY; the JEDEC IDs are asked for on QCS_N[1], then on QCS_N[0]. With OTP unreadable, BARE. -/
def execProcessImageClearDone (s : State) : Host.Outcome State Fault Refusal :=
  act (running s && s.boot.pllLocked && !s.boot.cleared && decide (s.boot.clearDue ≤ s.now)) (fun s =>
    let t := flashCommand 0 0x9F 0 0 (flashCommand 1 0x9F 0 0 (clearWords 0 65536
      { s with boot := { s.boot with cleared := true, phase := .early } }))
    if s.boot.otpBad then enterBare t else t) s

def maj1 {w : Nat} (a b c : BitVec w) : BitVec w := (a &&& b) ||| (a &&& c) ||| (b &&& c)

/-- The majority of three reads of the OTP's fields (R47). -/
def majOtp (a b c : OtpBits) : OtpBits :=
  { serial := maj1 a.serial b.serial c.serial, mgmtKey := maj1 a.mgmtKey b.mgmtKey c.mgmtKey,
    hash0 := maj1 a.hash0 b.hash0 c.hash0, hash1 := maj1 a.hash1 b.hash1 c.hash1,
    hash2 := maj1 a.hash2 b.hash2 c.hash2, hash3 := maj1 a.hash3 b.hash3 c.hash3,
    programmed := maj1 a.programmed b.programmed c.programmed,
    revoked := maj1 a.revoked b.revoked c.revoked, floor := maj1 a.floor b.floor c.floor }

def orOtp (a b : OtpBits) : OtpBits :=
  { serial := a.serial ||| b.serial, mgmtKey := a.mgmtKey ||| b.mgmtKey, hash0 := a.hash0 ||| b.hash0,
    hash1 := a.hash1 ||| b.hash1, hash2 := a.hash2 ||| b.hash2, hash3 := a.hash3 ||| b.hash3,
    programmed := a.programmed ||| b.programmed, revoked := a.revoked ||| b.revoked,
    floor := a.floor ||| b.floor }

def fullOtp : OtpBits :=
  { serial := BitVec.allOnes 64, mgmtKey := BitVec.allOnes 128, hash0 := BitVec.allOnes 256,
    hash1 := BitVec.allOnes 256, hash2 := BitVec.allOnes 256, hash3 := BitVec.allOnes 256,
    programmed := BitVec.allOnes 4, revoked := BitVec.allOnes 4, floor := BitVec.allOnes 127 }

/-- Every logical bit has a majority of blown or of unblown fuses (R47). -/
def otpReadable (a b c : FuseRead) : Bool :=
  orOtp (majOtp a.one b.one c.one) (majOtp a.zero b.zero c.zero) == fullOtp

/-- What a readable OTP holds: at the first reading the majority of its fuses, as manufacture left them; from then
on the same, but for what the device has blown (R47). -/
def fuseContent (a b c : FuseRead) (s : State) : OtpBits := s.fuses.getD (majOtp a.one b.one c.one)

/-- OTP_READ_DONE (R47). With OTP unreadable no rule says what serial, floor and capability chain the device shows:
the model shows zeros (DESIGN CHOICE, notes/assumptions/41.md). -/
def execOtpReadDone (a b c : FuseRead) (s : State) : Host.Outcome State Fault Refusal :=
  act (running s && !s.boot.otpRead) (fun s =>
    if otpReadable a b c then
      { s with otp := fuseContent a b c s, fuses := some (fuseContent a b c s)
               boot := { s.boot with otpRead := true } }
    else
      let t := logFault 0x12 0 0 (bumpDev 15 { s with
        otp := OtpBits.init
        boot := { s.boot with otpRead := true, otpBad := true, resultA := 0xF, resultB := 0xF } })
      if s.boot.cleared then enterBare t else t) s

/-! ### Slots (03 R49 to R52) -/

def chipThere (id : BitVec 24) : Bool := id != 0 && id != 0xFFFFFF

/-- A stand-down word with an odd number of zero bits (R50). -/
def stoodDown (w : BitVec 32) : Bool := (32 - popCount 32 w.toNat) % 2 == 1

def slotNum : Slot → Nat | .a => 0 | .b => 1
def otherSlot : Slot → Slot | .a => .b | .b => .a
def standWord (s : State) (x : Slot) : BitVec 32 := match x with | .a => s.boot.standA | .b => s.boot.standB

def setResult (x : Slot) (code : Nat) (s : State) : State :=
  match x with
  | .a => { s with boot := { s.boot with resultA := code } }
  | .b => { s with boot := { s.boot with resultB := code } }

def firstSlot (s : State) : Slot := if s.straps.bootSlot then .b else .a

/-- A slot that failed its checks: its code recorded and logged (R52; 15 R333, R335). -/
def recordFail (x : Slot) (r : SlotResult) (s : State) : State :=
  let s := setResult x r.code s
  logFault 0x10 (slotNum x)
    (r.code + (if r.code = 8 then r.entry % 256 * 256 + r.record % 2 ^ 32 * 65536 else 0))
    { s with boot := { s.boot with failed := true } }

/-- Slot B is absent: never read, code 0x1 (R49). -/
def slotAbsent (s : State) (x : Slot) : Bool := x == .b && !s.boot.slotBPresent

/-- The slot to try after one has failed: the other, then a passed-over slot, then none (R51). -/
def nextSlot (s : State) (x : Slot) : Option Slot :=
  match s.boot.passedOver with
  | none => if x = firstSlot s then some (otherSlot x) else none
  | some y => if x = y then none else some y

/-- Where a slot lies: its chip select and base address (R49). -/
def slotBase (s : State) (x : Slot) : Nat × Nat :=
  if s.boot.twoChip then (slotNum x, 0) else (0, if x = .b then 0x800000 else 0)

/-- A slot is read with command 0xEB, a 24-bit address and 6 dummy clocks (R49). -/
def readSlot (x : Slot) (s : State) : State := flashCommand (slotBase s x).1 0xEB (slotBase s x).2 6 s

/-- Try a slot; an absent one fails at once, and the next is tried or BARE entered. -/
def trySlots : Nat → Option Slot → State → State
  | 0, _, s => enterBare s
  | _, none, s => enterBare s
  | n + 1, some x, s =>
    if slotAbsent s x then trySlots n (nextSlot s x) (recordFail x (slotFails 1) s)
    else readSlot x { s with boot := { s.boot with
      trying := some x,
      phase := if x = firstSlot s ∧ s.boot.passedOver.isNone then .loadFirst else .loadSecond } }

/-- The stand-down words: as the flash shows them at their first reading, from then on as this device has left them
(R50). -/
def standWords (standA standB : BitVec 32) (s : State) : BitVec 32 × BitVec 32 :=
  if s.boot.standKnown then (s.boot.standA, s.boot.standB) else (standA, standB)

/-- JEDEC_ID_READ_DONE (R49, R51): the flash layout, an absent slot B's code 0x1, then the first slot or, stood
down, the other. -/
def execJedecIdReadDone (id1 id0 : BitVec 24) (standA standB : BitVec 32) (s : State) :
    Host.Outcome State Fault Refusal :=
  act (running s && s.boot.phase == .early && s.boot.otpRead && !s.boot.otpBad && !s.boot.jedecDone) (fun s =>
    let two := chipThere id1
    let s := { s with boot := { s.boot with
      jedecDone := true, twoChip := two, chip0 := chipThere id0, chip1 := two,
      slotBPresent := two || decide (0x18 ≤ id0.toNat % 256) || !chipThere id0,
      resultB := if two || decide (0x18 ≤ id0.toNat % 256) || !chipThere id0 then s.boot.resultB else 1
      standKnown := true, standA := (standWords standA standB s).1, standB := (standWords standA standB s).2 } }
    let f := firstSlot s
    if stoodDown (standWord s f) && !slotAbsent s f then
      trySlots 3 (some (otherSlot f))
        (setResult f 0xA { s with boot := { s.boot with passedOver := some f } })
    else trySlots 3 (some f) s) s

/-- A slot's chip answers (R49). -/
def chipAnswers (s : State) (x : Slot) : Bool := if s.boot.twoChip && x == .b then s.boot.chip1 else s.boot.chip0

def checkRegion (s : State) (x : Slot) (r : SlotRead) : SlotResult :=
  if slotAbsent s x then slotFails 1 else checkSlot s { r with answers := r.answers && chipAnswers s x }

/-- A check that ended before anything the straps decide was judged: header, length, read, key, signature or
rollback (R52). The later checks wait for the ladder, whose readings they use. -/
def earlyFailure (c : SlotResult) : Bool := c.image.isNone && within 1 6 c.code

/-! ### CONFIG and WAIT_TIME (03 R56, R57; 04 R89) -/

/-- The key record of this device, unwrapped (04 R89). -/
def stationKey (s : State) (i : Image) : Option (BitVec 128) :=
  match i.keys.find? (fun k => k.serial == s.otp.serial) with
  | some k => keyUnwrap s.otp.mgmtKey k.wrapped
  | none => none

/-- The station key, or the management key with its fault (04 R89). -/
def installKey (i : Image) (s : State) : State :=
  match stationKey s i with
  | some k => { s with hid := { s.hid with key := k } }
  | none => logFault 0x13 0 0 (bumpDev 18 { s with hid := { s.hid with key := s.otp.mgmtKey } })

/-- Both domains start (05 R104, R105). -/
def startDomains (t : TimeRec) (s : State) : State :=
  { s with dunlin := { s.dunlin with
    dom0 := { s.dunlin.dom0 with st := if t.en0 then .acquire else .disabled },
    dom1 := { s.dunlin.dom1 with st := if t.en1 then .acquire else .disabled },
    working := if t.en0 && t.en1 then (if t.preferred then 1 else 0) else if t.en1 then 1 else 0 } }

/-- Every meter with full credit and its initial gate (06 R139, R140). -/
def startMeters (s : State) : State :=
  each s.tables.police (fun x s =>
    setMeter s x.1 { tat := tatOf (now24 s), gate := !x.2.gated || x.2.initOpen }) s

/-- Receive buffers of the mapped VCs (08 R194). -/
def startVcs (s : State) : State :=
  each s.tables.vcmap (fun x s => setVc s (x.1 / 8) (x.1 % 8) { VcSt.init with bv := x.2.units }) s

/-- The elimination state of every pair resets at CONFIG (08 R201). -/
def startPairs (s : State) : State :=
  each ((List.range 16).filter (fun j => inPlan s (2 * j) && eliminates s (2 * j)))
    (fun j => each (List.range 8) (resetPair j)) s

def startStreams (tat : BitVec 72) (s : State) : State :=
  each s.tables.streams (fun x s =>
    setStream s x.1 { StreamSt.init with tat := tat, threshold := initialThreshold s x.2 }) s

/-- The tables go into every block and every Heron copy (R56). -/
def loadTables (i : Image) (s : State) : State :=
  let s := { s with tables := i.tables }
  setCopies (fun c => { c with gates := i.tables.gates, events := i.tables.events }) s

/-- CONFIG begins (R56): the tables go into every block, ports, lanes and both domains start, so that a link-up or a
lock of CONFIG is met (R64). -/
def configBegins (i : Image) (s : State) : State :=
  let s := startDomains i.tables.time (loadTables i s)
  let s := startLinks (startPorts (each (List.range 4) countRaise s))
  startStreams 0 (startPairs (startVcs (startMeters s)))

/-- The accepted image runs: CONFIG begins (R56; 04 R70, R83). -/
def acceptSlot (x : Slot) (i : Image) (s : State) : State :=
  let s := if s.boot.failed then bumpDev 12 s else s
  let s := bumpBy 0x20 0 17 i.linkAbsent (bumpBy 0x20 0 16 i.ignored (setResult x 0 s))
  configBegins i
    { s with boot := { s.boot with phase := .config, runSlot := some x, image := some i, trying := none } }

/-- SLOT_CHECK_DONE (R51, R52). -/
def execSlotCheckDone (r : SlotRead) (s : State) : Host.Outcome State Fault Refusal :=
  act (running s && (match s.boot.trying with
      | some x => s.ladder.done || earlyFailure (checkRegion s x r) | none => false)) (fun s =>
    match s.boot.trying with
    | none => s
    | some x =>
      let c := checkRegion s x r
      match c.image with
      | some i => acceptSlot x i s
      | none => trySlots 3 (nextSlot s x) (recordFail x c s)) s

/-- CONFIG ends (R56): the station key is unwrapped and WAIT_TIME begins. -/
def configEnds (i : Image) (s : State) : State :=
  let s := installKey i s
  announcePhase { s with boot := { s.boot with
    phase := .waitTime, enteredAt := s.now, configEnd := s.now, startCond := false } }

/-- CONFIG_DONE (R56). -/
def execConfigDone (s : State) : Host.Outcome State Fault Refusal :=
  act (running s && s.boot.phase == .config) (fun s =>
    match s.boot.image with | some i => configEnds i s | none => s) s

/-- LOCAL_TIMEOUT (R57): the timeout counts from the end of CONFIG. -/
def execLocalTimeout (s : State) : Host.Outcome State Fault Refusal :=
  act (running s && s.boot.phase == .waitTime && !s.boot.startCond && s.tables.time.policy == 1 &&
    decide (s.boot.configEnd + msCk s.tables.time.timeoutMs ≤ s.now)) (fun s =>
    { s with boot := { s.boot with startCond := true } }) s

/-! ### The start of Heron and SERVICE entry (03 R46, R48, R58; 06 R133) -/

/-- The phase of H on the grid of base time and cycle (R58). -/
def gridPhase (s : State) : Nat :=
  ((heronTime s - baseTime s.tables.time) % (cycleUnits s : Int)).toNat

/-- A grid instant falls in this ck: H has passed one since the ck before, in which it stood one increment lower. -/
def gridHere (s : State) : Bool := decide (gridPhase s < beneathInc s)

/-- Heron's own clock takes H; limits counted on it move with it. -/
def setHeronClock (s : State) : State :=
  let acc := (heronTime s).toNat
  let move := fun (x : Nat) => x + acc / ckUnits - hck s
  { s with
    heron := { s.heron with acc := acc, boundary := acc - gridPhase s }
    coarse := acc / ckUnits / 8192
    classQ := s.classQ.map (fun e => (e.1, e.2.map (fun f =>
      { f with arrival := move f.arrival, deadline := move f.deadline })))
    meters := s.meters.map (fun e => (e.1, { e.2 with tat := tatOf (tatAt s e.2.tat + (acc / ckUnits * 2 ^ 24 : Nat) - now24 s) })) }

/-- Inbound regions zeroed and stale, every region on bank 0 (R46; 10 R237, R239). -/
def enterRegions (s : State) : State :=
  each s.tables.pimap (fun x s =>
    let s := setRegion s x.1 { RegionSt.init with stale := x.2.kind == 0 }
    if x.2.kind = 0 then each (areas x.2) (fun a => clearWords a.1 a.2) s else s) s

/-- The revoked bits of the lower key slots that the image names are blown (R48). -/
def revokeKeys (s : State) : State :=
  match s.boot.image with
  | some i =>
    let mask := i.revoke % 2 ^ i.keySlot
    blowOtp { s.otp with revoked := s.otp.revoked ||| BitVec.ofNat 4 mask } s
  | none => s

/-- SERVICE entry (R46, R62; 10 R241; 11 R250; 15 R332). -/
def enterService (s : State) : State :=
  let s := enterRegions s
  let s := { s with
    station := { s.station with lastHeartbeat := s.station.heartbeat, wdMiss := 0 }
    dunlin := { s.dunlin with dom0 := { s.dunlin.dom0 with lockedSince := s.dunlin.dom0.st == .locked },
                              dom1 := { s.dunlin.dom1 with lockedSince := s.dunlin.dom1.st == .locked } }
    boot := { s.boot with phase := .service, enteredAt := s.now, startedLocal := !s.dunlin.rebased } }
  announcePhase (revokeKeys (logCause (startAvocet s)))

/-- The first boundary: cycle 1, streams with full credit, entry 0 and the events at offset 0 (R58; 06 R133). -/
def startHeron (s : State) : State :=
  let s := setHeronClock s
  let s := bumpDev 0 { s with heron := { s.heron with started := true, cycle := 1, len := cycleUnits s } }
  openCycle true (enterService (startStreams (tatOf (epochTat s)) (endPauses s)))

/-- HERON_START (R58). -/
def execHeronStart (s : State) : Host.Outcome State Fault Refusal :=
  act (running s && s.boot.phase == .waitTime && (s.boot.startCond || timeLock s) && gridHere s) startHeron s

end Sys2Proof.Machine
end

