-- ==== Sys2Proof/Machine/Dziak.lean ====
section
/-!
DEFINITION. The family of the Dziak link: packets received and delivered (08 R186 to R188, R201, R202; 12
R277), acknowledgement (R189, R190, R197), replay (R191), link down (R193), sending and credit (R195, R196),
audit (R198), and discarded control blocks (R180).
-/
namespace Sys2Proof.Machine

/-- A link carries packets: the serdes run, the link is ACTIVE, not in BARE (03 R60). -/
def carries (s : State) (k : Nat) : Bool := serdesRun s && (link s k).st == .active && !inBare s

/-- A packet's cost in units of 64 bytes (R194). -/
def packetCost (len : Nat) : Nat := cdiv len 64

/-! ### Tunnelled frames (12 R277; 07 R158, R162) -/

/-- A stream has a frame buffer for a message of VC `key`. -/
def canOpen (s : State) (key q : Nat) : Bool :=
  match mFind s.tables.streams q with
  | some r => (mFind (stream s q).tunnels key).isNone && decide (buffersInUse s q < r.buffers)
  | none => false

/-- Open a frame buffer of a stream for VC `key`. -/
def openTunnel (key q : Nat) (s : State) : State :=
  let cut := match mFind s.tables.streams q with | some r => r.cutThrough | none => false
  let f := { plainFrame s.frameIds [] 0 0 with stream := some q, whole := false, ended := false, cut := cut }
  let x := stream s q
  setStream { s with frameIds := s.frameIds + 1 } q { x with tunnels := mSet x.tunnels key f }

/-- A tunnelled frame arrives in its stream queue: marked by its deadline. -/
def tunnelArrives (key q : Nat) (f : Frame) (s : State) : State :=
  let d := match mFind s.tables.streams q with | some r => r.deadline | none => 0
  let x := stream s q
  arriveFrame q f (setStream s q { x with tunnels := mSet x.tunnels key { f with deadline := hck s + d } })

/-- The start threshold in bytes is reached before the frame's end (R158). -/
def reachesThreshold (s : State) (q : Nat) (f : Frame) : Bool :=
  match mFind s.tables.streams q with
  | some r =>
    let t := 64 * (stream s q).threshold
    f.cut && f.deadline == 0 && decide (t < r.maxFrame) && decide (t ≤ f.bytes.length)
  | none => false

/-- Bytes are copied into VC `key`'s open frame, in every copy of it. -/
def appendTunnel (key q : Nat) (bytes : List Byte) (s : State) : State :=
  match mFind (stream s q).tunnels key with
  | some f =>
    let s := updateFrame f.id q (fun g => { g with bytes := g.bytes ++ bytes }) s
    (match mFind (stream s q).tunnels key with
     | some g => if reachesThreshold s q g then tunnelArrives key q g s else s
     | none => s)
  | none => s

/-- The last byte of VC `key`'s frame is committed: the carried FCS leaves its bytes, and it is whole where that is
good, else left for TUNNEL_FCS_ERROR or TUNNEL_OVERLENGTH. -/
def closeTunnel (key q : Nat) (s : State) : State :=
  match mFind (stream s q).tunnels key with
  | none => s
  | some f =>
    let good := !tunnelTooLong s q f && fcsGood f.bytes
    let close := fun (g : Frame) => { g with
      bytes := frameBody g.bytes, ended := true, whole := good, carriedBad := !fcsGood f.bytes }
    let s := updateFrame f.id q close s
    if good then
      let s := if f.deadline = 0 then arriveFrame q (close f) s else s
      let x := stream s q
      placeStream q (setStream s q { x with tunnels := mErase x.tunnels key })
    else s

/-- One waiting message of VC v of link h goes to its stream, where a buffer is free. -/
def pourOne (h v : Nat) (s : State) : State :=
  let x := vc s h v
  let key := 8 * h + v
  match x.rxMsgs.find? (fun m => m.action == 1) with
  | some m =>
    if canOpen s key m.queue then
      let s := setVc s h v { x with rxMsgs := x.rxMsgs.eraseP (fun m => m.action == 1) }
      freeMsg h v m (closeTunnel key m.queue (appendTunnel key m.queue m.bytes (openTunnel key m.queue s)))
    else s
  | none =>
    match x.rxOpen with
    | some m =>
      if m.action = 1 ∧ !m.poured ∧ !m.skip ∧ canOpen s key m.queue then
        let s := setVc s h v { x with rxOpen := some { m with
          poured := true, bytes := [], packets := 0, units := 0, mateUnits := 0 } }
        freeMsg h v m (appendTunnel key m.queue m.bytes (openTunnel key m.queue s))
      else s
    | none => s

/-- Every waiting message of a tunnelled VC for which there is a buffer. -/
def pour (h v : Nat) (s : State) : State :=
  each (List.range ((vc s h v).rxMsgs.length + 1)) (fun _ => pourOne h v) s

/-! ### Delivery (R187, R201, R202) -/

/-- What discards an accepted packet by its VCMAP action, with its count; none delivers it. -/
def actionDrop (s : State) (k v action queue kind : Nat) : Option (State → State) :=
  if action = 2 then some (bumpVc k v 3)
  else if action = 1 then
    if kind = 0 then some (bumpVc k v 2)
    else if !s.heron.started then some (bumpStream queue 2)
    else none
  else none

/-- A packet joins a message: into its open frame, or into the lane receive pool. -/
def joinMsg (k h v : Nat) (m : Msg) (eom : Bool) (payload : List Byte) (cost : Nat) (s : State) : State :=
  let key := 8 * h + v
  let x := vc s h v
  if m.poured then
    let s := freeUnits k v cost (appendTunnel key m.queue payload s)
    if eom then closeTunnel key m.queue (setVc s h v { vc s h v with rxOpen := none }) else s
  else
    let m := { m with bytes := m.bytes ++ payload
                      packets := m.packets + 1
                      units := if k = h then m.units + cost else m.units
                      mateUnits := if k = h then m.mateUnits else m.mateUnits + cost }
    let s := if eom then
        setVc s h v { x with rxOpen := none
                             rxMsgs := x.rxMsgs ++ [{ m with doneAt := s.now, deadline := s.now + 2 * oneCycle s }] }
      else setVc s h v { x with rxOpen := some m }
    if m.action = 1 then pour h v s else s

/-- The open message gives way to a new SOM: discarded whole (R187). -/
def dropOpen (k h v : Nat) (s : State) : State :=
  match (vc s h v).rxOpen with
  | some m =>
    let s := bumpVc k v 0 (setVc s h v { vc s h v with rxOpen := none })
    freeMsg h v m (whenB m.poured (orphanTunnel (8 * h + v)) s)
  | none => s

/-- An accepted packet of a mapped VC, after pair elimination. -/
def deliverPacket (k v : Nat) (r : VcmapRec) (hdr : Block) (payload : List Byte) (cost : Nat) (s : State) : State :=
  let h := home s k
  if s.avocet.halted && r.action == 0 then freeUnits k v cost (bumpVc k v 7 s)
  else
    let s := if hdrSom hdr then dropOpen k h v s else s
    let fresh : Msg :=
      { kind := hdrKind hdr, bytes := [], packets := 0, units := 0, mateUnits := 0, doneAt := 0, deadline := 0, taken := [],
        readBy := [], fresh := true, mateFresh := true, action := r.action, queue := r.queue, poured := false, skip := false }
    match (if hdrSom hdr then some fresh else (vc s h v).rxOpen) with
    | none => freeUnits k v cost (bumpVc k v 0 s)
    | some m =>
      let left := fun (m : Msg) (s : State) =>
        freeUnits k v cost (setVc s h v { vc s h v with rxOpen := if hdrEom hdr then none else some m })
      match actionDrop s k v m.action m.queue (hdrKind hdr) with
      | some count => left { m with skip := true } (count s)
      | none =>
        if m.skip ∨ (m.poured ∧ (mFind (stream s m.queue).tunnels (8 * h + v)).isNone) then
          left { m with skip := true } s
        else joinMsg k h v m (hdrEom hdr) payload cost s

/-- The outcome of pair elimination for a sequence number (R201). -/
inductive PairOutcome where
  | passed | duplicate | rogue
deriving DecidableEq, Repr

def eliminate (x : PairSt) (p : Nat) : PairOutcome :=
  let d := (p + 65536 - x.last) % 65536
  if x.isReset ∨ (1 ≤ d ∧ d ≤ 32767) then .passed
  else if d = 0 ∨ 65536 - 31 ≤ d then .duplicate
  else .rogue

/-- Pair elimination of an accepted packet, then its delivery. -/
def pairPacket (k v : Nat) (r : VcmapRec) (hdr : Block) (payload : List Byte) (cost : Nat) (s : State) : State :=
  let j := k / 2
  match eliminate (pair s j v) (hdrPseq hdr) with
  | .passed =>
    let x := pair s j v
    deliverPacket k v r hdr payload cost (bumpPair j v 0 (setPair s j v { x with
      last := hdrPseq hdr, isReset := false, lastPass := s.now }))
  | .duplicate => freeUnits k v cost (bumpPair j v 1 s)
  | .rogue => freeUnits k v cost (bumpPair j v 2 s)

/-- An accepted packet's KIND and VC (R187, R196, R202). -/
def takePacket (k v : Nat) (hdr : Block) (payload : List Byte) (cost : Nat) (s : State) : State :=
  if 2 ≤ hdrKind hdr then freeUnits k v cost (bumpLink k 19 s)
  else match vcRec s k v with
    | none => freeUnits k v cost (bumpVc k v 1 s)
    | some r =>
      if eliminates s k then pairPacket k v r hdr payload cost s
      else deliverPacket k v r hdr payload cost s

/-! ### Acceptance (R186 to R189) -/

/-- The counter under which a packet fails at its tail (R188): header, CRC, or none. -/
def packetFails (hdr : Block) (data : List Block) (tail : Block) : Option Nat :=
  if hdrLen hdr = 0 ∨ 256 < hdrLen hdr ∨ data.length ≠ cdiv (hdrLen hdr) 8 then some 1
  else if tailCrc tail ≠ packetCrc hdr (blockBytes (hdrLen hdr) data) (bf tail 0 32) then some 0
  else none

/-- The open packet fails: counted, and in NORMAL, which becomes ERROR, answered with one NAK (R188). -/
def failPacket (k counter : Nat) (s : State) : State :=
  let s := bumpLink k counter s
  if (link s k).rxError then s else sendNak k (setLink s k { link s k with rxError := true })

/-- An in-sequence packet has buffer room; a VC without a record takes it in any case (R187, R196). -/
def hasRoom (s : State) (k v cost : Nat) : Bool :=
  let x := vc s k v
  (vcRec s k v).isNone || decide (unitsHeld x + cost ≤ x.bv + x.hold)

/-- U counts an accepted packet, and reaching A sends an ACK (R189). -/
def countAccepted (k : Nat) (s : State) : State :=
  let r := lanesRec s k
  let x := link s k
  let s := setLink s k { x with
    rxU := x.rxU + 1, ackDue := if x.rxU = 0 then some (s.now + nsCk r.ackNs) else x.ackDue }
  if r.ackCount ≤ x.rxU + 1 then sendAck k s else s

/-- An in-sequence packet is accepted: S advances, forward progress (R187, R192). -/
def acceptPacket (k : Nat) (hdr : Block) (payload : List Byte) (s : State) : State :=
  let v := hdrVc hdr
  let cost := packetCost payload.length
  let s := setLink s k { link s k with rxS := hdrSeq hdr, rxError := false, retrains := 0 }
  let s := setVc s k v { vc s k v with ac := ((vc s k v).ac + cost) % 65536 }
  countAccepted k (takePacket k v hdr payload cost s)

/-- A packet free of error, sorted by its SEQ (R186). -/
def sortPacket (k : Nat) (hdr : Block) (payload : List Byte) (s : State) : State :=
  let x := link s k
  if hdrSeq hdr = (x.rxS + 1) % 4096 then
    if hasRoom s k (hdrVc hdr) (packetCost payload.length) then acceptPacket k hdr payload s
    else failPacket k 16 s
  else if (x.rxS + 4096 - hdrSeq hdr) % 4096 ≤ 2046 then sendAck k (bumpLink k 2 s)
  else bumpLink k 3 s

/-- A block that carries S and a credit return is applied in the order of R197. -/
def applyReturn (k sNum : Nat) (crv : Bool) (v cl : Nat) (empty : Bool) (s : State) : State :=
  let s := releaseUpTo k sNum s
  if crv then takeCredit k v cl empty s else s

/-- A whole packet: its tail's S and credit return, then its place in the sequence. -/
def receivePacket (k : Nat) (hdr : Block) (data : List Block) (tail : Block) (s : State) : State :=
  match packetFails hdr data tail with
  | some n => failPacket k n s
  | none =>
    let s := applyReturn k (tailS tail) true (tailVc tail) (tailCl tail) (tailEmpty tail) s
    if (link s k).st = .active then sortPacket k hdr (blockBytes (hdrLen hdr) data) s else s

/-- What the striped sequence yields, in order, while the link stays ACTIVE. -/
def receiveEvent (k : Nat) (e : RxEvent) (s : State) : State :=
  if (link s k).st ≠ .active then s
  else match e with
    | .failed n => failPacket k n s
    | .packet hdr data tail => receivePacket k hdr data tail s

/-- A block on a lane (R176, R177): descrambled, and in error where its parity or sync header is bad, which counts, or
where the lane's block before it was. A lane's first block only synchronises its descrambler. -/
def readLane (n : Nat) (w : LaneWord) (s : State) : Option (Nat × Block) × State :=
  let x := lane s n
  let y := descramble (x.rxHist.getD 0) (wordBody w)
  let t := setLane s n { x with rxHist := some y.2, rxBad := !wordGood w }
  (if wordGood w && !x.rxBad then some (if x.rxHist.isSome then wordSync w else syncControl,
      if x.rxHist.isSome then y.1 else 0x1E) else none,
    whenB (!wordGood w) (bumpLane n 0) t)

/-- The blocks of a row in ascending lane order, none for a block in error. -/
def readLanes : List (Nat × LaneWord) → State → List (Option (Nat × Block)) × State
  | [], s => ([], s)
  | (n, w) :: r, s =>
    let x := readLane n w s
    let y := readLanes r x.2
    (x.1 :: y.1, y.2)

/-- A row of a link: its lane-local blocks are taken out, the rest goes through the striped sequence (R178, R188). -/
def readRow (k : Nat) (row : List LaneWord) (s : State) : List RxEvent × State :=
  let x := readLanes ((maskLanes s k (link s k).finalMask).zip row) s
  let y := frameRow (x.1.any Option.isNone) (link s k).rxFrame
    ((x.1.filterMap id).filter (fun b => !laneLocal b.1 b.2))
  (y.2, setLink x.2 k { link x.2 k with rxFrame := y.1 })

/-- Rows in the order in which they came in. -/
def readRows (k : Nat) : List (List LaneWord) → State → List RxEvent × State
  | [], s => ([], s)
  | row :: r, s =>
    let x := readRow k row s
    let y := readRows k r x.2
    (x.1 ++ y.1, y.2)

/-- PACKET_RECEIVED (R186): the rows that have come in on the link's active lanes since its last one, in order: those
before the packet's HDR, the row of its HDR, those between, and the row of its tail. They are read as one sequence,
whatever stands in which (R183). Blocks in them that belong to no packet act by commands of their own. -/
def execPacketReceived (k : Link) (before head middle last : Rows) (s : State) : Host.Outcome State Fault Refusal :=
  act (carries s k.val &&
      (before ++ head ++ middle ++ last).all (fun r => r.length == popCount 8 (link s k.val).finalMask)) (fun s =>
    let x := readRows k.val (before ++ head ++ middle ++ last) s
    each x.1 (receiveEvent k.val) x.2) s

/-- PAIR_RESET_TIMEOUT (R201): 1 ms with nothing passed. -/
def execPairResetTimeout (j : PairIx) (v : VC) (s : State) : Host.Outcome State Fault Refusal :=
  act (ckRuns s && !inBare s && eliminates s (2 * j.val) && inPlan s (2 * j.val) && !(pair s j.val v.val).isReset &&
    decide ((pair s j.val v.val).lastPass + msCk 1 ≤ s.now)) (resetPair j.val v.val) s

/-! ### Acknowledgement and replay (R189 to R193) -/

/-- ACK_TIMER (R189). -/
def execAckTimer (k : Link) (s : State) : Host.Outcome State Fault Refusal :=
  act (carries s k.val && (match (link s k.val).ackDue with | some t => decide (t ≤ s.now) | none => false))
    (sendAck k.val) s

/-- The fields of a block that carries S: S, CRV, VC, CL, EMPTY. An AUDIT returns no credit. -/
def returnOf (kind : SKind) (b : Block) : Nat × Bool × Nat × Nat × Bool :=
  match kind with
  | .tail => (tailS b, true, tailVc b, tailCl b, tailEmpty b)
  | .audit => (ackS b, false, 0, 0, false)
  | _ => (ackS b, ackCrv b, ackVc b, ackCl b, ackEmpty b)

/-- A block is of a kind, with its check good; a tail's check is its packet's. -/
def blockGood (kind : SKind) (b : Block) : Bool :=
  match kind with
  | .tail => true
  | .ack => blockType b == 0x33 && crc8Good b
  | .nak => blockType b == 0x3C && crc8Good b
  | .audit => blockType b == 0x55 && crc8Good b

/-- ACK_RECEIVED (R197): what any block carrying S does by itself. -/
def execAckReceived (k : Link) (kind : SKind) (body : Block) (s : State) : Host.Outcome State Fault Refusal :=
  act (carries s k.val && blockGood kind body) (fun s =>
    let (n, crv, v, cl, empty) := returnOf kind body
    applyReturn k.val n crv v cl empty s) s

/-- A NAK in the ck of the timer's episode: the one episode is the NAK's, so the other's count is taken back (R207). -/
def undoTimer (k : Nat) (s : State) : State :=
  let x := link s k
  match x.store with
  | p :: rest => setLink s k { x with store := { p with count := p.count - 1 } :: rest }
  | [] => s

/-- NAK_RECEIVED (R191): release up to its S, then an episode from S + 1. -/
def execNakReceived (k : Link) (body : Block) (s : State) : Host.Outcome State Fault Refusal :=
  act (carries s k.val && blockGood .nak body) (fun s =>
    let again := (link s k.val).timerAt == some s.now
    let s := applyReturn k.val (ackS body) (ackCrv body) (ackVc body) (ackCl body) (ackEmpty body)
      (whenB again (undoTimer k.val) (bumpLink k.val 5 s))
    if (link s k.val).st = .active then startEpisode k.val (!again) s else s) s

/-- REPLAY_TIMEOUT (R191). -/
def execReplayTimeout (k : Link) (s : State) : Host.Outcome State Fault Refusal :=
  act (carries s k.val && (match replayDue s k.val with | some t => decide (t ≤ s.now) | none => false))
    (fun s => startEpisode k.val true
      (bumpLink k.val 7 (setLink s k.val { link s k.val with timerAt := some s.now }))) s

/-- LINK_DOWN (R192, R193; 09 R219, R220): M retrains without progress, or no lane left. -/
def execLinkDown (k : Link) (s : State) : Host.Outcome State Fault Refusal :=
  let x := link s k.val
  act (ckRuns s && x.st != .off && x.st != .detect &&
    (decide ((lanesRec s k.val).limitM ≤ x.retrains) || keptLanes s k.val == 0))
    (declareDown k.val x.lastCause false) s

/-! ### Sending (R183 to R185, R190, R195) -/

/-- Bytes of a stored packet: HDR and payload blocks (R190). -/
def storedBytes (p : Stored) : Nat := 8 + 8 * cdiv p.payload.length 8

/-- The store takes one more packet (R190). -/
def storeRoom (s : State) (k len : Nat) : Bool :=
  let x := link s k
  decide (x.store.length < 2047) &&
    decide ((x.store.map storedBytes).sum + 8 + 8 * cdiv len 8 ≤ width s k * 16384)

/-- The VC whose credit a tail returns: the next of the rotation with unreported frees, else the next (R196). -/
def tailReturn (s : State) (k : Nat) : Nat := ((unreported s k).orElse (fun _ => (rotation s k).head?)).getD 0

/-- The tail of a packet built now: S and a credit return (R185, R191). -/
def tailNow (s : State) (k : Nat) (hdr : Block) (payload : List Byte) : Block :=
  let v := tailReturn s k
  mkTail hdr payload (link s k).rxS v (creditLimit (vc s k v)) (vcEmpty (vc s k v))

/-- A packet's blocks go to the lanes: built now, crossed 16 ck later (R183, R203). -/
def emitPacket (k seq : Nat) (hdr : Block) (payload : List Byte) (s : State) : State :=
  let x := link s k
  noteReturn k (tailReturn s k) (noteS k (setLink s k { x with
    sending := x.sending ++ packetBlocks s.now (s.now + 16) seq hdr payload (tailNow s k hdr payload) }))

/-- The next packet of a replay episode (R191); a marked one takes the link down (15 R329). -/
def resend (k e : Nat) (s : State) : State :=
  let x := link s k
  match x.store.dropWhile (fun p => p.seq != e) with
  | [] => setLink s k { x with episode := none }
  | p :: rest =>
    if p.marked then declareDown k 0 false s
    else
      let s := emitPacket k e p.hdr p.payload s
      setLink s k { link s k with episode := rest.head?.map (·.seq) }

/-- The head message of a VC has credit for its next packet (R195). -/
def hasCredit (s : State) (k v : Nat) : Bool :=
  let x := vc s k v
  match x.txQ with
  | m :: _ => decide (packetCost (min 256 (m.bytes.length - m.pos)) ≤ (x.cl + 65536 - x.c) % 65536)
  | [] => false

/-- The VC that sends next: strict priority, VC 7 highest. -/
def pickVc (s : State) (k : Nat) : Option Nat := classesDown8.find? (hasCredit s k)
where classesDown8 : List Nat := [7, 6, 5, 4, 3, 2, 1, 0]

/-- Send a VC's next new packet: a SEQ, credit charged, kept in the replay store. -/
def sendNew (k v : Nat) (m : TxMsg) (rest : List TxMsg) (s : State) : State :=
  let n := min 256 (m.bytes.length - m.pos)
  let payload := slice m.bytes m.pos n
  let x := link s k
  let y := vc s k v
  let pseq := if planPairs (plan s) then m.pseq + m.pos / 256 else 0
  let hdr := mkHdr x.txSeq v n m.kind (m.pos == 0) (m.pos + n == m.bytes.length) pseq
  let s := setVc s k v { y with
    c := (y.c + packetCost n) % 65536
    txQ := if m.pos + n = m.bytes.length then rest else { m with pos := m.pos + n } :: rest }
  let s := emitPacket k x.txSeq hdr payload s
  let z := link s k
  let p : Stored := { seq := x.txSeq, vc := v, cost := packetCost n, hdr := hdr, payload := payload, count := 0,
                      sentAt := none, charged := false, marked := false }
  setLink s k { z with txSeq := (x.txSeq + 1) % 4096, store := z.store ++ [p] }

/-- The packets in progress leave the lanes within the 16 ck that the next one takes to cross (R203). -/
def pathFree (s : State) (k : Nat) : Bool :=
  let x := link s k
  x.sending.isEmpty ||
    decide (x.rowDue + cdiv x.sending.length (max 1 (popCount 8 x.finalMask)) * slotCk x.rate ≤ s.now + 16)

/-- The transmitter is awake and the way to the lanes free. -/
def mayPacket (s : State) (k : Nat) : Bool :=
  let x := link s k
  carries s k && !x.asleep && decide (x.wakeEnd ≤ s.now) && pathFree s k

/-- The head message of the VC that sends next fits the replay store. -/
def newReady (s : State) (k : Nat) : Bool :=
  match pickVc s k with
  | some v => (match (vc s k v).txQ with
    | m :: _ => storeRoom s k (min 256 (m.bytes.length - m.pos)) | [] => false)
  | none => false

/-- PACKET_SEND (R195): a replay episode's next packet first, else a new one. -/
def execPacketSend (k : Link) (s : State) : Host.Outcome State Fault Refusal :=
  act (mayPacket s k.val && ((link s k.val).episode.isSome || newReady s k.val)) (fun s =>
    match (link s k.val).episode with
    | some e => resend k.val e s
    | none =>
      match pickVc s k.val with
      | some v => (match (vc s k.val v).txQ with | m :: rest => sendNew k.val v m rest s | [] => s)
      | none => s) s

/-- Position of the first message that waits for credit for its first packet beyond its queue deadline: one
behind another, or the head where it lacks credit (R195). -/
def waitsTooLong (s : State) (k v : Nat) : Option Nat :=
  ((vc s k v).txQ.zipIdx.find? (fun e =>
    e.1.pos == 0 && decide (e.1.deadline < s.now) && (e.2 != 0 || !hasCredit s k v))).map (·.2)

/-- CREDIT_WAIT_DEADLINE (R195): counted, a Spoonbill frame in `spoonbill.vc_drop` too (07 R155). -/
def execCreditWaitDeadline (k : Link) (v : VC) (s : State) : Host.Outcome State Fault Refusal :=
  act (ckRuns s && (waitsTooLong s k.val v.val).isSome) (fun s =>
    match waitsTooLong s k.val v.val with
    | some i =>
      let x := vc s k.val v.val
      let s := bumpVc k.val v.val 4 (setVc s k.val v.val { x with txQ := x.txQ.eraseIdx i })
      if (x.txQ[i]?.map (·.kind)) = some 1 then bumpDev 28 s else s
    | none => s) s

/-! ### Credit return and audit (R196, R198) -/

/-- Unreported frees reach a quarter of Bv, or a time limit of R196 has passed. -/
def returnDue (s : State) (k v : Nat) : Bool :=
  let x := vc s k v
  let n := (x.freed + 65536 - x.reported) % 65536
  (decide (0 < n) && decide (x.bv ≤ 4 * n)) ||
    (match x.firstFree with | some t => decide (t + usCk 1 ≤ s.now) | none => false) ||
    decide (x.lastReturn + usCk 100 ≤ s.now)

/-- CREDIT_RETURN (R196). -/
def execCreditReturn (k : Link) (v : VC) (s : State) : Host.Outcome State Fault Refusal :=
  act (carries s k.val && (vcRec s k.val v.val).isSome && returnDue s k.val v.val)
    (sendAckFor k.val (some v.val)) s

/-- An AUDIT for one VC: S and AC sampled together. -/
def auditVc (k v : Nat) (s : State) : State :=
  noteS k (queueControl k (mkAudit (link s k).rxS v (vc s k v).ac) s)

/-- AUDIT_SEND (R198): one for each buffered VC, in ascending order. -/
def execAuditSend (k : Link) (s : State) : Host.Outcome State Fault Refusal :=
  act (carries s k.val && (lanesRec s k.val).auditUs != 0 && decide ((link s k.val).auditDue ≤ s.now)) (fun s =>
    let vs := (List.range 8).filter (fun v => (vcRec s k.val v).isSome)
    let s := if vs.isEmpty then s else wakeLink k.val s
    let s := each vs (auditVc k.val) s
    setLink s k.val { link s k.val with auditDue := s.now + usCk (lanesRec s k.val).auditUs }) s

/-- The leak that an AUDIT shows, signed (R198). -/
def auditDelta (x : VcSt) (ac : Nat) : Int := signedOf 16 ((x.cRel + 65536 - ac) % 65536)

/-- The correction of an AUDIT, or the retrain in its place. -/
def applyAudit (k v ac : Nat) (s : State) : State :=
  let x := vc s k v
  let d := auditDelta x ac
  if d = 0 then s
  else if x.partnerBv < d.natAbs then startRetrain k 2 0xFF false (bumpLink k 14 s)
  else
    bumpBy 0x27 k 13 d.natAbs (setVc s k v { x with c := (((x.c : Int) - d) % 65536).toNat })

/-- AUDIT_RECEIVED (R198): ignored where its S lies behind the release point. -/
def execAuditReceived (k : Link) (body : Block) (s : State) : Host.Outcome State Fault Refusal :=
  act (carries s k.val && blockGood .audit body) (fun s =>
    if 2047 < beyond s k.val (ackS body) then bumpLink k.val 15 s
    else applyAudit k.val (auditVcOf body) (auditAc body) (releaseUpTo k.val (ackS body) s)) s

/-! ### Discarded control blocks (R180) -/

/-- Types whose CRC-8 the receiver checks. -/
def checkedType (t : Nat) : Bool :=
  t == 0x33 || t == 0x3C || t == 0x55 || t == 0x5A || within 0x80 0x87 t

/-- Types that a link in a state expects: IDLE and CAL always; packets' blocks and TS1 in ACTIVE; training
blocks in training. -/
def expectedType (st : LinkState) (t : Nat) : Bool :=
  t == 0x1E || t == 0x99 ||
    (if st = .active then t == 0x2D || t == 0x33 || t == 0x3C || t == 0x55 || t == 0x5A || t == 0x80
     else within 0x80 0x87 t)

/-- CONTROL_BLOCK_DISCARD (R180). -/
def execControlBlockDiscard (k : Link) (body : Block) (s : State) : Host.Outcome State Fault Refusal :=
  let t := blockType body
  let st := (link s k.val).st
  act (serdesRun s && st != .off && (!expectedType st t || (checkedType t && !crc8Good body)))
    (bumpLink k.val (if expectedType st t then 18 else 17)) s

end Sys2Proof.Machine
end

