-- ==== Sys2Proof/Machine/Wheel.lean ====
section
/-!
DEFINITION. The family of the calendar wheel (06 R131 to R135, R141), deadlines (R137), and transmission:
the selection with its admission test (R120 to R124), pre-emption (R121; 07 R149, R151), and a frame's end.
-/
namespace Sys2Proof.Machine

/-! ### The wheel (R134, R141) -/

/-- Streams whose fine slot has been reached, each with its slot, in stream order. -/
def dueStreams (s : State) : List (Nat × Nat) :=
  s.streams.filterMap (fun x =>
    match x.2.place with
    | .fine k => if 8 * k ≤ hck s then some (k, x.1) else none
    | _ => none)

/-- The first due stream: the lowest slot, and in it the lowest stream queue number. -/
def firstDue (s : State) : Option Nat :=
  ((dueStreams s).foldl (fun b x =>
    match b with
    | none => some x
    | some y => if x.1 < y.1 then some x else some y) none).map (·.2)

/-- Releases made in this ck. -/
def releasesNow (s : State) : Nat := if s.released.1 = s.now then s.released.2 else 0

/-- A release is counted to its ck. -/
def noteRelease (s : State) : State := { s with released := (s.now, releasesNow s + 1) }

/-- Release the first due stream's head frame, at most 8 in a ck (R134); the deadline check comes first (R144). -/
def releaseNext (s : State) : State :=
  let s := each (dueStreams s) (fun x => dropLate x.2) s
  match firstDue s with
  | some q => if releasesNow s < 8 then noteRelease (releaseHead q s) else s
  | none => s

/-- WHEEL_SLOT (R134). -/
def execWheelSlot (s : State) : Host.Outcome State Fault Refusal :=
  act (ckRuns s && s.heron.started) (each (List.range 8) (fun _ => releaseNext)) s

/-- A stream of the coarse ring whose slot has started moves to the fine ring. -/
def coarseToFine (now' q : Nat) (s : State) : State :=
  match (stream s q).place with
  | .coarse k => if k ≤ now' then placeStream q s else s
  | _ => s

/-- A coarse revolution starts: the long list is rechecked, and no TAT stays behind the present (R134, R141). -/
def revolution (s : State) : State :=
  let up := fun (t : BitVec 72) => tatOf (max (tatAt s t) (now24 s))
  let s := { s with
    meters := s.meters.map (fun e => (e.1, { e.2 with tat := up e.2.tat }))
    streams := s.streams.map (fun e => (e.1, { e.2 with tat := up e.2.tat })) }
  each (s.streams.map (·.1)) (fun q s => if (stream s q).place = .long then placeStream q s else s) s

/-- COARSE_SLOT (R134). -/
def execCoarseSlot (s : State) : Host.Outcome State Fault Refusal :=
  act (ckRuns s && s.heron.started && decide (s.coarse < hck s / 8192)) (fun s =>
    let c := hck s / 8192
    let t := if s.coarse / 1024 = c / 1024 then s else revolution s
    each (t.streams.map (·.1)) (coarseToFine c) { t with coarse := c }) s

/-! ### Deadlines (R137) -/

/-- The head of a stream queue or class queue. -/
def headOf (s : State) (q : QueueRef) : Option Frame :=
  match q with
  | .stream q => (stream s q.val).queue.head?
  | .cls p c => (classQueue s p.val c.val).head?

/-- Discard a head that is past its deadline, with its counts. -/
def expireHead (q : QueueRef) (f : Frame) (s : State) : State :=
  match q with
  | .stream q => expireStream q.val f s
  | .cls p c =>
    let s := setClassQueue s p.val c.val ((classQueue s p.val c.val).drop 1)
    match f.stream with
    | some q => releaseFrame f (bumpCopy q p.val 0 s)
    | none => releaseFrame f (bumpClass p.val c.val 5 s)

/-- DEADLINE_EXPIRY (R137; 12 R281). -/
def execDeadlineExpiry (q : QueueRef) (s : State) : Host.Outcome State Fault Refusal :=
  act (ckRuns s && (match headOf s q with | some f => lateHead s f | none => false))
    (fun s => match headOf s q with | some f => expireHead q f s | none => s) s

/-! ### The admission test (R122 to R124) -/

/-- The offset of the first entry after entry `k` that closes a class, before the end of the cycle. `at'` is
the offset of the list's head. -/
def closeIn (c limit : Nat) : List GatesRec → Nat → Nat → Option Nat
  | [], _, _ => none
  | g :: r, skip, at' =>
    if skip = 0 ∧ !g.vector.getLsbD c then (if at' < limit then some at' else none)
    else closeIn c limit r (skip - 1) (at' + g.interval)

/-- What is left of the cycle, in ck, as offsets are counted. -/
def cycleLeft (s : State) : Nat := lastOffset s + 1 - cycleOffset s

/-- The tables of the cycle that follows: the committed ones where a commit takes effect there (R124). DESIGN CHOICE
(log entry 43): a pending commit's epoch is the coming boundary where the working domain's count, advanced by the
Heron time left in the cycle, reaches the commit's time; the spec does not say how the search knows. -/
def nextTables (s : State) : Tables :=
  match s.commit with
  | some c =>
    if c.time ≤ workingCount s + (s.heron.boundary + s.heron.len - s.heron.acc) then
      stagedTables s (stagedSet s c.number)
    else s.tables
  | none => s.tables

/-- The class's next close, its cycle and offset: none where the class has no close (R124). -/
def nextClose (s : State) (p c : Nat) : Option (Nat × Nat) :=
  if !s.heron.started || s.heron.safe then none
  else
    let g := gateList s.tables p
    match closeIn c (lastOffset s + 1) g (entryAt g (cycleOffset s) 0 0 + 1) 0 with
    | some o => some (s.heron.cycle, o)
    | none =>
      let t := nextTables s
      (closeIn c t.time.cycle (gateList t p) 0 0).map (fun o => (s.heron.cycle + 1, o))

/-- From now to a close in ck of Heron time. -/
def closeDistance (s : State) (x : Nat × Nat) : Nat :=
  if x.1 = s.heron.cycle then x.2 - cycleOffset s else cycleLeft s + x.2

/-- L of a class queue's copy (R123). -/
def admissionLen (s : State) (p : Nat) (f : Frame) : Nat :=
  if 0 < f.sent then frameLen f - f.sent + 1
  else if f.whole then frameLen f
  else match f.stream with
    | some q => (match mFind s.tables.streams q with | some r => r.maxFrame | none => maxFrame s p)
    | none => maxFrame s p

/-- D of a frame in ck of Heron time: longer while ALIGNING is 1 (R122). -/
def admissionCk (s : State) (p : Nat) (f : Frame) : Nat :=
  let d := wireCk (port s p) (admissionLen s p f)
  if aligning s then d + cdiv d 8192 else d

/-- A frame passes the test, and has not failed it before this close: it is tested again when its class next
opens (R124). -/
def admitted (s : State) (p c : Nat) (f : Frame) : Bool :=
  match nextClose s p c with
  | some x => (port s p).deferred.getD c none != some (f.id, x) && decide (admissionCk s p f ≤ closeDistance s x)
  | none => true

/-! ### Selection (R120, R121) -/

/-- The frame that class c would send next: its pre-empted one, or the head of its queue. -/
def nextFrame (s : State) (p c : Nat) : Option Frame :=
  match (port s p).preempted with
  | some (k, f) => if k = c then some f else (classQueue s p c).head?
  | none => (classQueue s p c).head?

/-- A class that may not start while another's frame waits pre-empted, or while hold is in force (R121). -/
def heldBack (s : State) (p c : Nat) : Bool :=
  preemptActive s p && !isExpress s p c &&
    (holdFlag s p || (match (port s p).preempted with | some (k, _) => k != c | none => false))

/-- A frame may be sent: complete or cut through, within its deadline unless a fragment has left (R137). -/
def sendable (s : State) (f : Frame) : Bool :=
  (f.whole || f.cut) && !f.carriedBad && (decide (0 < f.sent) || decide (hck s ≤ f.deadline))

/-- A class is paused: never one that is gated, and from the ck after the pause came in on (07 R152, R174). -/
def paused (s : State) (p c : Nat) : Bool :=
  decide (s.now < (port s p).pausedUntil.getD c 0) && decide ((port s p).pausedAt.getD c 0 < s.now) && !gated s p c

/-- A frame of the class waits pre-empted: it was selected before, and completes under a pause (07 R152). -/
def resumes (s : State) (p c : Nat) : Bool :=
  match (port s p).preempted with | some (k, _) => k == c | none => false

/-- A class is open, not paused and has a frame to send, the admission test apart. -/
def classReady (s : State) (p c : Nat) : Bool :=
  (gateVector s p).getLsbD c && (!paused s p c || resumes s p c) && !heldBack s p c &&
    (match nextFrame s p c with | some f => sendable s f | none => false)

def classAdmitted (s : State) (p c : Nat) : Bool :=
  classReady s p c && (match nextFrame s p c with | some f => admitted s p c f | none => false)

/-- The highest class of a list, 7 first, that may send. -/
def pickClass (s : State) (p : Nat) (l : List Nat) : Option Nat := l.find? (classAdmitted s p)

def classesDown : List Nat := [7, 6, 5, 4, 3, 2, 1, 0]

/-- A class fails the admission test: its frame waits for the class's next opening, counted once per close
(R124). -/
def deferClass (p c : Nat) (s : State) : State :=
  if classReady s p c && !classAdmitted s p c then
    let x := port s p
    let was := x.deferred.getD c none
    match nextFrame s p c, nextClose s p c with
    | some f, some n =>
      whenB (was.map (·.2) != some n) (bumpClass p c 0) (setPort s p { x with
        deferred := x.deferred.set c (some (f.id, n)) })
    | _, _ => s
  else s

/-- The frame goes onto the wire: its first bit reaches the PCS 25 ck later (R120), and its words are read
(15 R329). -/
def startFrame (p c : Nat) (f : Frame) (s : State) : State :=
  let x := port s p
  let again := match x.preempted with | some (k, _) => k == c | none => false
  let s := if again then s else setClassQueue s p c ((classQueue s p c).drop 1)
  transmitRead f (setPort s p { port s p with
    tx := some { cls := c, express := isExpress s p c && !again, frame := { f with started := true }, start := s.now + 25, ends := .frame, finish := 0 }
    preempted := if again then none else x.preempted })

/-- IEEE 802.3br lets a frame be pre-empted here (R121): the fragment has its minimum, and 64 bytes or more
are left of what has come so far. A frame keeps the treatment it was selected with (07 R174). -/
def mayPreempt (s : State) (p : Nat) (t : Tx) : Bool :=
  let n := bytesOut (port s p) t s.now
  let add := match portsRec s p with | some r => r.addFrag | none => 0
  preemptActive s p && !t.express && t.ends == .frame &&
    decide (64 * (1 + add) - 4 ≤ n) && decide (t.frame.sent + n + 64 ≤ frameLen t.frame)

/-- A MAC Control frame or an express frame waits, or hold is in force. -/
def wantsWire (s : State) (p : Nat) : Bool :=
  holdFlag s p || !(port s p).control.isEmpty || (pickClass s p (classesDown.filter (isExpress s p))).isSome

/-- The bytes of a fragment with its mCRC: the CRC of the frame so far, its low half inverted (IEEE 802.3br; log
entry 8). -/
def withMcrc (sent : Nat) (bytes : List Byte) : List Byte := bytes.drop sent ++ leBytes 4 (crc32 bytes ^^^ 0xFFFF)

/-- The pre-emptable frame in progress ends as a fragment, with its mCRC and gap. -/
def cutFragment (p : Nat) (t : Tx) (s : State) : State :=
  let x := port s p
  let n := t.frame.sent + bytesOut x t s.now
  emit (.mpacket s.now p x.smdFrame (if t.frame.sent = 0 then none else some x.smdFrag)
      (withMcrc t.frame.sent (t.frame.bytes.take n)))
    (setPort s p { x with
      smdFrag := if t.frame.sent = 0 then 0 else (x.smdFrag + 1) % 4
      tx := some { t with
        ends := .fragment, finish := s.now + cdiv (24 * byteCk100 x) 100, frame := { t.frame with sent := n } } })

/-- A MAC Control frame goes onto the idle wire: express, in any gate state (07 R153). Class 8 names none. -/
def startControl (p : Nat) (b : List Byte) (s : State) : State :=
  let x := port s p
  let f := { plainFrame s.frameIds b (hck s) (hck s) with started := true }
  setPort { s with frameIds := s.frameIds + 1 } p { x with
    control := x.control.drop 1
    tx := some { cls := 8, express := true, frame := f, start := s.now + 25, ends := .frame, finish := 0 } }

/-- Selection on an idle wire. -/
def selectFrame (p : Nat) (s : State) : State :=
  match pickClass s p classesDown with
  | some c =>
    let t := each (classesDown.filter (fun k => decide (c < k))) (deferClass p) s
    (match nextFrame s p c with | some f => startFrame p c f t | none => t)
  | none => each classesDown (deferClass p) s

/-- A port may send: live, awake, its serdes running. -/
def mayTransmit (s : State) (p : Nat) : Bool :=
  let x := port s p
  x.live && !x.lowPower && decide (x.sendAfter ≤ s.now)

/-- TRANSMIT_SELECTION (R120 to R124). -/
def execTransmitSelection (p : Port) (s : State) : Host.Outcome State Fault Refusal :=
  act (ckRuns s && mayTransmit s p.val) (fun s =>
    match (port s p.val).tx with
    | none => (match (port s p.val).control with | b :: _ => startControl p.val b s | [] => selectFrame p.val s)
    | some t => if mayPreempt s p.val t && wantsWire s p.val then cutFragment p.val t s else s) s

/-! ### The end of a sending -/

/-- The transmit path is free again: D after the selection, or at a fragment's or a stomp's end. -/
def sendingOver (s : State) (p : Nat) (t : Tx) : Bool :=
  match t.ends with
  | .frame => t.frame.whole && decide (t.start + wireCk (port s p) (frameLen t.frame - t.frame.sent) ≤ s.now + 25)
  | _ => decide (t.finish ≤ s.now)

/-- A SLOT SWITCH response has left: the reset follows 1 ms later (13 R297). -/
def noteSent (id : Nat) (s : State) : State :=
  match s.hid.switch with
  | some w =>
    if w.answer = some id then
      { s with hid := { s.hid with switch := some { w with resetAt := some (s.now + msCk 1) } } }
    else s
  | none => s

/-- A frame has been sent whole with a good FCS: counted, and its cells freed with its last copy (12 R274;
13 R304). -/
def frameSent (p : Nat) (t : Tx) (s : State) : State :=
  let f := t.frame
  let s := emit (endOf s p t (withFcs f.bytes)) (bumpPort p 19 s)
  let s := match f.stream with | some q => bumpCopy q p 5 s | none => s
  noteSent f.id (releaseFrame f s)

/-- A pre-emptable frame is over: the next has the next frame count (IEEE 802.3br). -/
def nextSmd (p : Nat) (t : Tx) (s : State) : State :=
  let x := port s p
  if t.express then s else setPort s p { x with smdFrame := (x.smdFrame + 1) % 4, smdFrag := 0 }

/-- TRANSMIT_COMPLETE. -/
def execTransmitComplete (p : Port) (s : State) : Host.Outcome State Fault Refusal :=
  act (ckRuns s && (match (port s p.val).tx with | some t => sendingOver s p.val t | none => false)) (fun s =>
    match (port s p.val).tx with
    | none => s
    | some t =>
      let s := setPort s p.val { port s p.val with tx := none, idleSince := s.now }
      match t.ends with
      | .frame => nextSmd p.val t (frameSent p.val t s)
      | .fragment => setPort s p.val { port s p.val with preempted := some (t.cls, t.frame) }
      | .stomp => nextSmd p.val t (releaseFrame t.frame s)) s

end Sys2Proof.Machine
end

