-- ==== Sys2Proof/Machine/Ethernet.lean ====
section
/-!
DEFINITION. The family of the Ethernet ports: reception, Spoonbill, policing and recovery (07 R147, R154 to
R157, R166; 06 R139; 12 R273, R275, R276), pause (07 R152, R153), pre-emption (R150, R151), port down and up
(R168 to R172), and the stomp (R159 to R162).
-/
namespace Sys2Proof.Machine

/-! ### Reception (07 R147, R157; 12 R273) -/

/-- A received frame on its way: port, receive class, bytes with FCS, cells charged to its account. -/
structure Rx where
  port : Nat
  cls : Nat
  bytes : List Byte
  cells : Nat
deriving DecidableEq, Repr

def rxAccount (x : Rx) : Option Nat := some (8 * x.port + x.cls)

/-- Discard a received frame: its cells are freed. -/
def dropRx (x : Rx) (s : State) : State := freeCells (rxAccount x) x.cells s

/-- The MAC's own counters in their order; none for a good frame (R147). -/
def macError (s : State) (p : Nat) (bytes : List Byte) (codeError : Bool) : Option Nat :=
  if codeError then some 3
  else if bytes.length < 64 then some 1
  else if maxFrame s p < bytes.length then some 2
  else if !fcsGood bytes then some 0
  else none

/-- Frames that Dunlin takes, and that Spoonbill never sees (R148). -/
def dunlinTakes (s : State) (p : Nat) (h : EthHdr) : Bool :=
  h.etherType == 0x88F7 && h.dst == 0x0180C200000E &&
    (((s.dunlin.dom0.st != .disabled) && hasBit s.tables.time.mask0 p) ||
     ((s.dunlin.dom1.st != .disabled) && hasBit s.tables.time.mask1 p))

/-- A MAC Control frame (R148), and its opcode. -/
def isMacControl (b : List Byte) : Bool := beNat (slice b 12 2) == 0x8808
def macOpcode (b : List Byte) : Nat := beNat (slice b 14 2)

/-- The class enable vector and the quanta of a PFC frame (IEEE 802.1Qbb). -/
def pfcOf (b : List Byte) : PfcInfo :=
  { enable := BitVec.ofNat 8 (beNat (slice b 16 2)), quanta := (List.range 8).map (fun i => beNat (slice b (18 + 2 * i) 2)) }

/-- A PFC frame for one class from a port's MAC address (R153; IEEE 802.1Qbb). -/
def pfcBytes (src : Mac) (c quanta : Nat) : List Byte :=
  padTo 60 (ethPrefix 0x0180C2000001 src none 0x8808 ++ [0x01, 0x01] ++ beBytes 2 (2 ^ c) ++
    (List.range 8).flatMap (fun i => beBytes 2 (if i = c then quanta else 0)))

/-- One pause quantum, 512 bit times, in hundredths of a ck. -/
def quantumCk100 (x : PortSt) : Nat := 64 * byteCk100 x

/-- A received pause of one class (R152). DESIGN CHOICE (log entry 44): a class that is both gated and not pausable is
counted as gated only; the rule's items do not say which. -/
def pauseClass (p : Nat) (r : PortsRec) (c quanta : Nat) (s : State) : State :=
  let x := port s p
  if gated s p c then bumpClass p c 1 s
  else if !hasBit r.pausable c then bumpClass p c 2 s
  else
    let until' := if quanta = 0 then 0 else s.now + cdiv (quanta * quantumCk100 x) 100
    setPort s p { x with pausedUntil := x.pausedUntil.set c until', pausedAt := x.pausedAt.set c s.now }

/-- A received PFC frame: applied only when PORTS flag [3] is 1, else counted as ignored (16 R341). -/
def takePfc (p : Nat) (x : PfcInfo) (s : State) : State :=
  match portsRec s p with
  | some r =>
    if r.pauseRx then
      each ((List.range 8).filter (fun c => x.enable.getLsbD c)) (fun c => pauseClass p r c (x.quanta.getD c 0)) s
    else bumpPort p 4 s
  | none => bumpPort p 4 s

/-- The MAC consumes a MAC Control frame: a PFC frame is applied, any other opcode counted (R148). -/
def takeControl (p : Nat) (b : List Byte) (s : State) : State :=
  if macOpcode b = 0x0101 then takePfc p (pfcOf b) s else bumpPort p 4 s

/-! ### Spoonbill's targets (07 R155) -/

/-- The management path: 32 cells of Hidiquel (R155, 12 R271). -/
def toHidiquel (x : Rx) (s : State) : State :=
  let s' := dropRx x s
  if s.boot.otpBad then s'
  else if 32 < hidRxCells s + x.cells then bumpDev 29 s'
  else { s' with hid := { s'.hid with rx := s'.hid.rx ++ [{ port := x.port, bytes := x.bytes }] } }

/-- A frame becomes one FRAME message in a link's transmit queue (R155; 12 R276). -/
def toLink (k v : Nat) (bytes : List Byte) (x : Rx) (s : State) : State :=
  let s' := dropRx x s
  if linkAbsent s k then bumpDev 27 s'
  else queueMessage k v 1 bytes (s.now + oneCycle s) (fun _ => bumpDev 28) s'

/-- Action 1: queued for transmit with a deadline of one cycle, still charged to its receive account. -/
def toClass (p c : Nat) (x : Rx) (s : State) : State :=
  if portOff s p then bumpDev 26 (dropRx x s)
  else
    let f := { plainFrame s.frameIds (frameBody x.bytes) (hck s) (hck s + oneCycle s) with
      account := rxAccount x, cells := x.cells }
    enqueueFrame p c f { s with frameIds := s.frameIds + 1 }

/-! ### Listener streams (06 R139; 07 R166; 12 R275) -/

/-- Delivery 0: the oldest frames give way when every buffer is full, more than one where a commit has lowered
their number. -/
def holdFrame (l : Nat) (r : ListenRec) (bytes : List Byte) (x : Rx) (s : State) : State :=
  let y := listener s l
  let n := y.held.length + 1 - r.bufs
  let s := each (y.held.take n) (fun g s => freeCells g.1.account g.1.cells (bumpListen l 9 s)) s
  let f := { plainFrame s.frameIds bytes (hck s) 0 with account := rxAccount x, cells := x.cells }
  setListener { s with frameIds := s.frameIds + 1 } l
    { y with held := y.held.drop n ++ [(f, s.now + 2 * oneCycle s)] }

/-- The LISTEN delivery, the R-TAG removed where the record says so. -/
def deliver (l : Nat) (r : ListenRec) (x : Rx) (s : State) : State :=
  let body := if r.strip then stripRtag (frameBody x.bytes) else frameBody x.bytes
  let s := bumpListen l 11 s
  if r.delivery = 0 then holdFrame l r body x s else toLink r.link r.bufs (withFcs body) x s

/-- History bits that leave the window never received, over `n` shifts (802.1CB; R166). -/
def shiftHistory : Nat → List Bool → List Bool × Nat
  | 0, h => (h, 0)
  | n + 1, h =>
    let (g, lost) := shiftHistory n (false :: h.dropLast)
    (g, lost + bitW (!(h.getLast?.getD true)) 1)

/-- The signed distance of a sequence number from another (802.1CB). -/
def seqGap (a b : Nat) : Int := (((a + 32768 + 65536 - b) % 65536 : Nat) : Int) - 32768

/-- A recovery outcome: whether the frame passes, its counter, the new state and the numbers lost. -/
structure Recovery where
  pass : Bool
  counter : Nat
  next : ListenerSt
  lost : Nat
deriving DecidableEq, Repr

/-- The vector algorithm once the history runs (R166). -/
def vectorRecovery (h : Nat) (seq : Nat) (y : ListenerSt) : Recovery :=
  let d := seqGap seq y.number
  if h ≤ d.natAbs then { pass := false, counter := 5, next := y, lost := 0 }
  else if d ≤ 0 then
    if y.history.getD d.natAbs false then { pass := false, counter := 4, next := y, lost := 0 }
    else { pass := true, counter := 3, next := { y with history := y.history.set d.natAbs true }, lost := 0 }
  else
    let (g, lost) := shiftHistory d.toNat y.history
    { pass := true, counter := 3, next := { y with number := seq, history := g.set 0 true }, lost := lost }

/-- Sequence recovery of one frame (R166). -/
def recovery (f : FrerRec) (rtag : Option Nat) (y : ListenerSt) : Recovery :=
  match rtag with
  | none => { pass := f.passTagless, counter := 8, next := y, lost := 0 }
  | some seq =>
    if y.recovering then
      { pass := true, counter := 7, lost := 0,
        next := { y with recovering := false, number := seq, history := true :: List.replicate (f.history - 1) false } }
    else if f.algorithm = 0 then vectorRecovery f.history seq y
    else if seq = y.number then { pass := false, counter := 4, next := y, lost := 0 }
    else { pass := true, counter := 3, next := { y with number := seq }, lost := 0 }

/-- A listener stream's reset timeout is over (R167). -/
def recoveryOver (s : State) (l : Nat) (f : FrerRec) : Bool :=
  !(listener s l).recovering && decide ((listener s l).lastPassed + usCk f.timeoutUs ≤ s.now)

/-- The stream enters the reset state of R166's first row. -/
def resetRecovery (l : Nat) (s : State) : State :=
  setListener s l { listener s l with recovering := true, history := [] }

/-- Recovery before delivery, where the LISTEN record names a FRER record (R166, R167); a timeout of this ck applies
first (R174). -/
def recover (l : Nat) (r : ListenRec) (x : Rx) (s : State) : State :=
  match mFind s.tables.frer r.recovery with
  | none => deliver l r x s
  | some f =>
    let s := whenB (recoveryOver s l f) (resetRecovery l) s
    let o := recovery f (ethHdr x.bytes).rtag (listener s l)
    let y := if o.pass then { o.next with lastPassed := s.now } else o.next
    let s := bumpBy 0x2D l 6 o.lost (bumpListen l o.counter (setListener s l y))
    if o.pass then deliver l r x s else dropRx x s

/-- The meter's test at t_f (06 R139): X × T of a frame. -/
def meterCost (r : PoliceRec) (len : Nat) : Nat := countedLen r.lenMode r.overhead len * byteTime r.rate

/-- The TAT that a conforming frame leaves. -/
def meterTat (s : State) (r : PoliceRec) (m : MeterSt) (len : Nat) : Int :=
  max (tatAt s m.tat) (now24 s) + meterCost r len

def conforms (s : State) (r : PoliceRec) (m : MeterSt) (len : Nat) : Bool :=
  decide (meterTat s r m len ≤ (now24 s + r.burst * byteTime r.rate : Nat))

/-- Policing: filter, gate, meter, in this order (06 R139). -/
def police (l : Nat) (r : ListenRec) (x : Rx) (s : State) : State :=
  if r.maxFrame < x.bytes.length then bumpListen l 0 (dropRx x s)
  else match mFind s.tables.police r.meter with
    | none => recover l r x s
    | some q =>
      let m := meter s r.meter
      if !m.gate then bumpListen l 1 (dropRx x s)
      else if conforms s q m x.bytes.length then
        recover l r x (setMeter s r.meter { m with tat := tatOf (meterTat s q m x.bytes.length) })
      else bumpListen l 2 (dropRx x s)

def toListener (l : Nat) (x : Rx) (s : State) : State :=
  match mFind s.tables.listen l with
  | some r => police l r x s
  | none => bumpDev 25 (dropRx x s)

/-! ### Spoonbill's decision (07 R154) -/

/-- A record's enabled matches all hold on a frame. -/
def filterMatches (r : FiltersRec) (p : Nat) (h : EthHdr) : Bool :=
  let on := hasBit r.enables
  hasBit r.ports p && (!on 0 || h.dst == r.dst) && (!on 1 || h.src == r.src) &&
    (!on 2 || (match h.ctag with | some t => vidOf t == r.vid | none => false)) &&
    (!on 3 || (h.ctag.isSome && pcpOf h == r.pcp)) && (!on 4 || h.etherType == r.etherType) &&
    (!on 5 || h.rtag.isSome)

/-- The fixed management rule ahead of every record (04 R80). -/
def managementFrame (s : State) (h : EthHdr) : Bool :=
  h.etherType == mgmtType s && (h.dst == deviceAddr s || h.dst == mgmtAddr s)

/-- The decision of the first matching record. -/
def filterAction (i : Nat) (r : FiltersRec) (x : Rx) (s : State) : State :=
  let s := bump 0x2E i 0 s
  match r.action with
  | 0 => toListener r.argA x s
  | 1 => toClass r.argA r.argB x s
  | 2 => toLink r.argA r.argB x.bytes x s
  | 3 => toHidiquel x s
  | _ => bump 0x2E i 1 (dropRx x s)

def spoonbill (x : Rx) (s : State) : State :=
  let h := ethHdr x.bytes
  if managementFrame s h then toHidiquel x s
  else match s.tables.filters.find? (fun y => filterMatches y.2 x.port h) with
    | some y => filterAction y.1 y.2 x s
    | none => bumpPort x.port 12 (dropRx x s)

/-- A frame at t_f with its cells: the MAC's checks, then the MAC, Dunlin or Spoonbill. -/
def receiveHeld (x : Rx) (codeError : Bool) (s : State) : State :=
  match macError s x.port x.bytes codeError with
  | some n => bumpPort x.port n (dropRx x s)
  | none =>
    if isMacControl x.bytes then takeControl x.port x.bytes (dropRx x s)
    else if dunlinTakes s x.port (ethHdr x.bytes) then dropRx x s
    else spoonbill x (bumpPort x.port 20 s)

/-- A frame received whole: the overflow drop comes first (R157). -/
def receiveFrame (p : Nat) (bytes : List Byte) (codeError : Bool) (s : State) : State :=
  let x : Rx := { port := p, cls := pcpOf (ethHdr bytes), bytes := bytes, cells := cellsOf bytes.length }
  if !canTake s p x.cls x.cells then bumpClass p x.cls 3 s
  else receiveHeld x codeError (takeCells p x.cls x.cells s)

/-- FRAME_RECEIVE (R147). -/
def execFrameReceive (p : Port) (bytes : List Byte) (codeError : Bool) (s : State) :
    Host.Outcome State Fault Refusal :=
  act (ckRuns s && (port s p.val).up) (receiveFrame p.val bytes codeError) s

/-- RECOVERY_RESET_TIMEOUT (R167). -/
def execRecoveryResetTimeout (l : Stream) (s : State) : Host.Outcome State Fault Refusal :=
  act (ckRuns s &&
    (match mFind s.tables.listen l.val with
     | some r => (match mFind s.tables.frer r.recovery with | some f => recoveryOver s l.val f | none => false)
     | none => false)) (resetRecovery l.val) s

/-! ### Pause (07 R152, R153) -/

/-- PFC_RECEIVED (R152). -/
def execPfcReceived (p : Port) (x : PfcInfo) (s : State) : Host.Outcome State Fault Refusal :=
  act (ckRuns s && (port s p.val).up) (takePfc p.val x) s

/-- MAC_CONTROL_IGNORED (R148): every opcode but PFC's. -/
def execMacControlIgnored (p : Port) (opcode : BitVec 16) (s : State) : Host.Outcome State Fault Refusal :=
  act (ckRuns s && (port s p.val).up && opcode != 0x0101) (bumpPort p.val 4) s

/-- PAUSE_EXPIRY (R152). -/
def execPauseExpiry (p : Port) (c : TClass) (s : State) : Host.Outcome State Fault Refusal :=
  let t := (port s p.val).pausedUntil.getD c.val 0
  act (ckRuns s && t != 0 && decide (t ≤ s.now)) (fun s =>
    let x := port s p.val
    setPort s p.val { x with pausedUntil := x.pausedUntil.set c.val 0 }) s

/-- The device sends PFC for a class (R153). -/
def pfcClass (s : State) (p c : Nat) : Bool :=
  (port s p).up && (match portsRec s p with | some r => r.pauseTx && hasBit r.pausable c | none => false)

/-- 32,768 quanta, at most 100 ms at SGMII 10 Mb/s (R153, R173). -/
def pfcInterval (x : PortSt) : Nat :=
  let t := 32768 * quantumCk100 x / 100
  if x.mode = 6 ∧ x.speed = 0 then min t (msCk 100) else t

/-- A PFC frame goes to the port's transmit wire, ahead of every class, and the class's pause is on or off. -/
def sendPfc (p c quanta : Nat) (s : State) : State :=
  let x := port s p
  let src := match portsRec s p with | some r => r.mac | none => 0
  setPort s p { x with
    control := x.control ++ [pfcBytes src c quanta]
    pfcOn := x.pfcOn.set c (quanta != 0), pfcDue := x.pfcDue.set c (s.now + pfcInterval x) }

/-- PFC_SEND (R153; 12 R273): above 30 cells of the reserve, or back to 20. -/
def execPfcSend (p : Port) (c : TClass) (s : State) : Host.Outcome State Fault Refusal :=
  let on := (port s p.val).pfcOn.getD c.val false
  let held := rxHeld s p.val c.val
  act (ckRuns s && pfcClass s p.val c.val && (if on then decide (held ≤ 20) else decide (30 < held)))
    (fun s => sendPfc p.val c.val (if on then 0 else 0xFFFF) s) s

/-- PFC_REFRESH (R153). -/
def execPfcRefresh (p : Port) (c : TClass) (s : State) : Host.Outcome State Fault Refusal :=
  act (ckRuns s && pfcClass s p.val c.val && (port s p.val).pfcOn.getD c.val false &&
    decide (20 < rxHeld s p.val c.val) && decide ((port s p.val).pfcDue.getD c.val 0 ≤ s.now))
    (sendPfc p.val c.val 0xFFFF) s

/-! ### Verification and reassembly (07 R150, R151) -/

/-- VERIFY_TIMER (R150): verifyLimit is 3. -/
def execVerifyTimer (p : Port) (s : State) : Host.Outcome State Fault Refusal :=
  act (ckRuns s && (match (port s p.val).verify with | .running _ due => decide (due ≤ s.now) | _ => false))
    (fun s =>
      let x := port s p.val
      let ms := match portsRec s p.val with | some r => r.verifyMs | none => 10
      match x.verify with
      | .running n _ =>
        if n < 3 then
          emit (.control s.now p.val .verify)
            (setPort s p.val { x with verify := .running (n + 1) (s.now + msCk ms) })
        else bumpPort p.val 6 (setPort s p.val { x with verify := .failed })
      | _ => s) s

/-- PORTS flag [0] is 1. -/
def preemptFlag (s : State) (p : Nat) : Bool :=
  match portsRec s p with | some r => r.preempt | none => false

/-- VERIFY_MPACKET_RECEIVED (R150): a respond completes a running verification; a verify is answered. -/
def execVerifyMpacketReceived (p : Port) (respond : Bool) (s : State) : Host.Outcome State Fault Refusal :=
  let running' := match (port s p.val).verify with | .running _ _ => true | _ => false
  act (ckRuns s && (port s p.val).up && (if respond then running' else preemptFlag s p.val)) (fun s =>
    if respond then setPort s p.val { port s p.val with verify := .verified }
    else emit (.control s.now p.val .respond) s) s

def setReasm (p : Nat) (r : Option Reasm) (s : State) : State := setPort s p { port s p with reasm := r }

/-- A fragment is incomplete or out of order (R151): what has been reassembled goes with it. -/
def reasmError (p : Nat) (s : State) : State :=
  if (port s p).reasm.isSome then dropReasm p 7 s else bumpPort p 7 s

/-- The bytes of a fragment join a reassembly, and cells are charged as they arrive; where one cannot be had, the frame
is dropped and counted, and the rest of it comes to nothing (R157). -/
def growReasm (p : Nat) (r : Reasm) (bytes : List Byte) (s : State) : State :=
  let all := r.bytes ++ bytes
  let more := cellsOf all.length - r.cells
  if r.lost then setReasm p (some r) s
  else if canTake s p r.cls more then
    takeCells p r.cls more (setReasm p (some { r with bytes := all, cells := r.cells + more }) s)
  else
    bumpClass p r.cls 3 (freeCells (some (8 * p + r.cls)) r.cells
      (setReasm p (some { r with bytes := [], cells := 0, lost := true }) s))

/-- A reassembly is complete: the frame goes to the MAC, which judges its FCS, unless it was lost (R147, R151). -/
def closeReasm (p : Nat) (s : State) : State :=
  match (port s p).reasm with
  | some r =>
    let s := setReasm p none s
    if r.lost then s else receiveHeld { port := p, cls := r.cls, bytes := r.bytes, cells := r.cells } false s
  | none => s

/-- A fragment under flag [0]: reassembled by the 802.3br rules. The check of the final fragment is the frame's FCS. -/
def takeFragment (p : Nat) (m : Mpacket) (s : State) : State :=
  match m.start, (port s p).reasm with
  | true, old =>
    let s := if old.isSome then reasmError p s else s
    if m.final then receiveFrame p m.bytes false s
    else if !m.good then reasmError p s
    else growReasm p { frameCount := m.frameCount.val, fragCount := 0, bytes := [], cls := pcpOf (ethHdr m.bytes),
                       cells := 0, lost := false } m.bytes s
  | false, none => reasmError p s
  | false, some r =>
    if m.frameCount.val ≠ r.frameCount ∨ m.fragCount.val ≠ r.fragCount ∨ (!m.final && !m.good) then reasmError p s
    else
      let s := growReasm p { r with fragCount := (r.fragCount + 1) % 4 } m.bytes s
      if m.final then closeReasm p s else s

/-- MPACKET_RECEIVED (R151). -/
def execMpacketReceived (p : Port) (m : Mpacket) (s : State) : Host.Outcome State Fault Refusal :=
  act (ckRuns s && (port s p.val).up) (fun s =>
    if preemptFlag s p.val then takeFragment p.val m s else bumpPort p.val 8 s) s

/-! ### Port down and up (07 R168 to R172) -/

/-- The causes of R168 that a mode has. -/
def lossPossible (mode : Nat) (w : LinkLoss) : Bool :=
  match w with
  | .blockLock | .hiBer | .localFault | .remoteFault => mode == 1 || mode == 2
  | .syncLost => within 3 5 mode
  | .clause37Restart => mode == 4
  | .sgmiiLinkBit => mode == 6

/-- A port loses its link: an SGMII link bit of 0 stays, and Clause 37 starts again (R145). -/
def loseLink (p : Nat) (s : State) : State :=
  let s := portGoesDown p s
  startPcs p (setPort s p { port s p with linkBit := false })

/-- PORT_DOWN (R168, R169). -/
def execPortDown (p : Port) (w : LinkLoss) (s : State) : Host.Outcome State Fault Refusal :=
  act (ckRuns s && (port s p.val).up && lossPossible (port s p.val).mode w) (loseLink p.val) s

/-- The link criteria of the mode in force can hold (R168, R172; 02 R31). -/
def mayComeUp (s : State) (p : Nat) : Bool :=
  let x := port s p
  !x.up && x.mode != 0 && !x.halfDuplex && (x.mode != 6 || x.linkBit) && !s.supply.srefFault &&
    (match x.phy with | .absent _ => false | _ => true)

/-- The partner's Clause 37 base page is read, where the mode has one (R145). -/
def readPage (p : Nat) (page : BitVec 16) (s : State) : State :=
  if (port s p).mode = 4 then setPort s p { port s p with anPage := page } else s

/-- PORT_UP (R170), with the partner's base page (R145). -/
def execPortUp (x : PortLink) (s : State) : Host.Outcome State Fault Refusal :=
  act (ckRuns s && mayComeUp s x.port.val) (fun s => portComesUp x.port.val (readPage x.port.val x.page s)) s

/-- A port that an in-band word took down for another speed comes up again in the next ck (R168). -/
def speedDuty (s : State) : State :=
  each (List.range 4) (fun p s => if (port s p).speedRestart && mayComeUp s p then portComesUp p s else s) s

/-- The phases in which the port sends announce frames (03 R61). -/
def announces (s : State) : Bool := serving s || inBare s

/-- The announce frame of a port of the MGMT mask that first becomes live in this phase (03 R61). -/
def firstLive (p : Nat) (s : State) : State :=
  if announces s && hasBit (mgmtMask s) p && !(port s p).announced then renewSession (announce [p] s) else s

/-- LINK_UP_HOLD_END (R170; 03 R61). -/
def execLinkUpHoldEnd (p : Port) (s : State) : Host.Outcome State Fault Refusal :=
  act (ckRuns s && (port s p.val).up && !(port s p.val).live &&
    (match (port s p.val).holdEnd with | some t => decide (t ≤ s.now) | none => false)) (fun s =>
    firstLive p.val (startVerify p.val (setPort s p.val { port s p.val with live := true, holdEnd := none }))) s

/-- An in-band word with the link bit at 1 and full duplex. -/
def inbandUp (p speed : Nat) (s : State) : State :=
  let x := port s p
  if x.speed = speed then s
  else
    let s := portGoesDown p s
    setPort s p { port s p with speed := speed, speedRestart := x.up }

/-- SGMII_INBAND_WORD (R168, R172). DESIGN CHOICE (log entry 44): a word that reports half duplex is counted whatever
its link bit, as R172 names the duplex alone. -/
def execSgmiiInbandWord (p : Port) (linkBit : Bool) (speed : Fin 3) (full : Bool) (s : State) :
    Host.Outcome State Fault Refusal :=
  act (ckRuns s && (port s p.val).mode == 6) (fun s =>
    let s := setPort s p.val { port s p.val with linkBit := linkBit, halfDuplex := !full }
    let s := whenB (!full) (bumpPort p.val 14) s
    if linkBit && full then inbandUp p.val speed.val s else portGoesDown p.val s) s

/-- The PHY is found absent (R172): counted, the port down, the sequence again after 1 s. -/
def phyAbsent (p : Nat) (s : State) : State :=
  let s := bumpPort p 13 (portGoesDown p s)
  setPort s p { port s p with phy := .absent (s.now + msCk 1000) }

/-- The register that the sequence polls (R172): 0 in reset, then 1; `phyRegs` holds 0, 4, 9 and 1 as last read. -/
def polled (x : PortSt) : Nat := match x.phy with | .resetting _ => 0 | _ => 1

/-- A read of a PHY register returns (R172). -/
def readPhy (p : Nat) (value : BitVec 16) (s : State) : State :=
  let s := match phyAddress s p with | some a => mdioAccess a (polled (port s p)) none s | none => s
  let s := setPort s p { port s p with
    phyDue := s.now + msCk 1
    phyRegs := (port s p).phyRegs.set (if polled (port s p) = 0 then 0 else 3) value }
  let x := port s p
  match x.phy with
  | .resetting t =>
    if value = 0xFFFF then phyAbsent p s
    else if value.getLsbD 15 then (if t + msCk 500 ≤ s.now then phyAbsent p s else s)
    else
      let s := mdioWrite p 0 0x1340 (mdioWrite p 9 0x0200 (mdioWrite p 4 0x0141 s))
      setPort s p { port s p with phy := .running }
  | .running => if value = 0xFFFF then phyAbsent p s else s
  | _ => s

/-- A port's PHY is polled now. -/
def pollDue (s : State) (p : Nat) : Bool :=
  decide ((port s p).phyDue ≤ s.now) && (match (port s p).phy with | .resetting _ => true | .running => true | _ => false)

/-- PHY_POLL (R172): one access at a time in port order (R171), none while VDDIO_Q is browned out (15 R331). -/
def execPhyPoll (p : Port) (value : BitVec 16) (s : State) : Host.Outcome State Fault Refusal :=
  act (ckRuns s && !s.supply.bankQ.brown && s.mdio.queue.isEmpty && decide (s.mdio.freeAt ≤ s.now) &&
    firstBelow 4 (pollDue s) == some p.val) (readPhy p.val value) s

/-- PHY_RESTART (R172). -/
def execPhyRestart (p : Port) (s : State) : Host.Outcome State Fault Refusal :=
  act (ckRuns s && (match (port s p.val).phy with | .absent t => decide (t ≤ s.now) | _ => false))
    (phyBringUp p.val) s

/-! ### The stomp (07 R159 to R162) -/

/-- The first word of a cut-through copy that is not committed (R159). -/
def missingWord (t : Tx) : Nat := t.frame.bytes.length / 32

/-- A word not committed in the ck of its read: 20 ck before its first byte reaches the PCS (R159). -/
def underruns (s : State) (p : Nat) (t : Tx) : Bool :=
  t.ends == .frame && t.frame.cut && !t.frame.whole &&
    decide (t.start + (8 + 32 * missingWord t - t.frame.sent) * byteCk100 (port s p) / 100 ≤ s.now + 20)

/-- Raise a stream's threshold, once for a frame (R160). -/
def raiseThreshold (f : Frame) (q : Nat) (s : State) : State :=
  let x := stream s q
  if f.raised then s else setStream s q { x with threshold := min 142 (x.threshold + 1) }

/-- An underrun: stomp, count, requeue at the head, and the frame's other copies wait for the whole frame
(R159 to R161). -/
def underrun (p : Nat) (t : Tx) (s : State) : State :=
  let f := t.frame
  let q := f.stream.getD 0
  let s := raiseThreshold f q (bumpCopy q p 1 s)
  let s := updateFrame f.id q (fun g => { g with raised := true, cut := g.started && g.cut }) s
  let s := stompCopy p (32 * missingWord t) t s
  setClassQueue s p t.cls ({ f with cut := false, raised := true, started := false, sent := 0 } :: classQueue s p t.cls)

/-- CT_UNDERRUN (R159). -/
def execCtUnderrun (p : Port) (s : State) : Host.Outcome State Fault Refusal :=
  act (ckRuns s && (match (port s p.val).tx with | some t => underruns s p.val t | none => false)) (fun s =>
    match (port s p.val).tx with | some t => underrun p.val t s | none => s) s

/-- A tunnelled frame is given up: copies in progress stomped, the others discarded (R162). -/
def giveUpTunnel (q key : Nat) (f : Frame) (s : State) : State :=
  let s := dropUnstarted f.id q (stompAll f.id s)
  skipRest key (setStream s q { stream s q with tunnels := mErase (stream s q).tunnels key })

/-- TUNNEL_FCS_ERROR (R162). -/
def execTunnelFcsError (q : Stream) (s : State) : Host.Outcome State Fault Refusal :=
  act (ckRuns s && (stream s q.val).tunnels.any (fun e => e.2.carriedBad)) (fun s =>
    match (stream s q.val).tunnels.find? (fun e => e.2.carriedBad) with
    | some (k, f) => bumpStream q.val 4 (giveUpTunnel q.val k f s)
    | none => s) s

/-- TUNNEL_OVERLENGTH (R162). -/
def execTunnelOverlength (q : Stream) (s : State) : Host.Outcome State Fault Refusal :=
  act (ckRuns s && (stream s q.val).tunnels.any (fun e => tunnelTooLong s q.val e.2)) (fun s =>
    match (stream s q.val).tunnels.find? (fun e => tunnelTooLong s q.val e.2) with
    | some (k, f) => bumpStream q.val 0 (giveUpTunnel q.val k f s)
    | none => s) s

end Sys2Proof.Machine
end

