-- ==== Sys2Proof/Machine/ObjectOps.lean ====
section
/-!
DEFINITION. Hidiquel's objects (13 R290, R291): which there are, what a READ returns, and what STAGE accepts
(R292). A status item is 8 bytes; an item whose encoding no rule gives is a constant of Config applied to its
value (notes/assumptions/29.md).
-/
namespace Sys2Proof.Machine

/-! ### Instances -/

/-- Instances of a configuration class; 0 for a class that is none. -/
def configInstances (cls : Nat) : Nat :=
  match cls with
  | 3 => 1 | 4 => 4 | 5 => 4096 | 6 => 1024 | 7 => 1024 | 8 => 1024 | 9 => 2048 | 10 => 1024 | 11 => 1024
  | 12 => 32 | 13 => 256 | 14 => 64 | 15 => 1024 | 16 => 1 | 17 => 1 | 18 => 1 | 19 => 1 | 20 => 1
  | _ => 0

/-- Bytes of a configuration record in layout version 1 (04 R73 to R91). -/
def recordSize (cls : Nat) : Nat :=
  match cls with
  | 3 => 48 | 4 => 24 | 5 => 8 | 6 => 8 | 7 => 64 | 8 => 16 | 9 => 32 | 10 => 16 | 11 => 8 | 12 => 16
  | 13 => 16 | 14 => 16 | 15 => 32 | 16 => 1168 | 17 => 32 | 18 => 8 | 19 => 16 | _ => 72

/-! ### Status items -/

/-- An item whose encoding no rule gives. -/
def openItem (k v : Nat) : Nat := (Config.statusItem k v).toNat

def portItems (s : State) (p : Nat) : List Nat :=
  let x := port s p
  let reg := fun (i : Nat) => (x.phyRegs.getD i 0).toNat
  let ver := match x.verify with | .idle => 0 | .running n _ => 1 + n | .verified => 100 | .failed => 101
  [x.mode, openItem 1 (bitW x.up 1 + bitW x.live 2), openItem 2 ver, reg 0, reg 3, reg 1, reg 2]

/-- A signed number as 64 bits. -/
def word64 (x : Int) : Nat := (x % (2 ^ 64 : Int)).toNat

def streamItems (s : State) (q : Nat) : List Nat :=
  let x := stream s q
  match mFind s.tables.streams q with
  | some r =>
    let e := match x.queue with | f :: _ => word64 (eligibleAt s r x f) | [] => openItem 3 x.tat.toNat
    [x.tat.toNat % 2 ^ 64, e, word64 (creditBytes s r x), x.threshold, x.seq]
  | none => [x.tat.toNat % 2 ^ 64, openItem 3 x.tat.toNat, openItem 4 0, x.threshold, x.seq]

def listenItems (s : State) (l : Nat) : List Nat :=
  let x := listener s l
  let m := match mFind s.tables.listen l with | some r => meter s r.meter | none => MeterSt.init
  [m.tat.toNat % 2 ^ 64, bitW m.gate 1, openItem 5 (sumBits x.history.length (fun i => x.history.getD i false))]

/-- S, the release point, then C, C_rel, CL and AC of VC 0 to 7 each; store occupancy; replay counts; active
lanes; then 09's agreed rate, final mask, spare in use and back-off. -/
def linkItems (s : State) (k : Nat) : List Nat :=
  let x := link s k
  let per := fun (f : VcSt → Nat) => (List.range 8).map (fun v => f (vc s k v))
  [x.rxS, x.released] ++ per (·.c) ++ per (·.cRel) ++ per (·.cl) ++ per (·.ac) ++
    [x.store.length, openItem 6 (match x.store with | p :: _ => p.count | [] => 0), x.finalMask, x.agreed,
     x.finalMask, bitW x.spareUsed 1, x.backoff]

def laneItems (s : State) (n : Nat) : List Nat :=
  let x := lane s n
  [x.emphasis] ++ (List.range 3).map (fun i => word64 (x.taps.getD i 0)) ++
    [x.phase, x.threshold, x.eyeWidth, x.eyeHeight]

def chanItems (s : State) (c : Nat) : List Nat :=
  let x := chan s c
  let st := match x.status with | .idle => 0 | .waiting => 1 | .busy => 2 | .stopped => 3
  let ix := fun (d : Option (Nat × DmaRec)) => match d with | some (i, _) => i | none => 255
  [openItem 7 st, openItem 8 (ix x.active), openItem 8 (ix x.shadow), bitW x.pendingFlag 1, x.landed]

/-- A capture queue's items (05 R112): of each of its 16 entries, oldest first, the LOCAL stamp, the working domain's
stamp and the polarity, 1 rising. An entry that holds none is 0. -/
def captureItems (s : State) (i : Nat) : List Nat :=
  (List.range 16).flatMap (fun j =>
    match (input s i).captures[j]? with
    | some c => [openItem 15 c.stampLocal, openItem 15 c.stampWorking, bitW c.rising 1]
    | none => [0, 0, 0])

/-- The 8-byte form of the counters' and stamps' 96 bits, of signed values and of latencies is not given (log entry
29); an increment is a number of units of R101. -/
def timeItems (s : State) : List Nat :=
  let d := s.dunlin
  let one := fun (x : DomSt) => [x.inc, openItem 11 (word64 x.offset), domCode x.st]
  [openItem 9 d.localCount, openItem 9 d.dom0.count, openItem 9 d.dom1.count] ++ one d.dom0 ++ one d.dom1 ++
    [openItem 12 (word64 d.h)] ++
    (List.range 4).flatMap (fun p =>
      [openItem 13 (word64 (port s p).txLat), openItem 13 (word64 (port s p).rxLat)]) ++
    (List.range 32).map (fun k => openItem 14 (word64 (link s k).pathDelay)) ++
    (List.range 3).flatMap (captureItems s)

/-- OTP: serial, the four key slots' states, the floor. -/
def otpItems (s : State) : List Nat :=
  [s.otp.serial.toNat] ++ (List.range 4).map (fun k =>
    openItem 16 (bitW (s.otp.programmed.getLsbD k) 1 + bitW (s.otp.revoked.getLsbD k) 2)) ++ [otpFloor s.otp]

/-- A buffer account: occupancy and high-water mark; the accounts of port and class, 8p + c. -/
def accountItems (s : State) (i : Nat) : List Nat := [mGetD s.rxCells i 0, mGetD s.highWater i 0]

/-- The items of a status object. -/
def statusItems (s : State) (cls i : Nat) : Option (List Nat) :=
  let within' := fun (n : Nat) (l : List Nat) => if i < n then some l else none
  match cls with
  | 0x02 => within' 1 (otpItems s)
  | 0x18 => within' 4 (portItems s i)
  | 0x19 => within' 1024 (streamItems s i)
  | 0x1A => within' 1024 (listenItems s i)
  | 0x1B => within' 32 (linkItems s i)
  | 0x1C => within' 32 (laneItems s i)
  | 0x1D => within' 64 (chanItems s i)
  | 0x1E => within' 1 (timeItems s)
  | 0x31 => within' 32 (accountItems s i)
  | _ => none

/-! ### READ (R290) -/

/-- A record's bytes as they are returned: reserved fields zero (00 R8). -/
def canonicalRecord (cls : Nat) (b : List Byte) : List Byte :=
  match cls with
  | 3 => timeBytes (timeOf b) | 4 => portsBytes (portsOf b) | 5 => gatesBytes (gatesOf b)
  | 6 => eventsBytes (eventsOf b) | 7 => streamsBytes (streamsOf b) | 8 => listenBytes (listenOf b)
  | 9 => filtersBytes (filtersOf b) | 10 => policeBytes (policeOf b) | 11 => frerBytes (frerOf b)
  | 12 => lanesBytes (lanesOf b) | 13 => vcmapBytes (vcmapOf b) | 14 => pimapBytes (pimapOf b)
  | 15 => dmaBytes (dmaOf b) | 16 => powerBytes (powerOf b) | 17 => mgmtBytes (mgmtOf b)
  | 18 => safeBytes (safeOf b) | 19 => calBytes (calOf b) | _ => b

/-- A staged record as READ returns it. -/
def stagedValue (s : State) (id : Nat) : List Byte :=
  match s.staged with
  | some x =>
    (match mFind x.entries id with
     | some (some b) => if fieldOf id = 0 then canonicalRecord (classOf id) b else b
     | _ => [])
  | none => []

/-- The value of a configuration object, in force or staged; an absent record has no bytes. -/
def configValue (s : State) (staged : Bool) (id : Nat) : Option (List Byte) :=
  let i := instOf id
  let cls := classOf id
  if configInstances cls ≤ i then none
  else if fieldOf id = 0 ∨ (cls = 16 ∧ fieldOf id = 1) then
    if staged then some (stagedValue s id)
    else if fieldOf id = 1 then some (leBytes 4 s.tables.netTol)
    else some ((recordBytes s.tables id).getD [])
  else none

/-- The value of an object; none where the table of R290 does not define it. -/
def objectValue (s : State) (staged : Bool) (id : Nat) : Option (List Byte) :=
  let i := instOf id
  let f := fieldOf id
  let cls := classOf id
  if 3 ≤ cls ∧ cls ≤ 20 then configValue s staged id
  else match cls with
    | 0x00 => if i = 0 ∧ f = 0 then some ((chainWords (capabilities s)).flatMap (leBytes 4)) else none
    | 0x01 => if i = 0 ∧ f = 0 then some (announcePayload s) else none
    | 0x1F => if i < 64 ∧ f = 0 then some (mGetD s.faults.entries i (leBytes 48 0)) else none
    | 0x2F => if i = 0 ∧ f < 64 then some (leBytes 4 (stationWord s f).toNat) else none
    | 0x30 => if i = 0 ∧ f = 0 then some (s.hid.subs.flatMap (fun x => leBytes 1 x.1 ++ leBytes 1 x.2 ++ [0, 0]))
              else none
    | _ =>
      match counterAt s cls i f with
      | some v => some (leBytes 8 v)
      | none =>
        match statusItems s cls i with
        | some l => if f = 0 then some (l.flatMap (leBytes 8)) else (l[f - 1]?).map (leBytes 8)
        | none => none

/-! ### STAGE's checks on an entry (R292) -/

/-- The key field of a record agrees with the instance it is staged under. -/
def keyAgrees (cls i : Nat) (b : List Byte) : Bool :=
  match cls with
  | 5 => (gatesOf b).port == i / 1024
  | 7 => (streamsOf b).queue == i
  | 8 => (listenOf b).stream == i
  | 12 => (lanesOf b).link == i
  | 13 => 8 * (vcmapOf b).link + (vcmapOf b).vc == i
  | 15 => 16 * (dmaOf b).channel + (dmaOf b).index == i
  | _ => true

/-- Every value of a record lies in its range (04 R72). -/
def inRange (cls : Nat) (b : List Byte) : Bool :=
  match cls with
  | 3 => timeOk (timeOf b) | 4 => portsOk (portsOf b) | 5 => gatesOk (gatesOf b) | 6 => eventsOk (eventsOf b)
  | 7 => streamsOk (streamsOf b) | 8 => listenOk (listenOf b) | 9 => filtersOk (filtersOf b)
  | 10 => policeOk (policeOf b) | 11 => frerOk (frerOf b) | 12 => lanesOk (lanesOf b)
  | 13 => vcmapOk (vcmapOf b) | 14 => pimapOk (pimapOf b) | 15 => dmaOk (dmaOf b) | 16 => powerOk (powerOf b)
  | 17 => mgmtOk (mgmtOf b) | 19 => calOk (calOf b) | _ => true

/-- The status of a staged entry: unknown or not writable, a wrong length, another key, out of range. -/
def entryStatus (id : Nat) (b : List Byte) : Nat :=
  let cls := classOf id
  let i := instOf id
  if !within 3 19 cls || configInstances cls ≤ i then 3
  else if cls = 16 ∧ fieldOf id = 1 then (if b.length ≠ 4 then 2 else if fld b 0 4 = 0 then 0x0A else 0)
  else if fieldOf id ≠ 0 then 3
  else if b.isEmpty then 0
  else if b.length ≠ recordSize cls then 2
  else if !keyAgrees cls i b then 2
  else if !inRange cls b then 0x0A
  else 0

end Sys2Proof.Machine
end

