-- ==== Sys2Proof/Machine/Hidiquel.lean ====
section
/-!
DEFINITION. The family of Hidiquel: the request checks (13 R288), the operations (R289 to R299, R302), their
background work (R296 to R298) and the responses (R285 to R287).
-/
namespace Sys2Proof.Machine

/-! ### Responses (R284, R285, R287, R305) -/

/-- The asker of a request. -/
def askerOf (p : Port) (r : HidFrame) : Asker := { port := p, src := r.src, ctag := r.ctag, reqTag := r.reqTag }

/-- The largest response payload on a port (R305). -/
def payloadRoom (s : State) (p : Nat) : Nat := min 1440 (maxFrame s p - 58)

/-- The class of a response: the PCP of the request's C-tag, or 0 (R285). -/
def responseClass (a : Asker) : Nat := match a.ctag with | some t => t.toNat / 8192 % 8 | none => 0

def responseBytes (s : State) (a : Asker) (opcode status : Nat) (payload : List Byte) : List Byte :=
  let header := hidHeader 1 opcode 1 status s.otp.serial (deviceCounter s) a.reqTag payload.length
  hidBytes a.src (deviceAddr s) a.ctag (mgmtType s) header payload
    (deviceTag s (hidSigned a.src (deviceAddr s) header payload))

/-- Queue a response on the request's port; a status other than 0x00 is counted (R289). -/
def respond (a : Asker) (opcode status : Nat) (payload : List Byte) (s : State) : State :=
  let f := { plainFrame s.frameIds (responseBytes s a opcode status payload) (hck s) (hck s + oneCycle s) with
    hid := true }
  let s := { s with frameIds := s.frameIds + 1, hid := { s.hid with txCount := s.hid.txCount + 1 } }
  let s := whenB (status != 0) (bumpDev 38) s
  renewSession (if 32 < hidTxCells s + cellsOf (frameLen f) then bumpDev 29 s
    else enqueueFrame a.port.val (responseClass a) f s)

/-! ### The request checks (R288) -/

/-- The payload and the tag as the length field places them. -/
def requestPayload (r : HidFrame) : List Byte := r.payload.take r.length
def requestTag (r : HidFrame) : Nat := beNat (slice (r.payload ++ beBytes 12 r.tag.toNat) r.length 12)

def requestHeader (opcode : Nat) (r : HidFrame) : List Byte :=
  hidHeader r.version.toNat opcode r.flags.toNat 0 r.serial r.counter r.reqTag r.length

/-- The first failing check's counter, in the order of R288. -/
def requestFails (s : State) (p : Port) (opcode : Nat) (r : HidFrame) : Option Nat :=
  if !hasBit (mgmtMask s) p.val then some 34
  else if r.version != 1 || r.flags.getLsbD 0 || r.flags.getLsbD 1 || decide (1440 < r.length) ||
      decide (r.payload.length < r.length) then some 33
  else if r.serial != s.otp.serial && !(opcode == 1 && r.serial == BitVec.allOnes 64) then some 35
  else if (cmac s.hid.key (hidSigned r.dst r.src (requestHeader opcode r) (requestPayload r))).toNat !=
      requestTag r then some 36
  else if opcode != 1 && (r.counter.toNat / 2 ^ 32 != s.hid.session.toNat ||
      decide (r.counter.toNat % 2 ^ 32 ≤ s.hid.rxHigh)) then some 37
  else none

/-- The received bytes of a request leave the management path. -/
def takeReceived (p : Port) (opcode : Nat) (r : HidFrame) (s : State) : State :=
  let b := withFcs (hidRequestBytes (mgmtType s) opcode r)
  match findIx (fun x => x.port == p.val && x.bytes == b) s.hid.rx 0 with
  | some i => { s with hid := { s.hid with rx := s.hid.rx.eraseIdx i } }
  | none => s

/-- A request: dropped at the first failing check, else its counter is accepted and it is executed (R287 to
R289). The work answers with a status and payload where it does not answer later. -/
def request (p : Port) (opcode : Nat) (r : HidFrame) (work : State → State × Option (Nat × List Byte))
    (s : State) : State :=
  let s := takeReceived p opcode r s
  match requestFails s p opcode r with
  | some n => bumpDev n s
  | none =>
    let s := if opcode = 1 then s
      else { s with hid := { s.hid with rxHigh := r.counter.toNat % 2 ^ 32 } }
    match work s with
    | (t, some (status, payload)) => respond (askerOf p r) opcode status payload t
    | (t, none) => renewSession t

/-- Hidiquel serves: in WAIT_TIME, SERVICE and BARE, and never with OTP unreadable (R286; 03 R60). -/
def hidServes (s : State) : Bool := ckRuns s && (serving s || inBare s) && !s.boot.otpBad

/-- A refusal changes nothing and carries no payload. -/
def refuse (status : Nat) (s : State) : State × Option (Nat × List Byte) := (s, some (status, []))
def answer (payload : List Byte) (s : State) : State × Option (Nat × List Byte) := (s, some (0, payload))

/-- The operations table's two columns (R289): refused under MGMT_LOCK with 0x04, in BARE with 0x05. -/
def lockedOr (lock bare : Bool) (work : State → State × Option (Nat × List Byte)) (s : State) :
    State × Option (Nat × List Byte) :=
  if lock && s.straps.mgmtLock then refuse 4 s
  else if bare && inBare s then refuse 5 s
  else work s

/-! ### DISCOVER and READ (R289, R290) -/

def discoverWork (b : List Byte) (s : State) : State × Option (Nat × List Byte) :=
  if b.isEmpty then answer (announcePayload s) s else refuse 2 s

/-- DISCOVER. -/
def execDiscover (p : Port) (r : HidFrame) (s : State) : Host.Outcome State Fault Refusal :=
  act (hidServes s) (request p 1 r (discoverWork (requestPayload r))) s

/-- `n` bytes filled to a multiple of 4. -/
def pad4 (b : List Byte) : List Byte := b ++ List.replicate ((4 - b.length % 4) % 4) 0

/-- The 4-byte fields of a payload. -/
def words4 (b : List Byte) : List Nat := (List.range (b.length / 4)).map (fun i => fld b (4 * i) 4)

/-- One object of a READ response. -/
def readEntry (id status : Nat) (v : List Byte) : List Byte :=
  leBytes 4 id ++ leBytes 2 v.length ++ leBytes 1 status ++ [0] ++ pad4 v

/-- The objects that fit, in order; the rest are listed with status 0x0F (R289). -/
def readList (s : State) (staged : Bool) : List Nat → Nat → List Byte
  | [], _ => []
  | id :: rest, room =>
    let e := match objectValue s staged id with
      | some v => readEntry id 0 v
      | none => readEntry id 3 []
    if e.length + 8 * rest.length ≤ room then e ++ readList s staged rest (room - e.length)
    else (id :: rest).flatMap (fun i => readEntry i 0x0F [])

def readWork (p : Port) (staged : Bool) (b : List Byte) (s : State) : State × Option (Nat × List Byte) :=
  if b.length % 4 ≠ 0 ∨ b.length = 0 ∨ 256 < b.length then refuse 2 s
  else answer (readList s staged (words4 b) (payloadRoom s p.val)) s

/-- READ. -/
def execRead (p : Port) (r : HidFrame) (s : State) : Host.Outcome State Fault Refusal :=
  act (hidServes s) (request p 2 r (readWork p (r.flags.getLsbD 3) (requestPayload r))) s

/-! ### STAGE, COMMIT, ABORT (R292 to R294) -/

/-- The entries of a STAGE payload; none where they do not fill it. -/
def stageEntries : Nat → List Byte → Option (List (Nat × List Byte))
  | 0, b => if b.isEmpty then some [] else none
  | n + 1, b =>
    let len := fld b 4 2
    let size := 8 + 4 * cdiv len 4
    if b.length < size then none
    else (stageEntries n (b.drop size)).map (fun l => (fld b 0 4, slice b 8 len) :: l)

/-- Stage one entry or refuse it; the first accepted entry fixes the set number. -/
def stageEntry (number : Nat) (e : Nat × List Byte) (s : State) : State :=
  if entryStatus e.1 e.2 ≠ 0 then s
  else
    let x := stagedSet s number
    { s with staged := some { x with
        entries := mSet x.entries e.1 (if e.2.isEmpty then none else some e.2) } }

def stageWork (b : List Byte) (s : State) : State × Option (Nat × List Byte) :=
  match stageEntries (fld b 2 2) (b.drop 4) with
  | none => refuse 2 s
  | some l =>
    if b.length < 4 then refuse 2 s
    else if s.commit.isSome then refuse 6 s
    else if (match s.staged with | some x => x.number != fld b 0 2 | none => false) then refuse 7 s
    else answer (l.flatMap (fun e => leBytes 1 (entryStatus e.1 e.2) ++ [0, 0, 0]))
      (each l (stageEntry (fld b 0 2)) s)

/-- STAGE. -/
def execStage (p : Port) (r : HidFrame) (s : State) : Host.Outcome State Fault Refusal :=
  act (hidServes s) (request p 3 r (lockedOr true true (stageWork (requestPayload r)))) s

/-- Units to the epoch of a time, and the cycle number that it is expected to carry (R293). -/
def epochOf (s : State) (t : Nat) : Nat × Nat :=
  let left := s.heron.boundary + s.heron.len - s.heron.acc
  let first := workingCount s + left
  let k := if t ≤ first then 0 else cdiv (t - first) (cycleUnits s)
  (left + k * cycleUnits s, s.heron.cycle + 1 + k)

def failId (x : Nat × Nat) : Nat := if x.1 = 0xFF then 0xFFFFFFFF else ctrId x.1 x.2 0

def commitWork (b : List Byte) (s : State) : State × Option (Nat × List Byte) :=
  let number := fld b 0 2
  let t := fld b 4 8 * unitsPerSec + fld b 12 4 * unitsPerNs
  let (lead, cycle) := epochOf s t
  let x := stagedSet s number
  if b.length ≠ 20 ∨ 2 ^ 48 ≤ fld b 4 8 then refuse 2 s
  else if 1000000000 ≤ fld b 12 4 then refuse 0x0A s
  else if s.commit = some { number := number, time := t } then answer (leBytes 8 cycle) s
  else if !s.heron.started ∨ s.commit.isSome then refuse 6 s
  else if x.number ≠ number then refuse 7 s
  else if lead < 1000000 * unitsPerNs then refuse 8 s
  else if workingCount s + 3600 * unitsPerSec < t then refuse 0x0A s
  else match commitBad s x with
    | bad :: _ => (s, some (9, leBytes 4 (failId bad)))
    | [] => answer (leBytes 8 cycle) (writeShadows (stagedTables s x)
        { s with commit := some { number := number, time := t } })

/-- COMMIT. -/
def execCommit (p : Port) (r : HidFrame) (s : State) : Host.Outcome State Fault Refusal :=
  act (hidServes s) (request p 4 r (lockedOr true true (commitWork (requestPayload r)))) s

def abortWork (b : List Byte) (s : State) : State × Option (Nat × List Byte) :=
  let number := fld b 0 2
  if b.length ≠ 4 then refuse 2 s
  else match s.commit with
    | none =>
      if (match s.staged with | some x => x.number != number | none => false) then refuse 7 s
      else answer [] { s with staged := none }
    | some c =>
      if c.number ≠ number then refuse 7 s
      else if (epochOf s c.time).1 < 100000 * unitsPerNs then refuse 8 s
      else answer [] (clearShadows { s with commit := none, staged := none })

/-- ABORT. -/
def execAbort (p : Port) (r : HidFrame) (s : State) : Host.Outcome State Fault Refusal :=
  act (hidServes s) (request p 5 r (lockedOr false true (abortWork (requestPayload r)))) s

/-! ### COUNTER SNAPSHOT (R302, R305) -/

/-- The parts of a range: what exists, and a remainder with 0x0A; each a first ID, a count and a status. -/
def rangeParts (id count : Nat) : List (Nat × Nat × Nat) :=
  match scopeOf (classOf id) with
  | some x =>
    if x.counters ≤ fieldOf id then [(id, 0, 3)]
    else
      let n := min count (x.instances - instOf id)
      if n = count then [(id, n, 0)]
      else if n = 0 then [(id, count, 0x0A)]
      else [(id, n, 0), (id + 256 * n, count - n, 0x0A)]
  | none => [(id, 0, 3)]

/-- The counters of a part: their IDs. -/
def partCounters (x : Nat × Nat × Nat) : List Nat :=
  if x.2.2 = 0 then (List.range x.2.1).map (fun i => x.1 + 256 * i) else []

def partHead (x : Nat × Nat × Nat) (status : Nat) : List Byte :=
  leBytes 4 x.1 ++ leBytes 2 x.2.1 ++ leBytes 1 status ++ [0]

/-- The bytes and the counters that a snapshot reads, in order; what does not fit is listed with 0x0F. -/
def snapshotList (s : State) : List (Nat × Nat × Nat) → Nat → List Byte × List Nat
  | [], _ => ([], [])
  | x :: rest, room =>
    let ids := partCounters x
    let size := 8 + 8 * ids.length
    if size + 8 * rest.length ≤ room then
      let (b, l) := snapshotList s rest (room - size)
      (partHead x x.2.2 ++ ids.flatMap (fun i => leBytes 8 (mGetD s.counters i 0)) ++ b, ids ++ l)
    else ((x :: rest).flatMap (fun y => partHead y 0x0F), [])

/-- Counters read with the clear flag hold zero; `avocet.halted` is a flag that only R268 clears. -/
def clearCounters (l : List Nat) (s : State) : State :=
  { s with counters := s.counters.filter (fun x => !l.contains x.1 || x.1 == ctrId 0x20 0 32) }

/-- High-water marks run from the last snapshot (12, "What you can observe"). -/
def restartMarks (s : State) : State := { s with highWater := s.rxCells }

/-- The counters are read as this ck ends, its increments included (R302). -/
def snapshotWork (a : Asker) (b : List Byte) (s : State) : State × Option (Nat × List Byte) :=
  let n := (b.length - 4) / 8
  if b.length < 12 ∨ b.length % 8 ≠ 4 ∨ 16 < n then refuse 2 s
  else
    let x : Snap := { asker := a, clear := hasBit (fld b 0 1) 0, parts :=
      (List.range n).flatMap (fun i => rangeParts (fld b (4 + 8 * i) 4) (fld b (8 + 8 * i) 2)) }
    ({ s with hid := { s.hid with snaps := s.hid.snaps ++ [x] } }, none)

/-- COUNTER SNAPSHOT. -/
def execCounterSnapshot (p : Port) (r : HidFrame) (s : State) : Host.Outcome State Fault Refusal :=
  act (hidServes s) (request p 6 r (snapshotWork (askerOf p r) (requestPayload r))) s

/-- What a snapshot reads as its ck ends: the response's bytes and the counters read. -/
def snapRead (s : State) (x : Snap) : List Byte × List Nat := snapshotList s x.parts (payloadRoom s x.asker.port.val)

/-- The snapshots of a ck, at its end: every one reads the same values, what a clearing one has read holds zero from the
next ck, and the responses follow (R302). -/
def snapDuty (s : State) : State :=
  if s.hid.snaps.isEmpty then s
  else
    let l := s.hid.snaps.map (fun x => (x, snapRead s x))
    let t := each l (fun y => whenB y.1.clear (clearCounters y.2.2))
      (restartMarks { s with hid := { s.hid with snaps := [] } })
    each l (fun y => respond y.1.asker 6 0 y.2.1) t

/-! ### EVENT SUBSCRIBE (R299) -/

def subscriptionOk (x : Nat × Nat) : Bool :=
  match x.1 with
  | 1 => true
  | 5 => decide (x.2 < 32) || x.2 == 0xFF
  | 6 => decide (x.2 < 4) || x.2 == 0xFF
  | n => decide (n ≤ 8) && x.2 == 0

def subscribeWork (b : List Byte) (s : State) : State × Option (Nat × List Byte) :=
  let l := (List.range (b.length / 4)).map (fun i => (fld b (4 * i) 1, fld b (4 * i + 1) 1))
  if b.length % 4 ≠ 0 ∨ 128 < b.length then refuse 2 s
  else if !l.all subscriptionOk then refuse 0x0A s
  else answer [] { s with hid := { s.hid with subs := l.eraseDups } }

/-- EVENT SUBSCRIBE. -/
def execEventSubscribe (p : Port) (r : HidFrame) (s : State) : Host.Outcome State Fault Refusal :=
  act (hidServes s) (request p 7 r (lockedOr false true (subscribeWork (requestPayload r)))) s

/-! ### IMAGE TRANSFER (R296) -/

def slotOf (n : Nat) : Slot := if n = 0 then .a else .b

/-- The flash path is busy: a chunk being programmed, or a SLOT SWITCH. -/
def flashBusy (s : State) : Bool :=
  s.hid.switch.isSome || (match s.hid.xfer with | some x => x.busy.isSome | none => false)

/-- The result code and three reserved bytes. -/
def codePayload (code : Nat) : List Byte := leBytes 1 code ++ [0, 0, 0]

def transferIdle : Nat := msCk 10000

/-- A chunk's form: its data length, and the region's end. -/
def chunkStatus (len off : Nat) (last : Bool) : Nat :=
  if len = 0 ∨ 1024 < len ∨ (!last ∧ len % 256 ≠ 0) then 2
  else if 4194304 < off + len then 0x0A
  else 0

/-- Program an accepted chunk on the flash path. -/
def programChunk (a : Asker) (slot off len : Nat) (last : Bool) (data : List Byte) (s : State) : State :=
  let x : Xfer :=
    { slot := slotOf slot, next := off + len, lastOffset := off, lastLen := len,
      idleDue := s.now + transferIdle, busy := some a, lastChunk := last }
  emit (.flash s.now (slotOf slot) off data) { s with hid := { s.hid with xfer := some x } }

def transferWork (a : Asker) (b : List Byte) (s : State) : State × Option (Nat × List Byte) :=
  let slot := fld b 0 1
  let first := hasBit (fld b 1 1) 0
  let last := hasBit (fld b 1 1) 1
  let len := fld b 2 2
  let off := fld b 4 4
  let data := b.drop 8
  if b.length < 8 ∨ data.length ≠ len then refuse 2 s
  else if 1 < slot then refuse 0x0A s
  else if first && off != 0 then refuse 2 s
  else if s.supply.bankQ.brown ∨ s.boot.runSlot = some (slotOf slot) ∨ flashBusy s then refuse 6 s
  else match s.hid.xfer with
    | some x =>
      if x.slot ≠ slotOf slot then refuse 6 s
      else if off = x.lastOffset ∧ len = x.lastLen then
        answer (codePayload 0) { s with hid := { s.hid with
          xfer := some { x with idleDue := s.now + transferIdle } } }
      else if first then refuse 6 s
      else if off ≠ x.next then refuse 2 s
      else if chunkStatus len off last ≠ 0 then refuse (chunkStatus len off last) s
      else (programChunk a slot off len last data s, none)
    | none =>
      if !first then refuse 6 s
      else if chunkStatus len off last ≠ 0 then refuse (chunkStatus len off last) s
      else (programChunk a slot off len last data (emit (.flashErase s.now (slotOf slot)) s), none)

/-- IMAGE TRANSFER. -/
def execImageTransfer (p : Port) (r : HidFrame) (s : State) : Host.Outcome State Fault Refusal :=
  act (hidServes s) (request p 8 r (lockedOr true false (transferWork (askerOf p r) (requestPayload r)))) s

/-- A stand-down word with its lowest 1 bit cleared. -/
def clearStand (w : BitVec 32) : BitVec 32 := w &&& (w - 1)

def setStand (x : Slot) (w : BitVec 32) (s : State) : State :=
  match x with
  | .a => { s with boot := { s.boot with standA := w } }
  | .b => { s with boot := { s.boot with standB := w } }

/-- Where a slot's stand-down word lies (03 R50). -/
def standOffset : Nat := 0x7FF000

/-- Program a slot's stand-down word (03 R50). -/
def writeStand (x : Slot) (w : BitVec 32) (s : State) : State :=
  if standWord s x = w then s
  else emit (.flash s.now x standOffset (leBytes 4 w.toNat)) (setStand x w s)

/-- The slot of a finished transfer stands down; of a word with no 1 bit left the sector is erased first (03 R50). -/
def standDown (x : Slot) (s : State) : State :=
  let w := standWord s x
  if stoodDown w then s
  else if w = 0 then
    writeStand x (clearStand 0xFFFFFFFF) (emit (.flashSector s.now x standOffset) (setStand x 0xFFFFFFFF s))
  else writeStand x (clearStand w) s

/-- A chunk's flash work ends (R296): answered; the last chunk stands the slot down and checks it. The 10 s without a
chunk run from the answer to the last one (DEDUCED, notes/assumptions/46.md: an erase may take longer). -/
def finishChunk (x : Xfer) (a : Asker) (f : FlashResult) (s : State) : State :=
  let close := fun (s : State) => { s with hid := { s.hid with xfer := none } }
  if !f.programmed then respond a 8 0x0B [] (close s)
  else if !x.lastChunk then
    respond a 8 0 (codePayload 0) { s with hid := { s.hid with
      xfer := some { x with busy := none, idleDue := s.now + transferIdle } } }
  else
    let s := standDown x.slot s
    let c := (checkRegion s x.slot f.read).code
    respond a 8 (if c = 0 then 0 else 0x0C) (codePayload c) (close s)

/-- IMAGE_TRANSFER_DONE (R296). -/
def execImageTransferDone (x : FlashResult) (s : State) : Host.Outcome State Fault Refusal :=
  act (hidServes s && (match s.hid.xfer with | some t => t.busy.isSome | none => false)) (fun s =>
    match s.hid.xfer with
    | some t => (match t.busy with | some a => finishChunk t a x s | none => s)
    | none => s) s

/-- TRANSFER_IDLE_TIMEOUT (R296). -/
def execTransferIdleTimeout (s : State) : Host.Outcome State Fault Refusal :=
  act (hidServes s && (match s.hid.xfer with
      | some t => t.busy.isNone && decide (t.idleDue ≤ s.now) | none => false)) (fun s =>
    { s with hid := { s.hid with xfer := none } }) s

/-! ### SLOT SWITCH (R297; 03 R50) -/

def switchWork (a : Asker) (b : List Byte) (s : State) : State × Option (Nat × List Byte) :=
  let w : Switch := { slot := slotOf (fld b 0 1), asker := a, answer := none, resetAt := none }
  if b.length ≠ 4 then refuse 2 s
  else if 1 < fld b 0 1 then refuse 0x0A s
  else if s.hid.xfer.isSome ∨ s.hid.switch.isSome then refuse 6 s
  else ({ s with hid := { s.hid with switch := some w } }, none)

/-- SLOT SWITCH. -/
def execSlotSwitch (p : Port) (r : HidFrame) (s : State) : Host.Outcome State Fault Refusal :=
  act (hidServes s) (request p 9 r (switchWork (askerOf p r) (requestPayload r))) s

/-- The words after SLOT SWITCH names a slot: it stands, the other is stood down; none where a word that
needs a bit cleared has none left (03 R50). A slot that is absent has no word. -/
def switchWords (s : State) (x : Slot) : Option (BitVec 32 × BitVec 32) :=
  let o := otherSlot x
  let wx := standWord s x
  let wo := standWord s o
  let needX := stoodDown wx
  let needO := !stoodDown wo && !slotAbsent s o
  if (needX && wx == 0) || (needO && wo == 0) then none
  else some (if needX then clearStand wx else wx, if needO then clearStand wo else wo)

/-- The response to an accepted SLOT SWITCH; where it finds no room, the reset follows at once. -/
def acceptSwitch (w : Switch) (s : State) : State :=
  let id := s.frameIds
  let t := respond w.asker 9 0 (codePayload 0) s
  let left := frameAlive t id
  { t with hid := { t.hid with switch := some { w with
      answer := if left then some id else none, resetAt := if left then none else some t.now } } }

/-- The checks of a SLOT SWITCH end. -/
def finishSwitch (w : Switch) (r : SlotRead) (s : State) : State :=
  let close := fun (s : State) => { s with hid := { s.hid with switch := none } }
  let c := (checkRegion s w.slot r).code
  if c ≠ 0 then respond w.asker 9 0x0C (codePayload c) (close s)
  else match switchWords s w.slot with
    | none => respond w.asker 9 0x0E [] (bumpDev 14 (close s))
    | some (wx, wo) => acceptSwitch w (writeStand (otherSlot w.slot) wo (writeStand w.slot wx s))

/-- The switch waits for its checks. -/
def switchChecking (s : State) : Bool :=
  match s.hid.switch with | some w => w.answer.isNone && w.resetAt.isNone | none => false

/-- SLOT_SWITCH_CHECK_DONE (R297). -/
def execSlotSwitchCheckDone (r : SlotRead) (s : State) : Host.Outcome State Fault Refusal :=
  act (hidServes s && switchChecking s) (fun s =>
    match s.hid.switch with | some w => finishSwitch w r s | none => s) s

/-- The reset of an accepted SLOT SWITCH falls due: 1 ms after its response has left, or at once where the
response has been discarded. -/
def switchResetDue (s : State) : Bool :=
  match s.hid.switch with
  | some w =>
    (match w.resetAt, w.answer with
     | some t, _ => decide (t ≤ s.now)
     | none, some id => !frameAlive s id
     | none, none => false)
  | none => false

/-- SLOT_SWITCH_RESET (R297; 03 R50: by the same path as RESET_N). -/
def execSlotSwitchReset (s : State) : Host.Outcome State Fault Refusal :=
  act (hidServes s && switchResetDue s) fullReset s

/-! ### ROLLBACK-FLOOR RAISE (R298) -/

def floorPayload (s : State) : List Byte := codePayload (otpFloor s.otp)

def raiseWork (a : Asker) (b : List Byte) (s : State) : State × Option (Nat × List Byte) :=
  let n := fld b 0 1
  if b.length ≠ 4 then refuse 2 s
  else if s.hid.raise.isSome then refuse 6 s
  else if 127 < n ∨ n < otpFloor s.otp then (s, some (0x0D, floorPayload s))
  else if n = otpFloor s.otp then answer (floorPayload s) s
  else ({ s with hid := { s.hid with raise := some { target := n, asker := a } } }, none)

/-- ROLLBACK_FLOOR_RAISE. -/
def execRollbackFloorRaise (p : Port) (r : HidFrame) (s : State) : Host.Outcome State Fault Refusal :=
  act (hidServes s) (request p 10 r (lockedOr true true (raiseWork (askerOf p r) (requestPayload r)))) s

/-- FLOOR_RAISE_DONE (R298). -/
def execFloorRaiseDone (s : State) : Host.Outcome State Fault Refusal :=
  act (hidServes s && s.hid.raise.isSome) (fun s =>
    match s.hid.raise with
    | some r =>
      let t := blowOtp { s.otp with floor := blowFuses (r.target - otpFloor s.otp) s.otp.floor }
        { s with hid := { s.hid with raise := none } }
      respond r.asker 10 0 (floorPayload t) t
    | none => s) s

/-! ### Reserved opcodes (R289) -/

/-- RESERVED_OPCODE: status 0x01, no payload. -/
def execReservedOpcode (p : Port) (opcode : Byte) (r : HidFrame) (s : State) :
    Host.Outcome State Fault Refusal :=
  act (hidServes s) (request p opcode.toNat r (refuse 1)) s

end Sys2Proof.Machine
end

