-- ==== Sys2Proof/Machine/Pip.lean ====
section
/-!
DEFINITION. The family of the process image port: host reads and writes (10 R230 to R236), the ownership
classes of the station block (R243), doorbells (R245), PATN_N's re-arm pulse (R246), HOSTLTR (R247). A
write's command falls in its landing ck, which is also the ck its word is chosen in (notes/assumptions/11.md).
-/
namespace Sys2Proof.Machine

/-! ### Windows (R235, R236; 01 R19) -/

/-- The bank that host accesses reach: they follow a swap 1 ck after the swap ck (01 R19). -/
def hostBank (s : State) (i : Nat) : Bool :=
  let x := region s i
  if x.last.isSome && x.swappedAt == s.now then !x.bank else x.bank

/-- The physical word that a host read of word `w` reaches. -/
def hostReadTarget (s : State) (w : Nat) : Nat :=
  match regionAt s w with
  | some (i, r, other) =>
    if r.banked then
      bankWord r (if other then !hostBank s i else hostBank s i) (w - (if other then r.base1 else r.base))
    else w
  | none => w

/-- The bank that was host-side `lag` ck ago, where a write goes whose PWE_N rose then (01 R19). -/
def bankAtRise (s : State) (i lag : Nat) : Bool :=
  let x := region s i
  if x.last.isSome && decide (s.now ≤ x.swappedAt + lag) then !x.bank else x.bank

/-- The physical word that a host write to word `w` reaches, its PWE_N having risen `lag` ck ago; none where it is
ignored. From EARLY until SERVICE every word below the station block is the host's (03 R46). -/
def hostWriteTarget (s : State) (lag w : Nat) : Option Nat :=
  if !inService s then some w
  else match regionAt s w with
    | some (i, r, other) =>
      if r.kind = 0 || other then none
      else if r.banked then some (bankWord r (bankAtRise s i lag) (w - r.base))
      else some w
    | none => some w

/-- Hardware has written this word of the image in this ck: its value stands (R243). -/
def writtenNow (s : State) (w : Nat) : Bool := s.hwWrote.1 == s.now && s.hwWrote.2.contains w

/-- A host write that is ignored, counted once (R243). -/
def ignoreWrite (s : State) : State :=
  bumpDev 20 { s with station := { s.station with ignWr := s.station.ignWr + 1 } }

/-- A host write below the station block. In BARE it is ignored, uncounted (03 R60). -/
def writeRegion (lag w : Nat) (v : Word) (be : BitVec 4) (s : State) : State :=
  if inBare s then s
  else match hostWriteTarget s lag w with
    | some t => if writtenNow s t then s else storeWord t v be s
    | none => ignoreWrite s

/-! ### The station block's classes (R243) -/

/-- The bits of the enabled bytes. -/
def beMask (be : BitVec 4) : Word := mergeWord 0 0xFFFFFFFF be

/-- The bits of an event-flag word that were set in this ck: a set wins over a clear. -/
def setNow (s : State) (n : Nat) : Word :=
  let r := s.station.raised
  if r.ck != s.now then 0
  else match n with
    | 24 => r.events
    | 25 => r.chHalf.setWidth 32 | 26 => (r.chHalf >>> 32).setWidth 32
    | 27 => r.chFull.setWidth 32 | 28 => (r.chFull >>> 32).setWidth 32
    | _ => (r.hevt >>> (32 * (n - 29))).setWidth 32

/-- Clear bits of event-flag word `n` of the station block, 24 to 36. -/
def clearFlags (n : Nat) (bits : Word) (s : State) : State :=
  let b := bits &&& ~~~setNow s n
  let st := s.station
  let b64 : BitVec 64 := b.setWidth 64
  let b256 : BitVec 256 := b.setWidth 256
  { s with station := match n with
      | 24 => { st with events := st.events &&& ~~~b }
      | 25 => { st with chHalf := st.chHalf &&& ~~~b64 }
      | 26 => { st with chHalf := st.chHalf &&& ~~~(b64 <<< 32) }
      | 27 => { st with chFull := st.chFull &&& ~~~b64 }
      | 28 => { st with chFull := st.chFull &&& ~~~(b64 <<< 32) }
      | _ => { st with hevt := st.hevt &&& ~~~(b256 <<< (32 * (n - 29))) } }

/-- A host write to EVENTS or ATTNMASK that leaves PATN_N asserted releases it for 80 ck (R246). -/
def rearm (o s : State) : State :=
  if patnOn o && patnOn s then { s with station := { s.station with rearmEnd := some (s.now + 80) } } else s

/-- A channel names a doorbell in a descriptor in force. -/
def namesDoorbell (s : State) (b : Nat) : Bool := s.tables.dma.any (fun x => x.2.trig == 5 && x.2.arg == b)

/-- One doorbell bit is set: from SERVICE it triggers the channels that name it (R245). -/
def ringBit (b : Nat) (s : State) : State :=
  let st := s.station
  let rung := if st.rungAt = s.now then st.rung else 0
  let s := { s with station := { st with
    doorbell := st.doorbell ||| (1 <<< b), rungAt := s.now, rung := rung ||| (1 <<< b) } }
  fire (fun r => r.trig == 5 && r.arg == b) s

/-- The doorbell bits that no channel names, set in an earlier ck. -/
def unboundBits (s : State) : List Nat :=
  (List.range 32).filter (fun b => s.station.doorbell.getLsbD b && !namesDoorbell s b &&
    !(s.station.rungAt == s.now && s.station.rung.getLsbD b))

/-- From SERVICE, a doorbell bit that no channel names is cleared in the ck after it was set, and counted; one that
SERVICE entry or a commit leaves unnamed, in the ck after that (R245). -/
def doorbellDuty (s : State) : State :=
  if !inService s then s
  else each (unboundBits s) (fun b s =>
    bumpDev 22 { s with station := { s.station with doorbell := s.station.doorbell &&& ~~~((1 : Word) <<< b) } }) s

def ring (bits : Word) (s : State) : State :=
  each ((List.range 32).filter (fun b => bits.getLsbD b)) ringBit s

/-- A host write to word 0xFFC0 + n of the station block, by its class (R242, R243). -/
def writeStation (n : Nat) (v : Word) (be : BitVec 4) (s : State) : State :=
  let st := s.station
  match n with
  | 19 | 20 | 21 | 62 | 63 => storeHostWord n v be s
  | 22 => rearm s (storeHostWord n v be s)
  | 23 => ring (v &&& beMask be) s
  | 24 => rearm s (clearFlags 24 (v &&& beMask be) s)
  | 25 | 26 | 27 | 28 | 29 | 30 | 31 | 32 | 33 | 34 | 35 | 36 => clearFlags n (v &&& beMask be) s
  | 37 => { s with station := { st with ignWr := mergeWord st.ignWr v be } }
  | 38 =>
    { s with station := { st with
        attnCount := mergeWord st.attnCount v be + (if st.attnAt = some s.now then 1 else 0) } }
  | _ => ignoreWrite s

/-- A host write lands, its PWE_N having risen `lag` ck ago: before the clear is complete it is ignored and counted as
early (03 R46); with no byte enabled it changes nothing (R230). -/
def landWrite (lag w : Nat) (v : Word) (be : BitVec 4) (s : State) : State :=
  if be = 0 then s
  else if !s.boot.cleared then bumpDev 19 s
  else if 0xFFC0 ≤ w then writeStation (w - 0xFFC0) v be (wakeS3 s)
  else writeRegion lag w v be s

/-- Host writes land: the device runs, in S0 to S3, and VDDIO_P is not browned out (R234; 15 R331). -/
def pipWrites (s : State) : Bool := running s && !s.supply.bankP.brown

/-- Word, data and byte enables of an access: 32 bits wide, or a half by 00 R7. -/
def accessWord (s : State) (pa : BitVec 17) : Nat :=
  if s.straps.pipW16 then pa.toNat / 2 else pa.toNat % 65536
def accessData (s : State) (pa : BitVec 17) (v : Word) : Word :=
  if s.straps.pipW16 then (if pa.getLsbD 0 then v <<< 16 else v &&& 0xFFFF) else v
def accessBytes (s : State) (pa : BitVec 17) (be : BitVec 4) : BitVec 4 :=
  if s.straps.pipW16 then (if pa.getLsbD 0 then (be &&& 3) <<< 2 else be &&& 3) else be

/-- HOST_WRITE (R230, R232, R235, R236, R243), whose PWE_N rose `x.lag` ck before (01 R13, R19); any access but the
second half's discards the latch (R233). -/
def execHostWrite (pa : BitVec 17) (data : Word) (x : Strobe) (s : State) : Host.Outcome State Fault Refusal :=
  act (pipWrites s) (fun s =>
    landWrite x.lag.val (accessWord s pa) (accessData s pa data) (accessBytes s pa x.be) { s with halfLatch := none }) s

/-! ### Reads (R230, R233; 15 R329) -/

/-- A word as the host reads it: an uncorrectable word's stored bits uncorrected. -/
def hostWord (s : State) (w : Nat) : Word :=
  if 0xFFC0 ≤ w then
    (if s.boot.cleared && uncorrectable (flips s .processImage 0 w) then storedWord s w else stationWord s (w - 0xFFC0))
  else if !s.boot.cleared || inBare s then 0
  else
    let t := hostReadTarget s w
    if uncorrectable (flips s .processImage 0 t) then storedWord s t else readWord s t

/-- What a read finds in the SRAM word it reaches. -/
def judgeRead (w : Nat) (s : State) : State :=
  if !s.boot.cleared || !running s then s
  else if 0xFFC0 ≤ w then judgeImage w s
  else if inBare s then s
  else judgeImage (hostReadTarget s w) s

/-- The two halves of a word. -/
def lowHalf (v : Word) : BitVec 16 := v.setWidth 16
def highHalf (v : Word) : BitVec 16 := (v >>> 16).setWidth 16

/-- A read in 16-bit mode: half 0 latches the upper half, and half 1 of the same word, read next, returns
the latched bits. -/
def readHalf (pa : BitVec 17) (s : State) : State :=
  let w := pa.toNat / 2
  let v := hostWord s w
  if pa.getLsbD 0 then
    let h := match s.halfLatch with
      | some (n, u) => if n = w then u else highHalf v
      | none => highHalf v
    let fresh := match s.halfLatch with | some (n, _) => n != w | none => true
    { emit (.pd s.now pa (h.setWidth 32)) (whenB fresh (judgeRead w) s) with halfLatch := none }
  else
    { emit (.pd s.now pa ((lowHalf v).setWidth 32)) (judgeRead w s) with halfLatch := some (w, highHalf v) }

/-- A read in 32-bit mode. -/
def readWhole (pa : BitVec 17) (s : State) : State :=
  let w := pa.toNat % 65536
  { emit (.pd s.now pa (hostWord s w)) (judgeRead w s) with halfLatch := none }

/-- HALF_READ_LATCH (R233): a host read. In S4 and in reset, and while VDDIO_P is browned out, PD stays high
impedance; frozen, reads return the frozen image (R234, R249; 15 R331). -/
def execHalfReadLatch (pa : BitVec 17) (s : State) : Host.Outcome State Fault Refusal :=
  act (!s.supply.inReset && s.power.level != 4 && !s.supply.bankP.brown) (fun s =>
    if s.straps.pipW16 then readHalf pa s else readWhole pa s) s

/-! ### Writes to the flag words -/

/-- EVENT_FLAG_CLEAR (R243, R246): words EVENTS to HEVT7. -/
def execEventFlagClear (w : Fin 13) (bits : Word) (s : State) : Host.Outcome State Fault Refusal :=
  act (pipWrites s) (fun s => landWrite 0 (0xFFD8 + w.val) bits 15 { s with halfLatch := none }) s

/-- ATTNMASK_WRITE (R246). -/
def execAttnmaskWrite (value : Word) (be : BitVec 4) (s : State) : Host.Outcome State Fault Refusal :=
  act (pipWrites s) (fun s => landWrite 0 0xFFD6 value be { s with halfLatch := none }) s

/-- DOORBELL_RING (R243, R245). -/
def execDoorbellRing (bits : Word) (s : State) : Host.Outcome State Fault Refusal :=
  act (pipWrites s) (fun s => landWrite 0 0xFFD7 bits 15 { s with halfLatch := none }) s

/-- HOSTLTR_WRITE (R247): the next evaluation takes it (14). -/
def execHostltrWrite (value : Word) (be : BitVec 4) (s : State) : Host.Outcome State Fault Refusal :=
  act (pipWrites s) (fun s => landWrite 0 0xFFD3 value be { s with halfLatch := none }) s

/-- REARM_PULSE_END (R246): PATN_N is asserted again where a flag still calls for it, and counted. -/
def execRearmPulseEnd (s : State) : Host.Outcome State Fault Refusal :=
  act (running s && (match s.station.rearmEnd with | some t => decide (t ≤ s.now) | none => false)) (fun s =>
    { s with station := { s.station with rearmEnd := none } }) s

end Sys2Proof.Machine
end

