-- ==== Sys2Proof/Machine/Time.lean ====
section
/-!
DEFINITION. The family of Dunlin: the domain servos and states (05 R103 to R105), alignment (R107), link
delay (R103), latencies (R109), the time pins (R110, R112), TIME and ECHO blocks (R113 to R115), and the
counters' wrap (R101).
-/
namespace Sys2Proof.Machine

/-! ### Stamps (R108) -/

/-- A counter at the middle of one of the eight phases of this ck. -/
def stampOf (count inc phase : Nat) : Nat := count + inc * (2 * phase + 1) / 16

def localStamp (s : State) (phase : Nat) : Nat := stampOf s.dunlin.localCount nominalInc phase
def domStamp (s : State) (d : Dom) (phase : Nat) : Nat := stampOf (dom s d).count (dom s d).inc phase

/-! ### Domain states (R104, R105) -/

/-- The domain's port mask of the TIME record names a port (R75, R103). -/
def inMask (s : State) (d : Dom) (p : Nat) : Bool :=
  hasBit (if d = 0 then s.tables.time.mask0 else s.tables.time.mask1) p

def domEnabled (s : State) (d : Dom) : Bool := (dom s d).st != .disabled

/-- Dunlin takes the gPTP frames of a port (07 R155): in the mask of either enabled domain, its link up. -/
def gptpPort (s : State) (p : Nat) : Bool :=
  (port s p).up && ((domEnabled s 0 && inMask s 0 p) || (domEnabled s 1 && inMask s 1 p))

/-- The preferred domain; the enabled one where only one is enabled (R105). -/
def preferredDom (s : State) : Dom :=
  let t := s.tables.time
  if t.en0 && t.en1 then (if t.preferred then 1 else 0) else if t.en1 then 1 else 0

/-- A domain's Sync interval in ck: 2^logSyncInterval s (R103, R105). -/
def syncInterval (s : State) (d : Dom) : Nat :=
  let l := if d = 0 then s.tables.time.logSync0 else s.tables.time.logSync1
  800000000 / 2 ^ (-l).toNat

/-- The choice of the working domain when one reaches LOCKED (R105, R118). -/
def chooseWorking (d : Dom) (s : State) : State :=
  match s.dunlin.firstLock with
  | none =>
    idleRate (otherDom d)
      (rebase true { s with dunlin := { s.dunlin with firstLock := some (d, s.now), working := d } })
  | some (f, t) =>
    if s.dunlin.working = d then s
    else if (dom s s.dunlin.working).st = .disabled then idleRate (otherDom d) (hotSwitch s)
    else if d = preferredDom s ∧ f ≠ d ∧ s.now ≤ t + syncInterval s d then
      rebase false { s with dunlin := { s.dunlin with firstLock := some (d, t), working := d } }
    else s

/-- A domain enters a state (R104): an exit from LOCKED is counted and logged, and may call for a hot switch. -/
def enterDom (d : Dom) (st : DomState) (s : State) : State :=
  let x := dom s d
  let t := setDom d { x with st := st, good := 0, bad := 0,
                             lockedSince := x.lockedSince || (st == .locked && inService s) } s
  if x.st = .locked ∧ st ≠ .locked then
    callSwitch d (logFault 0x70 d.val (d.val + domCode st * 2) (bump 0x22 d.val 1 t))
  else if x.st ≠ .locked ∧ st = .locked then chooseWorking d t
  else t

/-- A domain's grandmaster is known: a change of identity sends it to ACQUIRE (R104). -/
def takeGm (d : Dom) (gm : BitVec 64) (s : State) : State :=
  let x := dom s d
  let t := setDom d { x with gm := some gm } s
  match x.gm with
  | some g => if g = gm then t else enterDom d .acquire t
  | none => t

/-! ### The servo (R104) -/

def servoRange : Int := 1342177

/-- The loop's time constant in ck: 16 Sync intervals. -/
def loopCk (s : State) (d : Dom) : Nat := 16 * syncInterval s d

/-- The proportional and the integral term for an offset, in units of 2^-32 ns a ck: an offset is removed over the
time constant, and the integral grows by the sixteenth of that which one Sync interval is (R104). The two gains
are open (Config). -/
def propTerm (s : State) (d : Dom) (off : Int) : Int := -(off * Config.servoKp) / (2 ^ 16 * loopCk s d : Nat)
def nextIntegral (s : State) (d : Dom) (off : Int) : Int :=
  (dom s d).integral - off * Config.servoKi / (2 ^ 16 * 16 * loopCk s d : Nat)

/-- The trim, held within the range of R101; the second part says that it would need more (R117). -/
def trimmed (s : State) (d : Dom) (off : Int) : Nat × Bool :=
  let want := propTerm s d off + nextIntegral s d off
  ((nominalInc + max (-servoRange) (min servoRange want)).toNat, decide (servoRange < want.natAbs))

/-- The lock threshold in units of 2^-32 ns. -/
def lockUnits (s : State) : Nat := s.tables.time.lockNs * unitsPerNs

/-- Step a domain counter by the negative of an offset; a step of the working domain beneath H is a rebase
(R104, R107). -/
def stepDom (d : Dom) (off : Int) (s : State) : State :=
  let x := dom s d
  let s := bump 0x22 d.val 0 (setDom d { x with count := timeOfInt ((x.count : Int) - off), good := 0 } s)
  if s.dunlin.rebased ∧ s.dunlin.working = d then rebase false s else s

/-- Trim the increment, and follow the state table for an offset. -/
def trimDom (d : Dom) (off : Int) (s : State) : State :=
  let (inc, sat) := trimmed s d off
  let thr := lockUnits s
  let x := dom s d
  let good := if off.natAbs ≤ thr then x.good + 1 else 0
  let bad := if 10 * thr < off.natAbs then x.bad + 1 else 0
  let s := setDom d { x with inc := inc, integral := nextIntegral s d off, saturated := sat, good := good, bad := bad } s
  match x.st with
  | .acquire => if 16 ≤ good ∧ !sat then enterDom d .locked s else s
  | .locked => if 4 ≤ bad then enterDom d .acquire s else s
  | .holdover => if off.natAbs ≤ thr then enterDom d .locked s else enterDom d .acquire s
  | .disabled => s

/-- The servo measures an offset at an accepted Sync. -/
def servo (d : Dom) (off : Int) (s : State) : State :=
  let s := setDom d { dom s d with offset := off, lastSync := some s.now } s
  if (dom s d).st = .acquire ∧ 1000 * unitsPerNs < off.natAbs then stepDom d off s else trimDom d off s

/-- The offset from master: the domain's stamp at the ET balls less the master's time there (R103, R108). -/
def syncOffset (s : State) (d : Dom) (x : SyncInfo) : Int :=
  (domStamp s d x.phase.val : Int) - (port s x.port.val).rxLat - (x.master + (port s x.port.val).linkDelay)

/-- The enabled domain that the TIME record gives a gPTP domain number (R75, R103). -/
def domOf (s : State) (number : Nat) : Option Dom :=
  if domEnabled s 0 && s.tables.time.gptp0 == number then some 0
  else if domEnabled s 1 && s.tables.time.gptp1 == number then some 1
  else none

/-- A message of domain d comes in on a port that serves the domain. -/
def domPort (s : State) (d : Dom) (p : Port) : Bool := inMask s d p.val && (port s p.val).up

/-- A Sync of a domain: accepted on its slave port (log entry 20). -/
def takeSync (d : Dom) (x : SyncInfo) (s : State) : State :=
  if domPort s d x.port ∧ (dom s d).slavePort = some x.port
  then servo d (syncOffset s d x) (takeGm d x.gm s) else s

/-- SYNC_RECEIVED (R104). -/
def execSyncReceived (x : SyncInfo) (s : State) : Host.Outcome State Fault Refusal :=
  act (ckRuns s) (fun s => match domOf s x.number with | some d => takeSync d x s | none => s) s

/-- SYNC_LOSS_TIMEOUT (R104). -/
def execSyncLossTimeout (d : Dom) (s : State) : Host.Outcome State Fault Refusal :=
  act (ckRuns s && (dom s d).st == .locked &&
    (match (dom s d).lastSync with
     | some t => decide (t + msCk s.tables.time.lossMs ≤ s.now) | none => true)) (enterDom d .holdover) s

/-- ALIGNMENT_COMPLETE (R107): h has reached zero, and ALIGNING returns to 0. -/
def execAlignmentComplete (s : State) : Host.Outcome State Fault Refusal :=
  act (ckRuns s && s.dunlin.h == 0 && s.dunlin.slewPpm != 0) (fun s =>
    { s with dunlin := { s.dunlin with slewPpm := 0 } }) s

/-! ### Best master (R103) -/

/-- The vector that the best master clock algorithm compares, better first. -/
def bmcaVector (x : AnnounceInfo) : List Nat :=
  [x.priority1, x.clockClass, x.accuracy, x.variance, x.priority2, x.gm.toNat, x.steps, x.source, x.port.val]

def vectorLess : List Nat → List Nat → Bool
  | a :: l, b :: m => decide (a < b) || (a == b && vectorLess l m)
  | _, _ => false

/-- The better of two Announce frames. -/
def betterMaster (b : Option AnnounceInfo) (x : AnnounceInfo) : Option AnnounceInfo :=
  match b with
  | none => some x
  | some y => if vectorLess (bmcaVector x) (bmcaVector y) then some x else some y

/-- The Announce frames that count: heard on a port of the mask whose link is up, their receipt timeout not over. -/
def heardNow (s : State) (d : Dom) : List (AnnounceInfo × Nat) :=
  (dom s d).heard.filter (fun y => domPort s d y.1.port && decide (s.now < y.2))

/-- The best of them. -/
def bestMaster (s : State) (d : Dom) : Option AnnounceInfo :=
  ((heardNow s d).map (·.1)).foldl betterMaster none

/-- The slave port is that of the best master; a new grandmaster sends the domain to ACQUIRE (R103, R104). -/
def chooseMaster (d : Dom) (s : State) : State :=
  let s := setDom d { dom s d with heard := heardNow s d } s
  match bestMaster s d with
  | some b => takeGm d b.gm (setDom d { dom s d with slavePort := some b.port } s)
  | none => setDom d { dom s d with slavePort := none } s

/-- The Announce receipt timeout: 3 intervals of the Announce's own (IEEE 802.1AS-2020; log entry 9), in ck. -/
def announceTimeout (x : AnnounceInfo) : Nat :=
  3 * (if 0 ≤ x.logInterval then 800000000 * 2 ^ x.logInterval.toNat else 800000000 / 2 ^ (-x.logInterval).toNat)

/-- An Announce of a domain: the newest of each port is kept, and the best master taken. -/
def takeAnnounce (d : Dom) (x : AnnounceInfo) (s : State) : State :=
  if domPort s d x.port ∧ x.steps < 255 then
    let heard := (dom s d).heard.filter (fun y => y.1.port != x.port) ++ [(x, s.now + announceTimeout x)]
    chooseMaster d (setDom d { dom s d with heard := heard } s)
  else s

/-- ANNOUNCE_RECEIVED (R103). -/
def execAnnounceReceived (x : AnnounceInfo) (s : State) : Host.Outcome State Fault Refusal :=
  act (ckRuns s) (fun s => match domOf s x.number with | some d => takeAnnounce d x s | none => s) s

/-- In each ck, an Announce whose receipt timeout is over, or whose port is down or no longer in the mask, leaves
the comparison (R103, R118). -/
def masterDuty (s : State) : State :=
  each [0, 1] (fun d s =>
    if domEnabled s d && (heardNow s d).length != (dom s d).heard.length then chooseMaster d s else s) s

/-! ### Link delay (R103) -/

/-- Picoseconds in units of 2^-32 ns. -/
def psUnits (n : Nat) : Int := ((n * unitsPerNs / 1000 : Nat) : Int)

/-- The transmit stamp of a message that leaves its MAC in this ck: the crossing to MTX takes 8 ck and a residual of at
most one period of the slower clock, the capture there is taken at the middle of one of a ck's eight phases, and
the transmit latency is added (R108; 01 R13, R377). -/
def egressStamp (s : State) (p : Nat) : Int :=
  let slow := max ckUnits (psUnits (wordPeriodPs (port s p).mode)).toNat
  let past := Crossing.ckMtx.ck * ckUnits + Config.egressResidual s.free % (slow + 1)
  ((s.dunlin.localCount + past / phaseUnits * phaseUnits + halfPhase : Nat) : Int) + (port s p).txLat

/-- PDELAY_REQ_SEND (R103): logPdelayReqInterval is 0. -/
def execPdelayReqSend (p : Port) (s : State) : Host.Outcome State Fault Refusal :=
  act (ckRuns s && gptpPort s p.val && decide ((port s p.val).pdelayDue ≤ s.now)) (fun s =>
    let x := port s p.val
    let t1 := egressStamp s p.val
    let s := setPort s p.val { x with
      pdelaySeq := x.pdelaySeq + 1, pdelayDue := s.now + 800000000, pdelayT1 := some t1, pdelayResp := none }
    drawFree (emit (.control s.now p.val (.pdelayReq (x.pdelaySeq + 1))) s)) s

/-- The mean link delay of an exchange by IEEE 802.1AS-2020: half of the round trip, scaled by the neighbour's rate
ratio, less the responder's turnaround. The ratio is that of the responder's and the requester's times between the
exchange before, if there was one, and this one (log entry 8). -/
def meanLinkDelay (last : Option (Int × Int)) (t1 t2 t3 t4 : Int) : Int :=
  let trip := match last with
    | some (u3, u4) => if u4 = t4 then t4 - t1 else (t4 - t1) * (t3 - u3) / (t4 - u4)
    | none => t4 - t1
  (trip - (t3 - t2)) / 2

/-- A request is answered in two steps; a response and its follow-up give the link delay (R103). -/
def takePdelay (p : Nat) (m : PdelayMsg) (phase : Nat) (s : State) : State :=
  let x := port s p
  let rx : Int := (localStamp s phase : Int) - x.rxLat
  match m with
  | .req seq =>
    drawFree (emit (.control s.now p (.pdelayFollowUp seq (egressStamp s p))) (emit (.control s.now p (.pdelayResp seq rx)) s))
  | .resp seq t2 =>
    if seq = x.pdelaySeq ∧ x.pdelayT1.isSome then setPort s p { x with pdelayResp := some (t2, rx) } else s
  | .followUp seq t3 =>
    if seq = x.pdelaySeq then
      match x.pdelayT1, x.pdelayResp with
      | some t1, some (t2, t4) =>
        setPort s p { x with linkDelay := meanLinkDelay x.pdelayLast t1 t2 t3 t4, pdelayLast := some (t3, t4),
                             pdelayT1 := none, pdelayResp := none }
      | _, _ => s
    else s

/-- PDELAY_RECEIVED (R103). -/
def execPdelayReceived (p : Port) (m : PdelayMsg) (phase : Fin 8) (s : State) : Host.Outcome State Fault Refusal :=
  act (ckRuns s && gptpPort s p.val) (takePdelay p.val m phase.val) s

/-- SIGNALING_RECEIVED (R103): counted and ignored. -/
def execSignalingReceived (p : Port) (s : State) : Host.Outcome State Fault Refusal :=
  act (ckRuns s && gptpPort s p.val) (bumpPort p.val 15) s

/-! ### Serdes latency (R109) -/

/-- One update toward a measured value, by at most 10 ps. -/
def latencyStep (now' want : Int) : Int := max (now' - psUnits 10) (min (now' + psUnits 10) want)

/-- A port's latencies move toward values that the replica measured, and the next measurement is 1 ms away. -/
def takeLatency (p : Nat) (tx rx : Int) (s : State) : State :=
  let x := port s p
  setPort s p { x with txLat := latencyStep x.txLat tx, rxLat := latencyStep x.rxLat rx, latencyDue := s.now + msCk 1 }

/-- SERDES_LATENCY_REMEASURE (R109): every 1 ms, not on a port in low power (14 R314). -/
def execSerdesLatencyRemeasure (p : Port) (txPs rxPs : Nat) (s : State) : Host.Outcome State Fault Refusal :=
  act (ckRuns s && (port s p.val).up && !(port s p.val).lowPower && decide ((port s p.val).latencyDue ≤ s.now))
    (takeLatency p.val (psUnits txPs) (psUnits rxPs)) s

/-! ### Time pins (R110, R112) -/

/-- The working domain is LOCKED or in HOLDOVER. -/
def ppsRuns (s : State) : Bool :=
  (dom s s.dunlin.working).st == .locked || (dom s s.dunlin.working).st == .holdover

/-- The working domain's nanoseconds return to zero in this ck. -/
def secondHere (s : State) : Bool :=
  decide (workingCount s % unitsPerSec < (dom s s.dunlin.working).inc)

/-- PPS_OUT_PULSE (R110): the edge is placed at the instant of the second (R116). -/
def execPpsOutPulse (s : State) : Host.Outcome State Fault Refusal :=
  act (ckRuns s && ppsRuns s && s.tables.time.ppsUs != 0 && secondHere s) (fun s =>
    let near := match s.dunlin.ppsLast with | some t => decide (s.now < t + 400000000) | none => false
    let ph := edgePhase s (workingCount s % unitsPerSec) (dom s s.dunlin.working).inc
    if near then bumpDev 7 s
    else emit (.edge (ph / 8) (ph % 8) .ppsOut 1) { s with dunlin := { s.dunlin with
      ppsHigh := true, ppsPhase := ph % 8, ppsEnd := ph / 8 + usCk s.tables.time.ppsUs, ppsLast := some s.now } }) s

/-- PPS_OUT_PULSE_END (R110): the fall has the phase of the rise; in S3 it is placed on XK (14 R316). -/
def execPpsOutPulseEnd (s : State) : Host.Outcome State Fault Refusal :=
  act (running s && s.dunlin.ppsHigh && decide (s.dunlin.ppsEnd ≤ s.now)) (fun s =>
    let e := if s.power.level = 3 then Emission.edge s.now 0 .ppsOut 0
      else Emission.edge s.dunlin.ppsEnd s.dunlin.ppsPhase .ppsOut 0
    emit e { s with dunlin := { s.dunlin with ppsHigh := false } }) s

/-- An input captures an edge: PPS_IN the rising ones (R112). -/
def captures (i : Fin 3) (rising : Bool) : Bool := i != 0 || rising

/-- A capture's stamps: at the middle of its phase, or on XK in S3 (R112; 14 R317). -/
def captureOf (s : State) (rising : Bool) (phase : Nat) : Capture :=
  let w := s.dunlin.working
  if s.power.level = 3 then
    { rising := rising, stampLocal := s.dunlin.localCount, stampWorking := workingCount s }
  else { rising := rising, stampLocal := localStamp s phase, stampWorking := domStamp s w phase }

/-- A capture enters its queue of 16, or is dropped and counted (R112). -/
def queueCapture (i : Fin 3) (c : Capture) (s : State) : State :=
  let x := input s i.val
  if 16 ≤ x.captures.length then (if i = 0 then bumpDev 9 s else bump 0x21 i.val 1 s)
  else setInput s i.val { x with captures := x.captures ++ [c] }

/-- The edge triggers Avocet: EVT_IN only, 4 ck after the edge (11 R254). -/
def edgeTrigger (i : Fin 3) (rising : Bool) (s : State) : State :=
  if i = 0 then s
  else { s with avocet := { s.avocet with
      edges := s.avocet.edges ++ [(s.now + Crossing.edgeCk.ck, i.val - 1, rising)] } }

/-- An edge that is not rejected. -/
def takeEdge (i : Fin 3) (rising : Bool) (phase : Nat) (s : State) : State :=
  let s := if captures i rising then queueCapture i (captureOf s rising phase) s else s
  edgeTrigger i rising (wakeS3 s)

/-- Less than 10 ns after the previous edge of the pin (R112). -/
def tooClose (s : State) (i : Fin 3) (at' : Nat) : Bool :=
  match (input s i.val).lastEdge with | some t => decide (at' < t + 10000) | none => false

/-- TIME_INPUT_EDGE (R112). `ps` is the edge's instant within the ck. -/
def execTimeInputEdge (i : Fin 3) (rising : Bool) (ps : Fin 1250) (s : State) : Host.Outcome State Fault Refusal :=
  act (running s) (fun s =>
    let at' := s.now * 1250 + ps.val
    let close := tooClose s i at'
    let s := setInput s i.val { input s i.val with lastEdge := some at' }
    if close then (if captures i rising then bump 0x21 i.val 0 s else s)
    else takeEdge i rising (ps.val * 8 / 1250) s) s

/-! ### TIME and ECHO blocks (R113 to R115) -/

/-- Status [1:0] and [2] of a long TIME block (R113). -/
def timeStatus (s : State) (k : Nat) : Nat :=
  (if !s.dunlin.rebased then 0 else if aligning s then 1 else if timeLock s then 2 else 3) +
    bitW (link s k).pathValid 4

/-- H when a block's first bit reaches the module's balls: its departure plus the path delay. -/
def carriedTime (s : State) (k : Nat) : Nat :=
  timeOfInt (heronTime s + (lane s (timingLane s k)).txLatency + (link s k).pathDelay)

/-- The block that is due: every sixteenth in the long form, with the seconds of the short block after it. -/
def timeBlock (s : State) (k : Nat) : Block :=
  let x := link s k
  let t := carriedTime s k
  if x.timeCount % 16 = 15 then
    let after := t + 1024 * slotCk x.rate * ckUnits
    mkTimeLong x.timeTag (after / unitsPerSec / 65536) (timeStatus s k)
  else mkTimeShort x.timeTag (t / unitsPerSec) (t % unitsPerSec / unitsPerNs) (t / 2 ^ 26 % 64)

/-- TIME blocks sent in the last 10 µs (R114): tag, t1, ck. -/
def recentTags (s : State) (k : Nat) : List (Nat × Nat × Nat) :=
  (link s k).sentTags.filter (fun x => decide (s.now ≤ x.2.2 + usCk 10))

/-- A TIME block leaves, with its tag and the stamp of its departure (R113, R114). -/
def noteTime (k : Nat) (s : State) : State :=
  let x := link s k
  let t1 := timeOfInt ((s.dunlin.localCount : Int) + (lane s (timingLane s k)).txLatency)
  setLink s k { x with
    timeOwed := false, timeTag := (x.timeTag + 1) % 16, timeCount := x.timeCount + 1,
    missed := x.missed + 1, sentTags := recentTags s k ++ [(x.timeTag, t1, s.now)] }

/-- A TIME block has fallen due: it takes the timing lane's next position, and carries the time of that (R113; 08 R207). -/
def oweTime (k : Nat) (s : State) : State :=
  let x := link s k
  setLink s k { x with timeOwed := true, timeDue := s.now + 1024 * slotCk x.rate }

/-- TIME_BLOCK_SEND (R113): not in BARE, not while the lanes sleep (R118). -/
def execTimeBlockSend (k : Link) (s : State) : Host.Outcome State Fault Refusal :=
  act (serdesRun s && !inBare s && (link s k.val).st == .active && (lanesRec s k.val).timeBlocks &&
    !(link s k.val).asleep && decide ((link s k.val).wakeEnd ≤ s.now) && decide ((link s k.val).timeDue ≤ s.now))
    (oweTime k.val) s

/-- The middle of an odd number of samples, or the mean of the two middle ones. -/
def median (l : List Int) : Int :=
  let m := rising (fun a b => decide (a ≤ b)) l
  let n := l.length
  if n % 2 = 1 then m.getD (n / 2) 0 else (m.getD (n / 2 - 1) 0 + m.getD (n / 2) 0) / 2

/-- t4 of an ECHO: its capture less the receive latency in force (R115). -/
def echoArrival (s : State) (k phase : Nat) : Int :=
  (localStamp s phase : Int) - (lane s (timingLane s k)).latency

/-- A round-trip sample is accepted, or discarded as more than 2 ns from the median (R115). DESIGN CHOICE (log entry
21): after ECHO_MISSING, status bit [2] is 1 again at the next accepted sample. -/
def takeRtt (k : Nat) (rtt : Int) (s : State) : State :=
  let x := link s k
  if 8 ≤ x.rtts.length ∧ 2 * unitsPerNs < (rtt - median x.rtts).natAbs then bumpLink k 24 s
  else
    let l := (x.rtts ++ [rtt]).drop (x.rtts.length - 7)
    setLink s k { x with
      rtts := l, accepted := x.accepted + 1, missed := 0,
      pathDelay := if 4 ≤ x.accepted + 1 then median l / 2 else 0, pathValid := decide (4 ≤ x.accepted + 1) }

/-- ECHO_RECEIVED (R114, R115). A turnaround at the field's end answers no block of the last 10 µs (R117). -/
def execEchoReceived (k : Link) (body : Block) (phase : Fin 8) (s : State) : Host.Outcome State Fault Refusal :=
  act (serdesRun s && (link s k.val).st == .active && blockType body == 0x5A && crc8Good body) (fun s =>
    match (recentTags s k.val).find? (fun x => x.1 == echoTag body) with
    | some x =>
      if echoTurn body = 2 ^ 24 - 1 then bumpLink k.val 26 s
      else takeRtt k.val (echoArrival s k.val phase.val - x.2.1 - (echoTurn body * 2 ^ 24 : Nat)) s
    | none => bumpLink k.val 26 s) s

/-- ECHO_MISSING (R115): 16 TIME blocks in a row with no accepted echo, the last one's 10 µs over. -/
def execEchoMissing (k : Link) (s : State) : Host.Outcome State Fault Refusal :=
  act (ckRuns s && (link s k.val).st == .active && (link s k.val).pathValid &&
    decide (16 ≤ (link s k.val).missed) && ((recentTags s k.val).isEmpty || decide (17 ≤ (link s k.val).missed))) (fun s =>
    let s := bumpLink k.val 25 s
    setLink s k.val { link s k.val with pathValid := false }) s

/-! ### The wrap of the seconds (R101) -/

/-- The counters LOCAL, DOM0 and DOM1. -/
def counterValue (s : State) (c : Fin 3) : Nat :=
  match c with | 0 => s.dunlin.localCount | 1 => s.dunlin.dom0.count | 2 => s.dunlin.dom1.count

def setCounter (c : Fin 3) (v : Nat) (s : State) : State :=
  match c with
  | 0 => { s with dunlin := { s.dunlin with localCount := v } }
  | 1 => { s with dunlin := { s.dunlin with dom0 := { s.dunlin.dom0 with count := v } } }
  | 2 => { s with dunlin := { s.dunlin with dom1 := { s.dunlin.dom1 with count := v } } }

/-- The range of a counter. -/
def counterRange : Nat := 2 ^ 48 * unitsPerSec

/-- DUNLIN_SECONDS_WRAP (R101). -/
def execDunlinSecondsWrap (c : Fin 3) (s : State) : Host.Outcome State Fault Refusal :=
  act (running s && decide (counterRange ≤ counterValue s c)) (fun s =>
    setCounter c (counterValue s c - counterRange) (bumpDev 8 s)) s

end Sys2Proof.Machine
end

