-- ==== Sys2Proof/Machine/PowerOps.lean ====
section
/-!
DEFINITION. The effective tolerance and the level it permits (14 R307 to R311), idleness (R308), and the
conditions of S3 and S4 (R315, R318). Tolerances are in units of 2^-32 ns; none is unbounded.
-/
namespace Sys2Proof.Machine

def unitsPerUs : Nat := 1000 * unitsPerNs

/-- The lesser of two tolerances. -/
def minTol : Option Nat → Option Nat → Option Nat
  | none, y => y
  | x, none => x
  | some x, some y => some (min x y)

/-- A tolerance field in µs, 0xFFFFFFFF unbounded (R309). -/
def fieldTol (n : Nat) : Option Nat := if n = 0xFFFFFFFF then none else some (n * unitsPerUs)

/-- A tolerance permits an exit latency: equality does (R311, R323). -/
def tolAllows (e : Option Nat) (x : Nat) : Bool := match e with | none => true | some v => decide (x ≤ v)

/-! ### t_next (R310): distances from now -/

/-- From now to an offset of this cycle, or of the next where it has passed. -/
def toOffset (s : State) (off : Nat) : Nat :=
  let here := s.heron.boundary + off * ckUnits
  if s.heron.acc < here then here - s.heron.acc else here + s.heron.len - s.heron.acc

/-- Offsets at which a gate list changes its vector or hold flag (R310). -/
def gateChanges : List GatesRec → Nat → GatesRec → List Nat
  | [], _, _ => []
  | g :: r, at', prev =>
    (if g.vector = prev.vector ∧ g.hold = prev.hold then [] else [at']) ++ gateChanges r (at' + g.interval) g

def portChanges (s : State) (p : Nat) : List Nat :=
  let l := gateList s.tables p
  match l.getLast? with
  | some z => if (port s p).live && !s.heron.safe then gateChanges l 0 z else []
  | none => []

/-- The instants of R310 after now, as distances. -/
def nextInstants (s : State) : List Nat :=
  (if s.heron.started then
    (s.tables.events.map (fun x => toOffset s x.2.offset)) ++
      ((List.range 4).flatMap (portChanges s)).map (toOffset s)
   else []) ++
  (match s.commit with | some c => [(epochOf s c.time).1] | none => []) ++
  (if ppsRuns s && s.tables.time.ppsUs != 0 then [unitsPerSec - workingCount s % unitsPerSec] else []) ++
  ((List.range 4).filter (gptpPort s)).map (fun p => ((port s p).pdelayDue - s.now) * ckUnits)

def tNext (s : State) : Option Nat := (nextInstants s).foldl (fun b x => minTol b (some x)) none

/-- The event guard of the POWER record, in units (R309). -/
def guardUnits (s : State) : Nat := match s.tables.power with | some r => r.guardUs * unitsPerUs | none => 0

/-- E (R309). -/
def effective (s : State) : Option Nat :=
  let strap := (ltolUs s).map (· * unitsPerUs)
  let sched := (tNext s).map (fun d => d - guardUnits s)
  minTol (minTol strap (fieldTol s.station.hostLtr.toNat)) (minTol (fieldTol s.tables.netTol) sched)

/-- EFFTOL's form of E (R311). -/
def effTolWord (s : State) : Word :=
  match effective s with
  | none => 0xFFFFFFFF
  | some e => BitVec.ofNat 32 (e / unitsPerUs)

def rewriteEfftol (s : State) : State := { s with station := { s.station with effTol := effTolWord s } }

/-- D, the POWER record's deepest state (R307). -/
def deepest (s : State) : Nat := match s.tables.power with | some r => r.deepest | none => 0

/-- The deepest of S0 to S2 that R307 permits. -/
def shallowLevel (s : State) : Nat :=
  if !inService s then 0
  else
    let e := effective s
    if 2 ≤ deepest s ∧ tolAllows e (8 * unitsPerUs) then 2
    else if 1 ≤ deepest s ∧ tolAllows e (400 * unitsPerNs) then 1
    else 0

/-! ### Idleness (R308) and the conditions of S3 (R315) -/

/-- A port has something to send or on its wire. -/
def portBusy (s : State) (p : Nat) : Bool :=
  (port s p).tx.isSome || (port s p).preempted.isSome || !(port s p).control.isEmpty || (List.range 8).any (fun c => !(classQueue s p c).isEmpty)

def portIdle (s : State) (p : Nat) : Bool := !portBusy s p && decide ((port s p).idleSince + 800 ≤ s.now)

/-- A domain in LOCKED or HOLDOVER expects a Sync within 120 us and the guard. -/
def expectsSync (s : State) (d : Dom) : Bool :=
  let x := dom s d
  (x.st == .locked || x.st == .holdover) &&
    (match x.lastSync with
     | some t =>
       let due := t + syncInterval s d
       decide (s.now ≤ due) && decide (due ≤ s.now + usCk 120 + (guardUnits s + ckUnits - 1) / ckUnits)
     | none => false)

/-- The conditions of R315, apart from their 4 us. -/
def quietNow (s : State) : Bool :=
  s.classQ.all (fun x => x.2.isEmpty) && s.streams.all (fun x => x.2.queue.isEmpty) &&
  s.vcs.all (fun x => x.2.txQ.isEmpty && x.2.rxMsgs.isEmpty) && s.hid.rx.isEmpty &&
  s.links.all (fun x => x.2.store.isEmpty) &&
  s.chans.all (fun x => x.2.status != .busy && !x.2.pendingFlag && x.2.triggers.isEmpty) &&
  (List.range 4).all (fun p => !(port s p).up || portIdle s p) &&
  s.links.all (fun x => (x.2.st == .off || x.2.st == .detect || (x.2.st == .active && x.2.asleep))) &&
  !expectsSync s 0 && !expectsSync s 1

/-- S3 may come into question: in SERVICE, with D of 3 or more. -/
def wantsSleep (s : State) : Bool := inService s && decide (3 ≤ deepest s)

/-- R315 has held for 4 us. -/
def quietLong (s : State) : Bool :=
  wantsSleep s && quietNow s && (match s.power.quietSince with | some t => decide (t + 3200 ≤ s.now) | none => false)

/-- A wake source or pattern filter is enabled (R318). -/
def wakeEnabled (r : PowerRec) : Bool := r.wakeMagic || r.wakeLink || r.wakePin || decide (r.filterEn ≠ 0)

/-! ### Leaving a sleep (R308, R311) -/

/-- A port in low power begins its exit: 8 us (R314). -/
def beginPortWake (p : Nat) (s : State) : State :=
  let x := port s p
  if x.lowPower && x.sendAfter == 0 then setPort s p { x with sendAfter := s.now + usCk 8 } else s

/-- A sleeping link's transmitter powers up: 7.6 us, the lanes staying in light sleep (R314). -/
def endDeep (k : Nat) (s : State) : State :=
  let x := link s k
  if x.deep then setLink s k { x with deep := false, wakeEnd := s.now + nsCk 7600 } else s

/-- The sleepers of a level begin their exit as the level drops. -/
def leaveLevel (n : Nat) (s : State) : State :=
  let s := if n < 2 then each (List.range 32) endDeep (each (List.range 4) beginPortWake s) else s
  if n = 0 then each (List.range 32) wakeLink s else s

/-- Links asleep at S2 or deeper power their transmitters down (R314). -/
def goDeep (k : Nat) (s : State) : State :=
  let x := link s k
  if x.asleep then setLink s k { x with deep := true } else s

/-- The entry counter of a level that is entered from a shallower one (R311). -/
def countEntry (o n : Nat) (s : State) : State := if o < n then bumpDev (44 + n) s else s

/-- What each ck does besides counting: the conditions of S3 are timed, a busy port's idle time restarts,
and a frame for a port in low power begins its exit (notes/assumptions/2.md). -/
def powerDuties (s : State) : State :=
  let quiet := if wantsSleep s && quietNow s then some (s.power.quietSince.getD s.now) else none
  let s := { s with power := { s.power with quietSince := quiet } }
  each (List.range 4) (fun p s =>
    if portBusy s p then
      beginPortWake p (setPort s p { port s p with idleSince := s.now })
    else s) s

end Sys2Proof.Machine
end

