-- ==== Sys2Proof/Machine/Rows.lean ====
section
/-!
DEFINITION. The rows that a link sends (08 R178, R179): in each block slot one block on every lane it drives, taken from
the lane's own blocks, the striped sequence or IDLE in ACTIVE (R183, R189, R207; 09 R225), and from the training blocks
of the state before that (09 R210 to R216).
-/
namespace Sys2Proof.Machine

/-- A block as a lane is to send it: its sync header and its body. -/
abbrev Placed := Nat × Block

def idlePlaced : Placed := (syncControl, 0x1E)

/-! ### ACTIVE -/

/-- The tail of a packet finishes sending at the end of its slot (R191). -/
def noteTail (c : TxBlock) (done : Nat) (l : List Stored) : List Stored :=
  match c.tailOf with
  | some q => l.map (fun p => if p.seq = q then { p with sentAt := some done } else p)
  | none => l

/-- The next block of the striped sequence: a control block ahead of a packet's (R189); none where none has crossed. -/
def takeStriped (k : Nat) (s : State) : Option TxBlock × State :=
  let x := link s k
  let ready := fun (l : List TxBlock) => l.head?.filter (fun c => decide (c.ready ≤ s.now))
  match ready x.control with
  | some c => (some c, setLink s k { x with control := x.control.drop 1 })
  | none =>
    match ready x.sending with
    | some c => (some c, setLink s k { x with
        sending := x.sending.drop 1, store := noteTail c (s.now + slotCk x.rate) x.store })
    | none => (none, s)

/-- A CAL block that has fallen due may stand in this slot: 64 slots after the last one (09 R225). -/
def calMay (s : State) (k n : Nat) : Bool :=
  let x := lane s n
  x.calWait.isSome && (x.calLast == 0 || decide (x.calLast + 64 * slotCk (link s k).rate ≤ s.now))

def placeCal (n : Nat) (s : State) : Placed × State :=
  ((syncControl, calBody), setLane s n { lane s n with calWait := none, calLast := s.now })

/-- A CAL block has let one more position pass. -/
def waitCal (n : Nat) (s : State) : State :=
  setLane s n { lane s n with calWait := (lane s n).calWait.map (· + 1) }

/-- What a lane of the final mask sends: a TIME block on the timing lane, a lane-local block, a CAL block that has
waited 64 slots, the striped sequence, a CAL block, IDLE (R178, R179, R207; 09 R225). -/
def activeLane (k n : Nat) (s : State) : Placed × State :=
  let x := lane s n
  if (link s k).timeOwed && timingLane s k == n then ((syncControl, timeBlock s k), noteTime k s)
  else
    match x.queue.head?.filter (fun b => decide (b.1 ≤ s.now)) with
    | some b => ((syncControl, b.2), setLane s n { x with queue := x.queue.drop 1 })
    | none =>
      if calMay s k n && decide (64 ≤ x.calWait.getD 0) then placeCal n s
      else
        match takeStriped k s with
        | (some c, t) => ((c.sync, c.body), waitCal n t)
        | (none, t) => if calMay t k n then placeCal n t else (idlePlaced, waitCal n t)

/-- A standby spare sends IDLE, and CAL blocks (09 R221, R225). -/
def spareLane (k n : Nat) (s : State) : Placed × State :=
  if calMay s k n then placeCal n s else (idlePlaced, waitCal n s)

/-! ### Training -/

/-- TS1 (0x80) or TS2 (0x81) of logical lane i (09 R210). -/
def tsBlock (s : State) (k type i : Nat) : Placed :=
  (syncControl, mkTs type i (planSpare (plan s) k && i + 1 == width s k) (plan s) k (link s k).tsCount)

/-- A PARAM block's content (09 R211). -/
def paramContent (s : State) (k i : Nat) : Nat :=
  let r := lanesRec s k
  match i with
  | 0 => r.rate * 2 ^ 12 + r.ackCount * 2 ^ 14 + r.limitN * 2 ^ 20 + r.limitM * 2 ^ 24 + bitW r.pairElim (2 ^ 28) +
      bitW r.timeBlocks (2 ^ 29) + keptLanes s k * 2 ^ 30
  | 1 => r.ackNs * 2 ^ 12 + r.replayNs * 2 ^ 25
  | 2 => r.auditUs * 2 ^ 12 + (link s k).rxS * 2 ^ 28
  | 11 => 7 * 2 ^ 12 + 128 * 2 ^ 15 + 0x4648 * 2 ^ 23
  | _ => (vc s k (i - 3)).bv * 2 ^ 12 + (vc s k (i - 3)).ac * 2 ^ 25

/-- What each lane of a link sends in a training state where no block of its own waits; none is electrical idle. -/
def trainingBlock (s : State) (k i : Nat) : Option Placed :=
  let x := link s k
  match x.st with
  | .detect => if x.beaconLeft = 0 then none else some (tsBlock s k 0x80 i)
  | .sync => some (tsBlock s k 0x80 i)
  | .align => some (tsBlock s k 0x81 i)
  | .param => some (syncControl, mkParam x.paramNext (paramContent s k x.paramNext))
  | .speedup =>
    if x.rate = x.agreed then some (tsBlock s k 0x80 i)
    else x.speedLeft.map (fun c => (syncControl, mkSpeed x.agreed c))
  | .equalize => some idlePlaced
  | _ => none

/-- What a kept lane sends in training. -/
def trainingLane (k i n : Nat) (s : State) : Placed × State :=
  let x := lane s n
  match x.queue.head?.filter (fun b => decide (b.1 ≤ s.now)) with
  | some b => ((syncControl, b.2), setLane s n { x with queue := x.queue.drop 1 })
  | none => ((trainingBlock s k i).getD idlePlaced, s)

/-- The counts of the training rows move on: beacon blocks, TS2 rows, the PARAM set, the SPEED countdown. -/
def countRow (k : Nat) (s : State) : State :=
  let x := link s k
  setLink s k { x with
    beaconLeft := x.beaconLeft - 1
    tsCount := if x.st = .align then (x.tsCount + 1) % 256 else x.tsCount
    paramNext := if x.st = .param then (x.paramNext + 1) % 12 else x.paramNext
    speedLeft := match x.speedLeft with | some (c + 1) => some c | _ => none }

/-! ### A row -/

/-- The lane drives its wire: of the final mask in ACTIVE, or a standby spare; a kept lane in training. -/
def drives (s : State) (k i : Nat) : Bool :=
  if (link s k).st = .active then hasBit (link s k).finalMask i || (hasBit (keptLanes s k) i && planSpare (plan s) k)
  else hasBit (keptLanes s k) i

/-- A lane's block of the row. In the IDLE row that every 4,096 rows must hold, every lane carries IDLE (R179). -/
def rowLane (k i n : Nat) (idleRow : Bool) (s : State) : Placed × State :=
  if (link s k).st ≠ .active then trainingLane k i n s
  else if idleRow then (idlePlaced, waitCal n s)
  else if hasBit (link s k).finalMask i then activeLane k n s
  else spareLane k n s

/-- The blocks of a row, in ascending lane order, as they stand on the lanes; and whether all are IDLE. -/
def rowWords (k : Nat) (idleRow : Bool) : List (Nat × Nat) → State → (List (Nat × LaneWord) × Bool) × State
  | [], s => (([], true), s)
  | (i, n) :: r, s =>
    let p := rowLane k i n idleRow s
    let w := sendWord n p.1.1 p.1.2 p.2
    let y := rowWords k idleRow r w.2
    (((n, w.1) :: y.1.1, p.1 == idlePlaced && y.1.2), y.2)

/-- The lanes that a link drives: logical and physical number. -/
def drivenLanes (s : State) (k : Nat) : List (Nat × Nat) :=
  ((linkLanes s k).zipIdx.map (fun x => (x.2, x.1))).filter (fun x => drives s k x.1)

/-- One row starts in this ck. -/
def sendRow (k : Nat) (s : State) : State :=
  let slot := slotCk (link s k).rate
  let r := rowWords k (decide (4095 ≤ (link s k).sinceIdle)) (drivenLanes s k) s
  let x := link r.2 k
  countRow k (setLink (emit (.row s.now k r.1.1) r.2) k { x with
    rowDue := s.now + slot
    sinceIdle := if r.1.2 then 0 else x.sinceIdle + 1
    idleSince := if r.1.2 then x.idleSince else s.now + slot })

/-- A link sends rows: not in electrical idle, whether between beacons, in the gap of SPEEDUP, asleep or before the wake
of a powered-down transmitter (09 R213, R216; 14 R312, R314). -/
def sends (s : State) (k : Nat) : Bool :=
  let x := link s k
  serdesRun s && !(drivenLanes s k).isEmpty &&
    (if x.st = .active then !x.asleep && decide (x.wakeEnd ≤ s.now + nsCk 400) else (trainingBlock s k 0).isSome)

/-- The rows that start in a ck. -/
def rowDuty (s : State) : State :=
  each (s.links.map (·.1)) (fun k s => if sends s k && decide ((link s k).rowDue ≤ s.now) then sendRow k s else s) s

/-- A TIME block sent from the LTX domain in S3, on the timing lane alone (14 R316). -/
def sleepTime (k : Nat) (s : State) : State :=
  let n := timingLane s k
  let w := sendWord n syncControl (timeBlock s k) s
  emit (.row s.now k [(n, w.1)]) (noteTime k w.2)

end Sys2Proof.Machine
end

