-- ==== Sys2Proof/Machine/Supply.lean ====
section
/-!
DEFINITION. The family of supplies, clocks and temperature (02 R28 to R31, R41; 15 R330 to R332), dual-clock
queue faults (01 R17), and the release of the internal reset (03 R44; 02 R32).
-/
namespace Sys2Proof.Machine

/-! ### Reset and its causes -/

/-- Latch a reset cause in Bittern's domain (15 R332). -/
def latchCause (c : CauseLatch) (s : State) : State := { s with supply := { s.supply with cause := c } }

/-- PGOOD is pulled low or released (02 R29). -/
def setPgood (v : Bool) (s : State) : State :=
  if s.supply.pgood = v then s
  else emit (.level s.now .pgood (bitW v 1)) { s with supply := { s.supply with pgood := v } }

/-- A full reset with PGOOD low (02 R43). -/
def loseRails (s : State) : State := fullReset (setPgood false s)

/-! ### Supplies -/

/-- The sequencer's supply first rises (R28). -/
def sequencerRises (vinMv vdd18Mv : Nat) : Bool :=
  decide (4200 < vinMv) || (decide (1620 < vdd18Mv) && decide (vinMv < 4200))

/-- EXTPWR is read and latched; on 0 the converters start from VIN, and with VIN not above 4.2 V they wait for it to
rise above 4.4 V, as R41 restarts them (DESIGN CHOICE, notes/assumptions/40.md: R28 names no voltage at which
converters that have not run yet start). -/
def readExtpwr (vinMv : Nat) (extpwr : Bool) (s : State) : State :=
  { s with supply := { s.supply with
      seqOn := true, extpwr := extpwr, cause := .empty,
      converters := if extpwr then .off else if 4200 < vinMv then .running else .stopped,
      vinLow := !extpwr && !decide (4200 < vinMv) } }

/-- POWER_ON (R28): EXTPWR is read once and latched until every supply has fallen below its power-on-reset
threshold, which `extpwr.afresh` says has happened since the last reading. -/
def execPowerOn (vinMv vdd18Mv : Nat) (extpwr : ExtpwrRead) (s : State) : Host.Outcome State Fault Refusal :=
  act ((!s.supply.seqOn || extpwr.afresh) && sequencerRises vinMv vdd18Mv) (fun s =>
    readExtpwr vinMv extpwr.level (whenB s.supply.seqOn powerCycle s)) s

/-- A rail that PGOOD watches: all four, but in S4 only VDD_18 and VAUX (R29; 14 R319). -/
def railWatched (s : State) (r : Rail) : Bool :=
  s.power.level != 4 || r == .vdd18 || r == .vaux

/-- RAIL_BROWN_OUT (R29, R43; 15 R330, R332). -/
def execRailBrownOut (rail : Rail) (s : State) : Host.Outcome State Fault Refusal :=
  act (s.supply.pgood && railWatched s rail) (fun s => loseRails (latchCause .railBrownOut s)) s

/-- RAILS_IN_REGULATION (R29): all four rails for 1 ms, from running converters or from the board. -/
def execRailsInRegulation (s : State) : Host.Outcome State Fault Refusal :=
  act (s.supply.seqOn && !s.supply.pgood &&
    (s.supply.extpwr || s.supply.converters == .running)) (setPgood true) s

/-- RESET_N (R29): below 0.5 us nothing, from 2 us a full reset, between them either. -/
def execResetN (lowNs : Nat) (s : State) : Host.Outcome State Fault Refusal :=
  act (decide (500 ≤ lowNs)) (fun s =>
    if 2000 ≤ lowNs then fullReset s
    else if Config.resetMidPulse s.free then fullReset (drawFree s) else drawFree s) s

/-- VIN_UNDERVOLTAGE (R41): below 4.2 V the converters stop, the rails leave their tolerance, PGOOD falls and
the device enters reset (15 R330, R332); converters that a thermal shutdown has stopped wait for VIN too. -/
def execVinUndervoltage (mv : Nat) (s : State) : Host.Outcome State Fault Refusal :=
  act (decide (mv < 4200) && s.supply.seqOn && !s.supply.extpwr && !s.supply.vinLow) (fun s =>
    let t := whenB (s.supply.converters == .running)
      (fun s => loseRails (whenB s.supply.pgood (latchCause .railBrownOut) s)) s
    { t with supply := { t.supply with converters := .stopped, vinLow := true } }) s

/-- VIN_RESTART (R41): above 4.4 V the converters restart. -/
def execVinRestart (mv : Nat) (s : State) : Host.Outcome State Fault Refusal :=
  act (decide (4400 < mv) && s.supply.vinLow && s.supply.converters == .stopped) (fun s =>
    { s with supply := { s.supply with
        converters := if s.supply.thermalOff then .stopped else .running, vinLow := false } }) s

/-! ### Release (03 R44) -/

/-- A bank's level at release (R25). The boundary is accurate to 50 mV, so a bank between 2.45 V and 2.55 V may be
detected either way; the model takes exactly 2.50 V (DESIGN CHOICE, notes/assumptions/40.md). -/
def bankAt (mv : Nat) : BankSt :=
  { hi := decide (2500 ≤ mv), brown := false, unpowered := decide (mv < 1200) }

/-- Overtemperature is entered, at a reading or as evaluated at release (15 R330); in S3 it is a wake cause (14 R317). -/
def enterOvertemp (s : State) : State :=
  logFault 0x83 0 0 (bumpDev 44 (wakeS3 { s with supply := { s.supply with overtemp := true } }))

/-- What the release samples and starts (R32, R34, R44; 05 R102; 13 R287). -/
def release (x : ReleaseSample) (s : State) : State :=
  let t := { s with
    now := 0
    straps := x.straps
    ladder := { s.ladder with active := true }
    freeze := { s.freeze with held := x.freezeLow }
    supply := { s.supply with
      inReset := false, xinOk := true, bankP := bankAt x.bankPMv, bankQ := bankAt x.bankQMv } }
  let t := if 125 ≤ x.celsius then enterOvertemp t else t
  bumpDev 11 (drawSession t)

/-- RESET_RELEASE (R44): PGOOD released, RESET_N high, XIN oscillating. -/
def execResetRelease (x : ReleaseSample) (s : State) : Host.Outcome State Fault Refusal :=
  act (s.supply.pgood && s.supply.inReset && !s.supply.thermalOff && s.power.bittern.isNone) (release x) s

/-! ### Clocks -/

/-- Every link retrains (15 R333). Its entry carries cause 3, DCQ: R335 lists no cause for the loss of SREFCLK, and
what fails is the queues' clock (DESIGN CHOICE, notes/assumptions/40.md). -/
def clockRetrain (s : State) : State :=
  each (List.range 32) (fun k => startRetrain k 3 0xFF false) s

/-- SREFCLK_FAULT (R31): every serdes in electrical idle; ports down, links retrain. -/
def execSrefclkFault (s : State) : Host.Outcome State Fault Refusal :=
  act (running s && !s.supply.srefFault) (fun s =>
    let s := logFault 0x32 0 0 (bumpDev 10 s)
    clockRetrain (each (List.range 4) portGoesDown { s with supply := { s.supply with srefFault := true } })) s

/-- SREFCLK_RECOVERY (15 R333): valid for 1 ms, so the serdes leave electrical idle. -/
def execSrefclkRecovery (s : State) : Host.Outcome State Fault Refusal :=
  act (running s && s.supply.srefFault) (fun s => { s with supply := { s.supply with srefFault := false } }) s

/-- XIN_LOSS (15 R330, R332): the internal reset holds until XIN oscillates. -/
def execXinLoss (s : State) : Host.Outcome State Fault Refusal :=
  act (!s.supply.inReset && s.power.bittern.isNone) (fun s =>
    let t := fullReset (latchCause .xinLost s)
    { t with supply := { t.supply with xinOk := false } }) s

/-! ### Banks (15 R330, R331) -/

def bankOf (s : State) (b : Bank) : BankSt := match b with | .p => s.supply.bankP | .q => s.supply.bankQ
def setBank (b : Bank) (x : BankSt) (s : State) : State :=
  match b with
  | .p => { s with supply := { s.supply with bankP := x } }
  | .q => { s with supply := { s.supply with bankQ := x } }

/-- The brown-out and recovery limits of a bank, in mV (R330). -/
def brownLimit (x : BankSt) : Nat := if x.hi then 2950 else 1600
def recoverLimit (x : BankSt) : Nat := if x.hi then 3050 else 1650
def bankCode (b : Bank) : Nat := match b with | .p => 0x80 | .q => 0x81

/-- The balls of a bank that the device drives. -/
def bankPins (b : Bank) : List Pin := match b with | .p => [.pd] | .q => [.qsck, .qcsN, .qio, .mdc, .mdio]

/-- A bank's supply is below 1.2 V: its balls are high impedance (02 R24). -/
def unpowerBank (b : Bank) (s : State) : State :=
  each (bankPins b) (fun p => emit (.float s.now p)) (setBank b { bankOf s b with unpowered := true } s)

/-- A brown-out: counted, logged and contained (15 R330, R331); in S3 it is a wake cause (14 R317). -/
def enterBrownOut (b : Bank) (s : State) : State :=
  setBank b { bankOf s b with brown := true } (logFault (bankCode b) 0 0 (bumpDev 43 (wakeS3 s)))

/-- BANK_BROWN_OUT (15 R330): entered below the bank's limit; below 1.2 V the balls are released too (02 R24). -/
def execBankBrownOut (b : Bank) (mv : Nat) (s : State) : Host.Outcome State Fault Refusal :=
  act (running s && decide (mv < brownLimit (bankOf s b)) &&
    (!(bankOf s b).brown || decide (mv < 1200) && !(bankOf s b).unpowered)) (fun s =>
    let s := whenB (!(bankOf s b).brown) (enterBrownOut b) s
    whenB (decide (mv < 1200)) (unpowerBank b) s) s

/-- BANK_BROWN_OUT_RECOVERY (15 R330): the bank drives its balls again, MDC low and QCS_N high. -/
def execBankBrownOutRecovery (b : Bank) (mv : Nat) (s : State) : Host.Outcome State Fault Refusal :=
  act (running s && (bankOf s b).brown && decide (recoverLimit (bankOf s b) < mv)) (fun s =>
    let t := setBank b { bankOf s b with brown := false, unpowered := false } s
    whenB (b == .q && (bankOf s b).unpowered)
      (fun s => driveQ s.now .mdc 0 (driveQ s.now .qsck 0 (driveQ s.now .qcsN 1 s))) t) s

/-! ### Temperature (15 R330) -/

/-- OVERTEMPERATURE: entered at 125 C, left below 115 C. -/
def execOvertemperature (celsius : Int) (s : State) : Host.Outcome State Fault Refusal :=
  act (running s && (if s.supply.overtemp then decide (celsius < 115) else decide (125 ≤ celsius))) (fun s =>
    if s.supply.overtemp then { s with supply := { s.supply with overtemp := false } } else enterOvertemp s) s

/-- The converters stop and the device resets; rails that the board supplies stay in regulation. -/
def shutDown (s : State) : State :=
  let t := if s.supply.extpwr then fullReset (latchCause .thermal s) else loseRails (latchCause .thermal s)
  { t with supply := { t.supply with
      thermalOff := true, converters := if t.supply.extpwr then .off else .stopped } }

/-- THERMAL_SHUTDOWN: at 140 C the converters stop and the device resets, in reset or not; it restarts
below 115 C. -/
def execThermalShutdown (celsius : Int) (s : State) : Host.Outcome State Fault Refusal :=
  act (s.supply.seqOn && (if s.supply.thermalOff then decide (celsius < 115) else decide (140 ≤ celsius)))
    (fun s =>
      if s.supply.thermalOff then
        { s with supply := { s.supply with
            thermalOff := false
            converters := if s.supply.extpwr then .off else if s.supply.vinLow then .stopped else .running } }
      else shutDown s) s

/-! ### Dual-clock queues (01 R17) -/

/-- DCQ_FAULT: a port goes down until its link criteria hold again, or a link retrains. -/
def execDcqFault (w : DcqSite) (s : State) : Host.Outcome State Fault Refusal :=
  act (ckRuns s) (fun s =>
    match w with
    | .port p => portGoesDown p.val (logFault 0x30 p.val 0 (bumpPort p.val 18 s))
    | .lane n =>
      let s := logFault 0x31 n.val 0 (bumpLane n.val 6 s)
      match laneHome s n.val with
      | some (k, _) => startRetrain k 3 n.val false s
      | none => s) s

end Sys2Proof.Machine
end

