-- ==== Sys2Proof/Machine/Power.lean ====
section
/-!
DEFINITION. The family of power levels (14 R307 to R312), low power of ports and lanes (R312, R314), S3
(R315 to R317), S4 and Bittern (R318 to R321).
-/
namespace Sys2Proof.Machine

/-! ### Levels (R307, R311) -/

/-- The level moves among S0 to S2; a drop starts the exits that it calls for (R311). -/
def changeLevel (s : State) : State :=
  let o := s.power.level
  let n := shallowLevel s
  let s := if 2 ≤ n then each (List.range 32) goDeep s else leaveLevel n s
  let s := countEntry o n (rewriteEfftol s)
  { s with power := { s.power with level := n } }

def levelMoves (s : State) : Bool := ckRuns s && shallowLevel s != s.power.level

/-- POWER_LEVEL_CHANGE. -/
def execPowerLevelChange (s : State) : Host.Outcome State Fault Refusal := act (levelMoves s) changeLevel s

def efftolFalls (s : State) : Bool := ckRuns s && s.boot.cleared && decide (s.power.efftolDue ≤ s.now)

/-- EFFTOL is rewritten every microsecond, not in S3 (R311). -/
def updateEfftol (s : State) : State :=
  let t := rewriteEfftol s
  { t with power := { t.power with efftolDue := s.now + 800 } }

/-- EFFTOL_UPDATE. -/
def execEfftolUpdate (s : State) : Host.Outcome State Fault Refusal := act (efftolFalls s) updateEfftol s

/-! ### Light sleep of links (R312) -/

/-- A link's lanes are idle for 1 us and owe no TIME block (R308). -/
def laneIdle (s : State) (k : Nat) : Bool :=
  let x := link s k
  x.st == .active && !x.asleep && decide (x.wakeEnd ≤ s.now) && decide (x.idleSince + 800 ≤ s.now) &&
    !x.timeOwed && x.control.isEmpty && x.sending.isEmpty && x.sinceIdle == 0 &&
    (linkLanes s k).all (fun n => (lane s n).queue.isEmpty && (lane s n).calWait.isNone) &&
    (!(lanesRec s k).timeBlocks || decide (s.now < x.timeDue))

/-- A sleeping link has a block to send, or the level has dropped to S0. -/
def wakeCalled (s : State) (k : Nat) : Bool :=
  s.power.level == 0 || (link s k).episode.isSome || newReady s k || !(link s k).control.isEmpty ||
    !(link s k).sending.isEmpty || (linkLanes s k).any (fun n => !(lane s n).queue.isEmpty)

def mayDoze (s : State) (k : Nat) : Bool :=
  ckRuns s && decide (1 ≤ s.power.level) && laneIdle s k && !wakeCalled s k

/-- A link's lanes enter light sleep; in S2 and deeper the transmitter powers down (R312, R314). -/
def doze (k : Nat) (s : State) : State :=
  setLink s k { link s k with asleep := true, deep := decide (2 ≤ s.power.level), sleepSince := s.now }

/-- LANE_SLEEP. -/
def execLaneSleep (k : Link) (s : State) : Host.Outcome State Fault Refusal := act (mayDoze s k.val) (doze k.val) s

def mustWake (s : State) (k : Nat) : Bool := ckRuns s && (link s k).asleep && wakeCalled s k

/-- LANE_WAKE (R312). -/
def execLaneWake (k : Link) (s : State) : Host.Outcome State Fault Refusal := act (mustWake s k.val) (wakeLink k.val) s

def keepaliveDue (s : State) (k : Nat) : Bool :=
  running s && (link s k).asleep && decide ((link s k).sleepSince + msCk 10 ≤ s.now)

/-- After 10 ms of sleep the link wakes and pays its owed TIME block (R312); in S3 the block is sent from the LTX domain
and the lanes stay in light sleep (R316). -/
def keepalive (k : Nat) (s : State) : State :=
  if s.power.level = 3 then
    let t := if (lanesRec s k).timeBlocks then sleepTime k s else s
    setLink t k { link t k with sleepSince := s.now }
  else
    let t := wakeLink k s
    setLink t k { link t k with timeDue := s.now }

/-- SLEEP_KEEPALIVE. -/
def execSleepKeepalive (k : Link) (s : State) : Host.Outcome State Fault Refusal :=
  act (keepaliveDue s k.val) (keepalive k.val) s

/-! ### Low power of ports (R314) -/

def mayRest (s : State) (p : Nat) : Bool :=
  ckRuns s && decide (2 ≤ s.power.level) && (port s p).up && !(port s p).lowPower && portIdle s p

/-- An idle port's adaptation freezes and the replica measurement of its serdes stops (R314). -/
def rest (p : Nat) (s : State) : State := setPort s p { port s p with lowPower := true, sendAfter := 0 }

/-- PORT_LOW_POWER_ENTRY. -/
def execPortLowPowerEntry (p : Port) (s : State) : Host.Outcome State Fault Refusal := act (mayRest s p.val) (rest p.val) s

def mayReturn (s : State) (p : Nat) : Bool :=
  ckRuns s && (port s p).lowPower && (port s p).sendAfter != 0 && decide ((port s p).sendAfter ≤ s.now)

/-- The exit ends: the replica has measured the serdes latency again (05 R109). -/
def returnPort (p : Nat) (s : State) : State :=
  let s := setPort s p { port s p with lowPower := false, sendAfter := 0 }
  drawFree (takeLatency p (Config.portLatency (2 * s.free)) (Config.portLatency (2 * s.free + 1)) s)

/-- PORT_LOW_POWER_EXIT. -/
def execPortLowPowerExit (p : Port) (s : State) : Host.Outcome State Fault Refusal :=
  act (mayReturn s p.val) (returnPort p.val) s

/-! ### S3 (R315 to R317) -/

/-- The tolerance of S3's exit latency. -/
def s3Allowed (s : State) : Bool := tolAllows (effective s) (120 * unitsPerUs)

def mayStop (s : State) : Bool := ckRuns s && quietLong s && s3Allowed s

/-- CK stops and time moves to XK. -/
def enterS3 (s : State) : State :=
  let s := bumpDev 47 (rewriteEfftol (each (List.range 32) goDeep s))
  { s with power := { s.power with level := 3, s3Since := s.now } }

/-- S3_ENTRY. -/
def execS3Entry (s : State) : Host.Outcome State Fault Refusal := act (mayStop s) enterS3 s

/-- A wake cause ends S3; a fall of E only where E has fallen, a host write only where one has landed in the station
block (R317). -/
def wakeHolds (s : State) (w : WakeCause) : Bool :=
  match w with | .tolerance => !s3Allowed s | .hostWrite => s.power.woken | _ => true

/-- What becomes of the cause itself: a frame is dropped and counted; a packet is not accepted; the others
have commands of their own. -/
def wakeEffect (w : WakeCause) (s : State) : State :=
  match w with | .frame p => bumpClass p.val 0 3 s | _ => s

/-- The boundaries passed in S3, in order (R317). -/
def passBoundaries (s : State) : State :=
  each (List.range ((s.heron.acc - s.heron.boundary) / max 1 s.heron.len + 1)) (fun _ s =>
    if boundaryDue s then settleWatchdog (boundary s) else s) s

/-- S3_EXIT: time returns to CK, the boundaries passed are processed, every sleeper begins its exit. -/
def leaveS3 (s : State) : State :=
  leaveLevel 0 (rewriteEfftol (passBoundaries
    { s with power := { s.power with level := 0, quietSince := none, woken := false } }))

def execS3Exit (w : WakeCause) (s : State) : Host.Outcome State Fault Refusal :=
  act (running s && s.power.level == 3 && wakeHolds s w) (fun s => leaveS3 (wakeEffect w s)) s

/-- S3: keepalives fall due, and E and the wake causes are looked at in every XK period (R311, R316, R317; 10 R247). -/
def sleepDuty (s : State) : State :=
  let s := each ((s.links.map (·.1)).filter (keepaliveDue s)) keepalive s
  if s.power.woken || !s3Allowed s then leaveS3 s else s

/-! ### S4 and Bittern (R318 to R321) -/

/-- The conditions of S4 (R318). -/
def s4Allowed (s : State) (wakeNHigh : Bool) : Bool :=
  s4Possible s &&
  (match s.tables.power with
   | some r => r.deepest == 4 && wakeEnabled r && (!r.wakePin || wakeNHigh)
   | none => false) &&
  (effective s).isNone && quietLong s

/-- What Bittern latches at entry (R318, R319). -/
def latchBittern (s : State) (r : PowerRec) : Bittern :=
  { record := r, address := deviceAddr s, mgmtAddress := mgmtAddr s, port := s.straps.bitternPort.toNat,
    faultN := faultLow s, woken := false }

/-- Pins of S4: PPS_OUT and EVT_OUT low (R319). -/
def lowerPins (s : State) : State :=
  emit (.level s.now (.evtOut 1) 0) (emit (.level s.now (.evtOut 0) 0) (emit (.level s.now .ppsOut 0) s))

/-- What the Bittern port sends besides /I2/: in mode 4 the base page of 07 R145, in SGMII the in-band word of link up
at the speed in force at entry (R319). -/
def bitternSends (p : Nat) (s : State) : State :=
  match (port s p).mode with
  | 4 => emit (.control s.now p (.basePage ownPage)) s
  | 6 => emit (.control s.now p (.inband true (port s p).speed)) s
  | _ => s

/-- S4_ENTRY: the rails of the core and the serdes go off, and all state but Bittern's is lost. -/
def execS4Entry (wakeNHigh : Bool) (s : State) : Host.Outcome State Fault Refusal :=
  act (running s && s4Allowed s wakeNHigh) (fun s =>
    match s.tables.power with
    | some r =>
      let b := latchBittern s r
      let t := fullReset (bitternSends b.port (lowerPins (bumpDev 48 s)))
      { t with power := { t.power with level := 4, bittern := some b } }
    | none => s) s

/-! ### What each ck settles (R311) -/

/-- A link's sleep in a ck: awake as soon as it has a block to send, its keepalive, or asleep at a row boundary that
follows an IDLE row (R312). -/
def dozeDuty (k : Nat) (s : State) : State :=
  if mustWake s k then wakeLink k s
  else if keepaliveDue s k then keepalive k s
  else if mayDoze s k && decide ((link s k).rowDue ≤ s.now) then doze k s
  else s

def restDuty (p : Nat) (s : State) : State :=
  if mayReturn s p then returnPort p s else if mayRest s p then rest p s else s

/-- The level, EFFTOL and what sleeps, in every ck (R311, R312, R314). S3 is entered here unless S4's conditions hold but
for the level of WAKE_N, which the command S4_ENTRY brings (notes/assumptions/30.md). -/
def levelDuty (s : State) : State :=
  let s := if levelMoves s then changeLevel s else s
  let s := if efftolFalls s then updateEfftol s else s
  let s := each (List.range 4) restDuty (each (s.links.map (·.1)) dozeDuty s)
  if mayStop s && !s4Allowed s true then enterS3 s else s

/-! ### What wakes Bittern (R320) -/

/-- A list holds another at its head. -/
def headed (l b : List Byte) : Bool := b.take l.length == l

/-- Six 0xFF bytes, then sixteen copies of the device address, somewhere in a list. -/
def holdsMagic (pat : List Byte) : List Byte → Bool
  | [] => headed pat []
  | x :: r => headed pat (x :: r) || holdsMagic pat r

def magicPattern (a : Mac) : List Byte :=
  List.replicate 6 0xFF ++ (List.replicate 16 (beBytes 6 a.toNat)).flatten

/-- The magic frame (R320). -/
def magicFrame (x : Bittern) (b : List Byte) : Bool :=
  let dst := (ethHdr b).dst
  (dst == x.address || dst == x.mgmtAddress || dst == BitVec.allOnes 48) &&
    holdsMagic (magicPattern x.address) (b.drop 12)

/-- Pattern filter k: 128 bytes of pattern, 16 of mask (04 R87; R320). -/
def patternMatches (r : PowerRec) (k : Nat) (b : List Byte) : Bool :=
  let f := slice r.filters (144 * k) 144
  let chosen := (List.range 128).filter (fun i => hasBit (fld f (128 + i / 8) 1) (i % 8))
  !chosen.isEmpty && chosen.all (fun i => match b[i]? with | some x => x == f.getD i 0 | none => false)

/-- A frame wakes the device (R320). -/
def frameWakes (x : Bittern) (b : List Byte) : Bool :=
  within 64 1522 b.length && fcsGood b &&
    ((x.record.wakeMagic && magicFrame x b) ||
      (List.range 8).any (fun k => hasBit x.record.filterEn k && patternMatches x.record k b))

/-- A wake of Bittern's is latched. -/
def wakeBittern (s : State) : State :=
  match s.power.bittern with
  | some x => { s with power := { s.power with bittern := some { x with woken := true } } }
  | none => s

def bitternHas (s : State) (f : Bittern → Bool) : Bool :=
  match s.power.bittern with | some x => f x | none => false

/-- BITTERN_FRAME (R320): a match wakes the device; the frame is lost in either case. -/
def execBitternFrame (bytes : List Byte) (s : State) : Host.Outcome State Fault Refusal :=
  act (bitternHas s (fun x => frameWakes x bytes)) wakeBittern s

/-- BITTERN_LINK_CHANGE (R320): the port goes up or down. -/
def execBitternLinkChange (_up : Bool) (s : State) : Host.Outcome State Fault Refusal :=
  act (bitternHas s (fun x => x.record.wakeLink)) wakeBittern s

/-- WAKE_N (R320): low on 3 consecutive BK periods. -/
def execWakeN (s : State) : Host.Outcome State Fault Refusal :=
  act (bitternHas s (fun x => x.record.wakePin)) wakeBittern s

/-- S4_EXIT (R321): a start through the internal reset, whose release RESET_RELEASE brings (03 R44). -/
def execS4Exit (s : State) : Host.Outcome State Fault Refusal :=
  act (bitternHas s (fun x => x.woken)) (fun s =>
    { s with power := { s.power with level := 0, bittern := none } }) s

end Sys2Proof.Machine
end

