-- ==== Sys2Proof/Machine/Training.lean ====
section
/-!
DEFINITION. The family of Dziak training and Curlew: DETECT (09 R213), the training states (R212, R214 to
R219), retrain (R220), eye maps and sampler moves (R222, R223), DFE (R224), CAL blocks (R225).
-/
namespace Sys2Proof.Machine

/-! ### DETECT (R213) -/

/-- DETECT_BEACON (R213): the next 64 rows are TS1. -/
def execDetectBeacon (k : Link) (s : State) : Host.Outcome State Fault Refusal :=
  act (serdesRun s && (link s k.val).st == .detect && decide ((link s k.val).beaconDue ≤ s.now)) (fun s =>
    let x := link s k.val
    setLink s k.val { x with beaconDue := s.now + msCk x.backoff, beaconLeft := 64 }) s

/-- BACKOFF_RESET (R213): ACTIVE for 1 s. -/
def execBackoffReset (k : Link) (s : State) : Host.Outcome State Fault Refusal :=
  act (ckRuns s && (link s k.val).st == .active && (link s k.val).backoff != 1 &&
    decide ((link s k.val).activeSince + msCk 1000 ≤ s.now)) (fun s =>
    setLink s k.val { link s k.val with backoff := 1 }) s

/-- A control block of a type with its check good (R210). -/
def trainingGood (type : Nat) (b : Block) : Bool := blockType b == type && crc8Good b

/-- TS1_DETECTED (R212): 8 consecutive valid TS1 blocks on a lane. -/
def execTs1Detected (k : Link) (body : Block) (s : State) : Host.Outcome State Fault Refusal :=
  act (serdesRun s && (link s k.val).st == .detect && trainingGood 0x80 body) (enterSync k.val false) s

/-! ### From state to state (R212) -/

/-- One block on every kept lane. -/
def onLanes (k : Nat) (b : Block) (s : State) : State :=
  each (maskLanes s k (keptLanes s k)) (fun n => queueLane k n b) s

/-- TS2 rows from now on, counted from 0 (R210, R212). -/
def enterAlign (k : Nat) (s : State) : State :=
  let s := enterState k .align s
  setLink s k { link s k with tsCount := 0 }

/-- PARAM rows from now on, indexes 0 to 11 over and over (R211). -/
def enterParam (k : Nat) (s : State) : State :=
  let s := enterState k .param s
  setLink s k { link s k with paramNext := 0 }

/-- An EQ_REQ for each lane's first setting; in a retrain at an unchanged rate each keeps its own (R217). -/
def enterEqualize (k : Nat) (s : State) : State :=
  let s := enterState k .equalize s
  each (maskLanes s k (keptLanes s k)) (fun n s =>
    let x := lane s n
    if (link s k).keepEq then setLane s n { x with eqPoints := 0, eqBest := x.partnerSetting, mapStart := s.now }
    else
      match laneHome s n with
      | some (_, i) => queueLane k n (mkEq 0x85 i 0)
          (setLane s n { x with partnerSetting := 0, eqBest := 0, eqPoints := 0, mapStart := s.now })
      | none => s) s

/-- No lane is left or has finished: DETECT in first training, link down in a retrain (R219, R228). -/
def noneFinished (k : Nat) (s : State) : State :=
  let x := link s k
  let s := logFault 0x43 k (7 + 0xFF * 256 + stateCode x.st * 65536) (bumpLink k 21 s)
  if x.retrain then declareDown k 7 true s else toDetect k true false s

/-- The own part of the final mask: kept lanes, an unused spare apart (R218, R221). -/
def ownFinal (s : State) (k : Nat) : Nat :=
  if planSpare (plan s) k && !(link s k).spareUsed then keptLanes s k &&& workingMask s k else keptLanes s k

/-- READY on every lane kept, with S and a final mask (R218). -/
def sendReady (k m : Nat) (s : State) : State :=
  onLanes k (mkReady (link s k).rxS m) (setLink s k { link s k with readySent := m })

/-- The READY exchange begins with this end's own final mask. -/
def beginReady (k : Nat) (s : State) : State := sendReady k (ownFinal s k) s

/-- The calibrated latencies of a lane that has trained (05 R115); kept in a retrain at an unchanged rate. -/
def calibrateLane (n : Nat) (s : State) : State :=
  drawFree (setLane s n { lane s n with
    latency := Config.laneRxLatency s.free, txLatency := Config.laneTxLatency s.free })

/-- A lane starts in ACTIVE: maps and CAL blocks afresh. -/
def startLane (k n : Nat) (s : State) : State :=
  let rate := match s.tables.cal with | some r => r.rate | none => 0
  setLane s n { lane s n with
    closedRun := 0, deferred := false, calDue := s.now + 2 ^ rate * slotCk (link s k).rate, calLast := 0,
    calWait := none, mapStart := s.now, spoiled := [], queue := [], rxHist := none, rxBad := false }

/-- A received PARAM block's body, zero where none was received. -/
def partnerParam (s : State) (k i : Nat) : Block := mGetD (link s k).params i 0

/-- A VC's transmit credit at ACTIVE: afresh, or by R199, which sets C_rel and C to AC plus the cost of the packets sent
after S. Those are then charged: their release does not charge C_rel again (DEDUCED, notes/assumptions/33.md). -/
def startCredit (k : Nat) (again : Bool) (v : Nat) (s : State) : State :=
  let b := partnerParam s k (3 + v)
  let bv := bf b 12 13
  let x := vc s k v
  if again then
    let sent := (((link s k).store.filter (fun p => p.vc == v)).map (fun p => p.cost)).sum
    setVc s k v { x with partnerBv := bv, cRel := (bf b 25 16 + sent) % 65536, c := (bf b 25 16 + sent) % 65536 }
  else setVc s k v { x with partnerBv := bv, cl := bv, c := 0, cRel := 0, lastReturn := s.now }

/-- R199: release up to the partner's S, then a replay episode that does not increment replay counts. -/
def resumeReplay (k : Nat) (s : State) : State :=
  let s := releaseUpTo k (bf (partnerParam s k 2) 28 12) s
  let x := link s k
  whenB (!x.store.isEmpty) (bumpLink k 6) (setLink s k { x with
    episode := x.store.head?.map (·.seq), store := x.store.map (fun p => { p with sentAt := none, charged := true }) })

/-- The pair's PSEQ counters start at 0 when its first member enters ACTIVE from DETECT (08 R200). -/
def startPseq (k : Nat) (s : State) : State :=
  let mate := link s (k / 2 * 2 + (k + 1) % 2)
  if planPairs (plan s) && mate.st != .active && !mate.retrain then
    each (List.range 8) (fun v s => setPair s (k / 2) v { pair s (k / 2) v with next := 0 }) s
  else s

/-- The path delay starts from zero on a new timing lane (05 R115, R118). -/
def freshPath (x : LinkSt) : LinkSt :=
  { x with pathDelay := 0, pathValid := false, rtts := [], accepted := 0, missed := 0, sentTags := [] }

/-- ACTIVE begins (R218). -/
def enterActive (k mask : Nat) (s : State) : State :=
  let x := link s k
  let old := timingLane s k
  let s := if x.retrain then s else startPseq k s
  let s := if x.keepEq then s else each (maskLanes s k mask) calibrateLane s
  let s := each (maskLanes s k (keptLanes s k)) (startLane k) s
  let s := if x.retrain then resumeReplay k s else s
  let s := each (List.range 8) (startCredit k x.retrain) s
  let y := { link s k with
    finalMask := mask, activeSince := s.now, auditDue := s.now + usCk (lanesRec s k).auditUs, timeDue := s.now,
    idleSince := s.now, wakeEnd := s.now, commitRetrain := false, down := false, sinceIdle := 0,
    rxFrame := .outside }
  let s := setLink s k y
  let y := if x.retrain ∧ timingLane s k = old then y else freshPath y
  setLink s k { y with st := .active, retrain := false }

/-- READY sent and received on every lane of the final mask: ACTIVE (R218). -/
def tryActive (k : Nat) (s : State) : State :=
  let x := link s k
  if x.readySent != 0 && x.readySent &&& x.readyRecv == x.readySent then enterActive k x.readySent s else s

/-- The lanes that have completed EQUALIZE in both directions and hold block lock (R214, R218). -/
def equalized (s : State) (k : Nat) : Nat :=
  let x := link s k
  x.eqSent &&& x.eqRecv &&& x.locked &&& keptLanes s k

/-- EQ_DONE sent and received for every kept lane: the READY exchange (R217). -/
def tryReady (k : Nat) (s : State) : State :=
  let m := keptLanes s k
  if (link s k).readySent == 0 && m != 0 && equalized s k == m then beginReady k s else s

/-- Block lock on every kept lane: SYNC to ALIGN, SPEEDUP to EQUALIZE (R212). -/
def tryLocked (k : Nat) (s : State) : State :=
  let x := link s k
  let m := keptLanes s k
  if m = 0 ∨ x.locked &&& m ≠ m then s
  else if x.st = .sync then enterAlign k s
  else if x.st = .speedup ∧ x.rate = x.agreed then enterEqualize k s
  else s


/-! ### PARAM (R211, R215) -/

/-- The module's indexes 0 to 2 agree with the LANES values, the line rate and the lane mask apart, and its
rate is one that both ends support (R211, R215). -/
def paramsAgree (s : State) (k : Nat) : Bool :=
  let a := partnerParam s k 0
  let r := lanesRec s k
  let rate := bf a 12 2
  bf a 14 16 == paramContent s k 0 / 2 ^ 14 % 2 ^ 16 &&
    bf (partnerParam s k 1) 12 29 == paramContent s k 1 / 2 ^ 12 % 2 ^ 29 &&
    bf (partnerParam s k 2) 12 16 == r.auditUs &&
    decide (1 ≤ rate) && decide (rate ≤ r.rate) && hasBit (bf (partnerParam s k 11) 12 3) (rate - 1)

/-- PARAM completes: the agreed rate and lane mask are fixed (R215). -/
def finishParam (k : Nat) (s : State) : State :=
  let x := link s k
  let rate := bf (partnerParam s k 0) 12 2
  let b := partnerParam s k 11
  let s := if rate < (lanesRec s k).rate then bumpLink k 22 s else s
  let s := setLink s k { x with agreed := rate, moduleRates := bf b 12 3, moduleStore := bf b 15 8, vendor := bf b 23 16,
                                keepEq := x.retrain && rate == x.rate }
  let s := excludeLanes k (keptLanes s k - (keptLanes s k &&& bf (partnerParam s k 0) 30 8)) 7 s
  if keptLanes s k = 0 then noneFinished k s
  else if rate = x.rate then enterEqualize k s
  else
    let s := enterState k .speedup s
    setLink s k { link s k with locked := 0, speedLeft := some 16 }

/-- Both masks are full and the values agree (R212, R215). -/
def paramDone (s : State) (k : Nat) : Bool :=
  (link s k).paramAcked && (link s k).paramSeen == 0x0FFF && paramsAgree s k

/-- Every kept lane holds block lock (R214). -/
def allLocked (s : State) (k : Nat) : Bool := (link s k).locked &&& keptLanes s k == keptLanes s k

/-- PARAM ends once its exchange is done, with block lock on every kept lane. -/
def tryParam (k : Nat) (s : State) : State := if paramDone s k && allLocked s k then finishParam k s else s

/-- What a change of block lock completes in the state of the link (R212, R214). -/
def lockChanged (k : Nat) (s : State) : State :=
  match (link s k).st with
  | .param => tryParam k s
  | .equalize => tryReady k s
  | _ => tryLocked k s

/-- BLOCK_LOCK (R214): a lane gains or loses block lock; a lane that loses it is no longer aligned. -/
def execBlockLock (k : Link) (lane : Fin 8) (locked : Bool) (s : State) : Host.Outcome State Fault Refusal :=
  act (serdesRun s && hasBit (keptLanes s k.val) lane.val && (link s k.val).st != .off &&
    (link s k.val).st != .detect) (fun s =>
    let x := link s k.val
    lockChanged k.val (setLink s k.val (if locked then { x with locked := setBit x.locked lane.val }
      else { x with locked := clrBit x.locked lane.val, aligned := clrBit x.aligned lane.val }))) s

/-- ALIGN_COMPLETE (R212): the lanes on which 16 rows of TS2 in a row had equal row counts. -/
def execAlignComplete (k : Link) (lanes : BitVec 8) (s : State) : Host.Outcome State Fault Refusal :=
  act (serdesRun s && (link s k.val).st == .align) (fun s =>
    let s := setLink s k.val { link s k.val with aligned := lanes.toNat &&& (link s k.val).locked }
    let m := keptLanes s k.val
    if m ≠ 0 ∧ (link s k.val).aligned &&& m = m then enterParam k.val s else s) s

/-- PARAM_RECEIVED (R211): an index received identically twice in a row enters the mask; 12 to 15 are
discarded. -/
def execParamReceived (k : Link) (body : Block) (s : State) : Host.Outcome State Fault Refusal :=
  act (serdesRun s && (link s k.val).st == .param && trainingGood 0x82 body) (fun s =>
    let i := bf body 8 4
    let x := link s k.val
    if 12 ≤ i then bumpLink k.val 17 s
    else
      let seen := if mFind x.params i = some body then setBit x.paramSeen i else clrBit x.paramSeen i
      let s := setLink s k.val { x with params := mSet x.params i body, paramSeen := seen }
      tryParam k.val (onLanes k.val (mkParamAck seen) s)) s

/-- PARAM_ACK_RECEIVED (R215). -/
def execParamAckReceived (k : Link) (body : Block) (s : State) : Host.Outcome State Fault Refusal :=
  act (serdesRun s && (link s k.val).st == .param && trainingGood 0x83 body) (fun s =>
    tryParam k.val (setLink s k.val { link s k.val with paramAcked := bf body 8 16 == 0x0FFF })) s

/-- SPEED_COUNTDOWN_END (R216): the row after the count of 0; TS1 at the agreed rate after 1 us of idle. -/
def execSpeedCountdownEnd (k : Link) (s : State) : Host.Outcome State Fault Refusal :=
  act (serdesRun s && (link s k.val).st == .speedup && (link s k.val).rate != (link s k.val).agreed &&
    (link s k.val).speedLeft.isNone && decide ((link s k.val).rowDue ≤ s.now)) (fun s =>
    let x := link s k.val
    setLink s k.val { x with rate := x.agreed, locked := 0, rowDue := s.now + usCk 1 }) s

/-! ### EQUALIZE and READY (R217, R218) -/

/-- The physical lane of a link's logical lane. -/
def physLane (s : State) (k i : Nat) : Option Nat := (linkLanes s k)[i]?

/-- EQ_REQ_RECEIVED (R217): the transmitter takes the emphasis that its partner asks for. -/
def execEqReqReceived (k : Link) (body : Block) (s : State) : Host.Outcome State Fault Refusal :=
  act (serdesRun s && (link s k.val).st == .equalize && trainingGood 0x85 body) (fun s =>
    match physLane s k.val (bf body 8 3) with
    | some n => setLane s n { lane s n with emphasis := bf body 12 4 }
    | none => s) s

/-- EQ_DONE_RECEIVED (R217): the partner has chosen this transmitter's setting. -/
def execEqDoneReceived (k : Link) (body : Block) (s : State) : Host.Outcome State Fault Refusal :=
  act (serdesRun s && (link s k.val).st == .equalize && trainingGood 0x86 body &&
    hasBit (keptLanes s k.val) (bf body 8 3)) (fun s =>
    let x := link s k.val
    let s := setLink s k.val { x with eqRecv := setBit x.eqRecv (bf body 8 3) }
    let s := match physLane s k.val (bf body 8 3) with
      | some n => setLane s n { lane s n with emphasis := bf body 12 4 }
      | none => s
    tryReady k.val s) s

/-- Lanes fall out of the final mask in the READY exchange: they are excluded, an unused spare that has completed
EQUALIZE joins, and READY goes out with the mask that is left (R218, R221). -/
def dropFromMask (k lost : Nat) (s : State) : State :=
  if lost = 0 then s
  else
    let m := (link s k).readySent
    let s := excludeLanes k lost 7 s
    sendReady k (equalized s k &&& (ownFinal s k &&& (m ||| (allLanes s k - workingMask s k)))) s

/-- The final mask that both ends' READY blocks name: working lanes that the module leaves out are excluded (R218). -/
def meetMask (k theirs : Nat) (s : State) : State :=
  let m := (link s k).readySent &&& workingMask s k
  dropFromMask k (m - (m &&& theirs)) s

/-- READY_RECEIVED (R218): ACTIVE waits until the module's mask holds every lane of this end's. -/
def execReadyReceived (k : Link) (lane : Fin 8) (body : Block) (s : State) : Host.Outcome State Fault Refusal :=
  act (serdesRun s && (link s k.val).st == .equalize && (link s k.val).readySent != 0 && trainingGood 0x87 body)
    (fun s =>
      let s := meetMask k.val (bf body 20 8) s
      let x := link s k.val
      let s := setLink s k.val { x with readyRecv := setBit x.readyRecv lane.val }
      if x.readySent = 0 then noneFinished k.val s
      else if x.readySent &&& bf body 20 8 = x.readySent then tryActive k.val s
      else s) s

/-! ### Timeouts (R219) and retrain (R220) -/

/-- The kept lanes that have finished the state. -/
def finishedLanes (s : State) (k : Nat) : Nat :=
  let x := link s k
  keptLanes s k &&& x.locked &&& (match x.st with
    | .sync => x.locked
    | .align => x.aligned
    | .param => if paramDone s k then x.locked else 0
    | .speedup => if x.rate = x.agreed then x.locked else 0
    | .equalize => if x.readySent = 0 then equalized s k else x.readyRecv
    | _ => 0)

/-- The link moves on with the lanes that have finished. -/
def moveOn (k : Nat) (s : State) : State :=
  match (link s k).st with
  | .sync => enterAlign k s
  | .align => enterParam k s
  | .param => finishParam k s
  | .speedup => enterEqualize k s
  | .equalize =>
    if (link s k).readySent = 0 then
      beginReady k (setLink s k { link s k with stateDue := s.now + trainTimeout s k .equalize })
    else
      let m := (link s k).readySent
      let s := setLink s k { link s k with stateDue := s.now + trainTimeout s k .equalize }
      let t := dropFromMask k (m - (m &&& keptLanes s k)) s
      if (link t k).readySent = 0 then noneFinished k t else tryActive k t
  | _ => s

/-- A timeout in DETECT returns the link to DETECT: beacons go on at the longer back-off (R212, R213, R219). -/
def detectAgain (k : Nat) (s : State) : State :=
  let x := link s k
  let s := setLink s k { x with backoff := min 256 (2 * x.backoff), stateDue := s.now + trainTimeout s k .detect }
  bumpLink k 20 (logFault 0x43 k (7 + 0xFF * 256 + stateCode x.st * 65536) (bumpLink k 21 s))

/-- TRAINING_TIMEOUT (R219): every state but OFF, which is left at reset only, and ACTIVE has one (R212). -/
def execTrainingTimeout (k : Link) (s : State) : Host.Outcome State Fault Refusal :=
  let x := link s k.val
  act (ckRuns s && x.st != .off && x.st != .active && decide (x.stateDue ≤ s.now)) (fun s =>
    let fin := finishedLanes s k.val
    if x.st = .detect then detectAgain k.val s
    else if fin = 0 then noneFinished k.val s
    else moveOn k.val (excludeLanes k.val (keptLanes s k.val - fin) 7 s)) s

/-- The cause codes of 15 R335. -/
def causeCode : RetrainCause → Nat
  | .replayLimit => 0 | .window => 1 | .audit => 2 | .dcq => 3 | .commit => 4 | .closedEye => 5
  | .partnerTs1 => 6 | .timeout => 7

/-- An active lane with closed eyes on two consecutive full maps (R220). -/
def closedLane (s : State) (k : Nat) : Option Nat :=
  (maskLanes s k (link s k).finalMask).find? (fun n => decide (2 ≤ (lane s n).closedRun))

/-- RETRAIN (R220): not for a training state's timeout, which R219 handles. -/
def execRetrain (k : Link) (w : RetrainCause) (s : State) : Host.Outcome State Fault Refusal :=
  act (ckRuns s && (link s k.val).st == .active && w != .timeout &&
    (w != .closedEye || (closedLane s k.val).isSome)) (fun s =>
    let failing := if w = .closedEye then (closedLane s k.val).getD 0xFF else 0xFF
    startRetrain k.val (causeCode w) failing (w == .commit) s) s

/-! ### Eye maps (R222, R223) -/

/-- A point of a map: phase p, threshold t, in phase-major order. -/
def pointOpen (points : BitVec 2048) (p t : Nat) : Bool := points.getLsbD (32 * p + t)

/-- The open points from the head of a list on. -/
def openRun : List Bool → Nat
  | true :: l => openRun l + 1
  | _ => 0

/-- The longest run of open points over starting positions: its length and start, the first one on a tie. -/
def longestRun (l : List (Nat × List Bool)) : Nat × Nat :=
  l.foldl (fun b x => if b.1 < openRun x.2 then (openRun x.2, x.1) else b) (0, 0)

/-- The phase row at the main threshold, from the main phase on; runs are cyclic. -/
def phaseRun (x : LaneSt) (points : BitVec 2048) : Nat × Nat :=
  longestRun ((List.range 64).map (fun a =>
    (a, (List.range 64).map (fun i => pointOpen points ((x.phase + a + i) % 64) x.threshold))))

/-- The threshold column at the main phase. -/
def thresholdRun (x : LaneSt) (points : BitVec 2048) : Nat × Nat :=
  longestRun ((List.range 32).map (fun a =>
    (a, (List.range (32 - a)).map (fun i => pointOpen points x.phase (a + i)))))

/-- The midpoint of a run, rounded toward the main position: of the two middle steps of an even run, the one
nearer to it by `dist`. -/
def midpoint (dist : Nat → Nat) (run : Nat × Nat) : Nat :=
  let a := run.2 + (run.1 - 1) / 2
  let b := run.2 + run.1 / 2
  if dist b < dist a then b else a

/-- The cyclic distance of a phase offset from the main phase. -/
def phaseDist (o : Nat) : Nat := min (o % 64) (64 - o % 64)

/-- The phase centre; an eye open at every phase has its centre at the main phase. -/
def phaseCentre (x : LaneSt) (run : Nat × Nat) : Nat :=
  if run.1 = 64 ∨ run.1 = 0 then x.phase else (x.phase + midpoint phaseDist run) % 64

def thresholdCentre (x : LaneSt) (run : Nat × Nat) : Nat :=
  if run.1 = 0 then x.threshold
  else midpoint (fun t => (if t < x.threshold then x.threshold - t else t - x.threshold)) run

/-- What a map finds on a lane. -/
def mapped (x : LaneSt) (points : BitVec 2048) : LaneSt :=
  let p := phaseRun x points
  let t := thresholdRun x points
  { x with eyeWidth := p.1, eyeHeight := t.1, wantPhase := phaseCentre x p, wantThreshold := thresholdCentre x t }

/-- The moves that R223 calls for, made or, in a quiet window, deferred (R226). -/
def actOnMap (n : Nat) (s : State) : State :=
  let x := lane s n
  if s.quiet then
    let m := bitW (phaseCalls x) 1 + bitW (thresholdCalls x) 1
    if m = 0 then s else bumpBy 0x26 n 3 m (setLane s n { x with deferred := true })
  else samplerMove n s

/-- A map with the points closed that a CAL block in error has spoiled (R225). -/
def withoutSpoiled (l : List Nat) (points : BitVec 2048) : BitVec 2048 :=
  l.foldl (fun m i => m &&& ~~~((1 : BitVec 2048) <<< i)) points

/-- A full map, and the next one begins: a closed eye is counted and moves nothing (R222), whatever moves a quiet window
has deferred before. -/
def fullMap (n : Nat) (points : BitVec 2048) (s : State) : State :=
  let o := { lane s n with mapStart := s.now, spoiled := [] }
  let x := mapped o (withoutSpoiled (lane s n).spoiled points)
  if x.eyeWidth < 4 then
    bumpLane n 4 (setLane s n { o with
      eyeWidth := x.eyeWidth, eyeHeight := x.eyeHeight, closedRun := o.closedRun + 1 })
  else actOnMap n (setLane s n { x with closedRun := 0 })

/-- The open points of a map. -/
def openPoints (points : BitVec 2048) : Nat := popCount 2048 points.toNat

/-- A lane's scores have been taken: its best setting is sent, or its eye is too small (R217). -/
def chooseSetting (k i n : Nat) (s : State) : State :=
  let x := lane s n
  if x.eyeWidth < 8 ∨ x.eyeHeight < 4 then
    let s := excludeLanes k (2 ^ i) 7 s
    if keptLanes s k = 0 then noneFinished k s else tryReady k s
  else
    let tap := fun (j : Nat) => (Config.equalizedTap (3 * s.free + j)).toInt
    let taps := if (link s k).keepEq then x.taps else [tap 0, tap 1, tap 2]
    let s := drawFree (setLane s n { x with partnerSetting := x.eqBest, taps := taps })
    let s := queueLane k n (mkEq 0x86 i x.eqBest) s
    tryReady k (setLink s k { link s k with eqSent := setBit (link s k).eqSent i })

/-- A fast map scores the setting in force (R217): the most open points win, the lower setting on a tie. A
closed eye is counted (R222). -/
def fastMap (k i n : Nat) (points : BitVec 2048) (s : State) : State :=
  let x := lane s n
  let s := whenB (decide ((mapped x points).eyeWidth < 4)) (bumpLane n 4) s
  let better := decide (x.eqPoints < openPoints points) || (x.partnerSetting == 0 || (link s k).keepEq)
  let y := if better then { mapped x points with eqPoints := openPoints points, eqBest := x.partnerSetting } else x
  let s := setLane s n y
  if (link s k).keepEq || x.partnerSetting == 15 then chooseSetting k i n s
  else queueLane k n (mkEq 0x85 i (x.partnerSetting + 1))
    (setLane s n { y with partnerSetting := x.partnerSetting + 1, mapStart := s.now })

/-- The ck that a map takes: 2^16 bits at 32 a point, 2^20 bits at 512 (R222); 67 bits make a block slot. -/
def mapCk (rate : Nat) (fast : Bool) : Nat := (if fast then 2 ^ 16 else 2 ^ 20) * slotCk rate / 67

/-- Full maps run in ACTIVE, on active lanes and standby spares, not on a powered-down lane; fast maps in
EQUALIZE; and each takes its time (R222; 14 R314). -/
def mapRuns (s : State) (n : Nat) (fast : Bool) : Bool :=
  match laneHome s n with
  | some (k, i) =>
    let x := link s k
    hasBit (keptLanes s k) i && decide ((lane s n).mapStart + mapCk x.rate fast ≤ s.now) &&
      (if fast then x.st == .equalize && x.readySent == 0 && !hasBit x.eqSent i else x.st == .active && !x.deep)
  | none => false

/-- EYE_MAP_COMPLETE (R222). -/
def execEyeMapComplete (n : Lane) (fast : Bool) (points : BitVec 2048) (s : State) :
    Host.Outcome State Fault Refusal :=
  act (serdesRun s && mapRuns s n.val fast) (fun s =>
    if fast then
      match laneHome s n.val with | some (k, i) => fastMap k i n.val points s | none => s
    else fullMap n.val points s) s

/-! ### DFE and CAL blocks (R224, R225) -/

/-- A lane of an ACTIVE link. -/
def laneActive (s : State) (n : Nat) : Bool :=
  match laneHome s n with
  | some (k, i) => (link s k).st == .active && hasBit (keptLanes s k) i
  | none => false

/-- A tap's step toward sign(error) x sign(decision), within 6 bits. -/
def tapStep (errPos d : Bool) (t : Int) : Int := if errPos = d then min 31 (t + 1) else max (-32) (t - 1)

/-- CAL flag [1]; without a CAL section the taps adapt (04 R70). -/
def dfeOn (s : State) : Bool := match s.tables.cal with | some r => r.dfe | none => true

/-- A lane's receiver adapts: on a kept lane of a link in the plan, not while a fast map runs in EQUALIZE, nor on a
powered-down lane (R224; 14 R314). -/
def adapts (s : State) (n : Nat) : Bool :=
  match laneHome s n with
  | some (k, i) =>
    let x := link s k
    x.st != .off && hasBit (keptLanes s k) i && !x.deep &&
      !(x.st == .equalize && x.readySent == 0 && !hasBit x.eqSent i)
  | none => false

/-- DFE_ADAPT (R224): every 64 bits. -/
def execDfeAdapt (n : Lane) (errPos d1 d2 d3 : Bool) (s : State) : Host.Outcome State Fault Refusal :=
  act (serdesRun s && adapts s n.val && dfeOn s && decide ((lane s n.val).dfeDue ≤ 67 * s.now)) (fun s =>
    let x := lane s n.val
    let t := fun i => x.taps.getD i 0
    setLane s n.val { x with
      taps := [tapStep errPos d1 (t 0), tapStep errPos d2 (t 1), tapStep errPos d3 (t 2)]
      dfeDue := max (x.dfeDue + 64 * slotCk (laneRate s n.val)) (67 * s.now) }) s

/-- Slots of a lane in ck. -/
def laneSlots (s : State) (n k : Nat) : Nat := k * slotCk (laneRate s n)

/-- A CAL block falls due on a lane (R225). -/
def calDueNow (s : State) (n : Nat) : Bool :=
  decide (calRate s.tables n ≠ 0) && decide ((lane s n).calDue ≤ s.now)

/-- CAL_BLOCK_SEND (R225): it waits for the lane's next IDLE position, at most 64 slots. -/
def execCalBlockSend (n : Lane) (s : State) : Host.Outcome State Fault Refusal :=
  act (serdesRun s && laneActive s n.val && calDueNow s n.val &&
    (match laneHome s n.val with | some (k, _) => !(link s k).asleep | none => false)) (fun s =>
    let x := lane s n.val
    setLane s n.val { x with
      calDue := x.calDue + laneSlots s n.val (2 ^ calRate s.tables n.val), calWait := x.calWait.orElse (fun _ => some 0) }) s

/-- The points of the full map that runs to which a block that arrives now belongs: 512 bits each, in phase-major
order (R222). -/
def pointsHere (s : State) (n : Nat) : List Nat :=
  let b := (s.now - (lane s n).mapStart) * 67 / slotCk (laneRate s n)
  [b / 512 % 2048, (b + 66) / 512 % 2048].eraseDups

/-- CAL_BLOCK_RECEIVED (R225): compared with its pattern; a difference is counted and its points score as not open. The
link layer discards the block. -/
def execCalBlockReceived (n : Lane) (body : Block) (s : State) : Host.Outcome State Fault Refusal :=
  act (serdesRun s && laneActive s n.val && blockType body == 0x99 && body != calBody) (fun s =>
    let x := lane s n.val
    bumpLane n.val 5 (setLane s n.val { x with spoiled := x.spoiled ++ pointsHere s n.val })) s

end Sys2Proof.Machine
end

