-- ==== Sys2Proof/WellFormed.lean ====
section
/-!
DEFINITION. Which commands are well formed: operands within what the wire, the pin or the field can carry.
The constructors' types already bound ports, lanes, links, classes and channels.
-/
namespace Sys2Proof

/-- A 12-bit, 8-bit or other field holds a value below its bound. -/
def fits (bound v : Nat) : Bool := decide (v < bound)

/-- A received frame has a length a MAC can see: at least one byte, at most 16,383 (07 R147). -/
def frameWf (b : List Byte) : Bool := decide (1 ≤ b.length) && decide (b.length < 16384)

/-- A request frame: the payload is what the wire carried, at most the largest frame (13 R284, R305). -/
def HidFrame.wf (r : HidFrame) : Bool := fits 65536 r.length && decide (r.payload.length ≤ 8964)

def SlotRead.wf (r : SlotRead) : Bool := decide (r.bytes.length ≤ 4194304)

def PfcInfo.wf (x : PfcInfo) : Bool := x.quanta.length == 8 && x.quanta.all (fits 65536)

/-- A PTP domain number is a byte; the log message interval is a signed byte (IEEE 802.1AS-2020, 05 R103). -/
def SyncInfo.wf (x : SyncInfo) : Bool := fits 256 x.number

def AnnounceInfo.wf (x : AnnounceInfo) : Bool :=
  fits 256 x.number && decide (-128 ≤ x.logInterval) && decide (x.logInterval ≤ 127) &&
  fits 256 x.priority1 && fits 256 x.clockClass && fits 256 x.accuracy && fits 65536 x.variance &&
  fits 256 x.priority2 && fits 65536 x.steps

/-- Words of the scrubbed memories (15 R327). -/
def MemoryId.words : MemoryId → Nat
  | .packetBuffer => 786432
  | .lanePool => 131072
  | .replayStore => 65536
  | .processImage => 65536
  | .multiTables => 131072
  | .singleTables => 131072

def Upset.wf (u : Upset) : Bool := decide (u.copy < 3) && u.bits.all (fits 72)

def HeronUpset.wf : HeronUpset → Bool
  | .gateBit _ _ e b _ => fits 1024 e && fits 64 b
  | .eventBit _ r b _ => fits 1024 r && fits 64 b
  | .vector _ _ _ => true
  | .hold _ _ => true
  | .entry _ _ x => fits 1024 x
  | .nextEvent _ x => fits 1024 x
  | .fired _ r => fits 1024 r

/-- A row has one block on each active lane of a link: 1 to 8 (08 R178; 09 R208). -/
def rowWf (r : List LaneWord) : Bool := decide (1 ≤ r.length) && decide (r.length ≤ 8)

/-- A command is well formed. -/
def Instr.wf : Instr → Bool
  | .frameReceive _ b _ => frameWf b
  | .bitternFrame b => frameWf b
  | .mpacketReceived _ m => frameWf m.bytes
  | .pfcReceived _ x => x.wf
  | .announceReceived x => x.wf
  | .syncReceived x => x.wf
  | .packetReceived _ before head middle last => (before ++ head ++ middle ++ last).all rowWf
  | .slotCheckDone r => r.wf
  | .slotSwitchCheckDone r => r.wf
  | .imageTransferDone x => x.read.wf
  | .heronVote u => u.all HeronUpset.wf
  | .scrubRead _ u => u.all Upset.wf
  | .discover _ r => r.wf
  | .read _ r => r.wf
  | .stage _ r => r.wf
  | .commit _ r => r.wf
  | .abort _ r => r.wf
  | .counterSnapshot _ r => r.wf
  | .eventSubscribe _ r => r.wf
  | .imageTransfer _ r => r.wf
  | .slotSwitch _ r => r.wf
  | .rollbackFloorRaise _ r => r.wf
  | .reservedOpcode _ o r => r.wf && decide (o.toNat = 0 ∨ 0xB ≤ o.toNat)
  | .resetN ns => decide (0 < ns)
  | .freezeN ns _ => decide (0 < ns)
  | _ => true

end Sys2Proof
end

