-- ==== Sys2Proof/Machine/Turnstone.lean ====
section
/-!
DEFINITION. The scrubber (15 R327 to R329), and the family of Turnstone: the freeze latch (17 R345, R346) and
the readout of the frozen state (17 R349 to R351). What a frozen state leaves open stands in Config
(notes/assumptions/5.md).
-/
namespace Sys2Proof.Machine

/-! ### Scrubbing (15 R327) -/

/-- A scrub read checks the memory's next word; the following read is due 16 ck later. -/
def scrubNext (m : MemoryId) (s : State) : State :=
  let x := scrub s (memCode m)
  let s := judgeWord m x.next s
  { s with scrubs := mSet s.scrubs (memCode m) { next := (x.next + 1) % m.words, due := s.now + 16 } }

/-- SCRUB_READ. `u` lists the upsets that have struck stored words before the read. -/
def execScrubRead (m : MemoryId) (u : List Upset) (s : State) : Host.Outcome State Fault Refusal :=
  act (ckRuns s && s.boot.pllLocked && decide ((scrub s (memCode m)).due ≤ s.now)) (fun s =>
    scrubNext m (each u addUpset s)) s

/-! ### The freeze latch (R345, R346) -/

/-- The edge's stamps: by the 8-phase capture, in S3 on XK. -/
def freezeStamps (ps : Nat) (s : State) : Nat × Nat :=
  let c := captureOf s false (ps * 8 / 1250)
  (c.stampLocal, c.stampWorking)

/-- A falling edge that is not ignored: held until the ladder measurement ends, latched, or counted. -/
def freezeEdge (ps : Nat) (s : State) : State :=
  let x := freezeStamps ps s
  if !s.ladder.done then
    if s.freeze.held then s
    else { s with freeze := { s.freeze with held := true, stampLocal := x.1, stampWorking := x.2 } }
  else if s.straps.freezeArm then latchFreeze false x.1 x.2 s
  else bumpDev 42 s

/-- FREEZE_N: a falling edge, low for `lowNs`; below 10 ns it may do nothing (R345). -/
def execFreezeN (lowNs : Nat) (ps : Fin 1250) (s : State) : Host.Outcome State Fault Refusal :=
  act (running s) (fun s =>
    if 10 ≤ lowNs then freezeEdge ps.val s
    else if Config.freezeShortPulse s.free then freezeEdge ps.val (drawFree s) else drawFree s) s

/-! ### The stop stamps (R350) -/

/-- The link holding a lane is past DETECT and still uses the lane: the lane's receive clock runs. -/
def laneClocked (s : State) (n : Nat) : Bool :=
  match laneHome s n with
  | some (k, i) => (link s k).st != .off && (link s k).st != .detect && !hasBit (link s k).excluded i
  | none => false

/-- A clock domain ran at the freeze, by its ID. -/
def domainRan (s : State) (d : Nat) : Bool :=
  if d = 0 then !s.freeze.fromS3
  else if d ≤ 4 then (port s (d - 1)).up && !s.supply.srefFault
  else if d ≤ 8 then (port s (d - 5)).live
  else if d = 9 then !s.supply.srefFault
  else if d ≤ 0x29 then laneClocked s (d - 10)
  else true

/-- LOCAL at CK's last ck: within 4 ck of the edge, or at the entry to S3 (R347; 14 R324). -/
def lastCk (s : State) : Nat :=
  if s.freeze.fromS3 then s.dunlin.localCount - (s.now - s.power.s3Since) * ckUnits
  else s.dunlin.localCount + Config.stopLag s.free % 5 * ckUnits

/-- The period of a clock domain, by its ID, at the mode and the rate in force (01 R377; R347). -/
def domainPeriodPs (s : State) (d : Nat) : Nat :=
  if d = 0 then 1250
  else if d ≤ 4 then wordPeriodPs (port s (d - 1)).mode
  else if d ≤ 8 then wordPeriodPs (port s (d - 5)).mode
  else if d = 9 then 10000
  else if d ≤ 0x29 then lanePeriodPs (match laneHome s (d - 10) with | some (k, _) => (link s k).rate | none => 1)
  else if d = 0x2A then 20000 else if d = 0x2B then 100000 else 40000

/-- The stop bound of R347: 4 ck, or 6 periods of the domain. -/
def stopBoundPs (s : State) (d : Nat) : Nat := if d = 0 then 5000 else 6 * domainPeriodPs s d

/-- The periods a domain runs after its synchroniser's 3, and the time from the edge to its stop. -/
def stopPeriods (s : State) (d : Nat) : Nat := (Config.stopPeriods s.free d).toNat
def stopPs (s : State) (d : Nat) : Nat :=
  if d = 0 then Config.stopLag s.free % 5 * 1250 else (3 + stopPeriods s d) * domainPeriodPs s d

/-- A stop stamp: 16 bytes. -/
def stopStamp (s : State) (d : Nat) : List Byte :=
  let ran := domainRan s d
  layout 16 [num 0 1 d, num 1 1 (bitW ran 1 + bitW (ran && decide (stopPs s d ≤ stopBoundPs s d)) 2),
    num 2 1 (if ran then stopPeriods s d else 0),
    if d = 0 then bytesAt 8 (padTo 8 ((timeBytes12 (lastCk s)).take 6))
    else num 8 8 (if ran then (Config.stopCount s.free d).toNat else 0)]

/-! ### The records (R351) -/

/-- A readout record: its header and its body. -/
def readoutRecord (type inst : Nat) (body : List Byte) : List Byte :=
  leBytes 2 type ++ leBytes 2 inst ++ leBytes 4 body.length ++ body

/-- Bytes of all scan chains on stepping B. -/
def scanTotal : Nat := 229376

/-- Where the chain of domain d ends among the bytes of all chains: in ID order, the last at their end. -/
def scanEnd : Nat → Nat
  | 0 => min scanTotal (Config.scanCut 0)
  | d + 1 => if d + 1 = 44 then scanTotal else max (scanEnd d) (min scanTotal (Config.scanCut (d + 1)))

def scanStart (d : Nat) : Nat := if d = 0 then 0 else scanEnd (d - 1)

def scanBody (s : State) (d : Nat) : List Byte :=
  (List.range (scanEnd d - scanStart d)).map (fun i => Config.scanByte s.free (scanStart d + i))

/-- The 64 entries of the ring; an entry not made yet reads zero (notes/assumptions/4.md). -/
def faultLogBody (s : State) : List Byte :=
  (List.range 64).flatMap (fun i => (mFind s.faults.entries i).getD (List.replicate 48 0))

/-- 1,024 table words of a copy as they stand, upsets included. -/
def listBody (c : HeronCopy) (base : Nat) : List Byte :=
  (List.range 1024).flatMap (fun i => leBytes 8 (tableWord c (base + i)))

/-- A Heron copy's tables: per port the active and the shadow list, then both event lists. -/
def heronBody (c : HeronCopy) : List Byte :=
  (List.range 4).flatMap (fun p => listBody c (1024 * p) ++ listBody c (5120 + 1024 * p)) ++
  listBody c 4096 ++ listBody c 9216

/-- A key record of the MGMT section (04 R88). -/
def keyBytes (k : KeyRec) : List Byte := layout 32 [num 0 8 k.serial.toNat, bytesAt 8 k.wrapped]

/-- A section of the tables in force: none for a section without records. -/
def sectionBody (type size : Nat) (recs : List (List Byte)) : List Byte :=
  if recs.isEmpty then []
  else leBytes 1 type ++ leBytes 1 0 ++ leBytes 2 size ++ leBytes 4 recs.length ++ recs.flatten

def mapRecs {α : Type} (m : SMap α) (f : α → List Byte) : List (List Byte) := m.map (fun x => f x.2)

def mgmtRecs (s : State) : List (List Byte) :=
  match s.tables.mgmt with
  | some r => mgmtBytes r :: (match s.boot.image with | some i => i.keys.map keyBytes | none => [])
  | none => []

/-- The sections in force, in type order (04 R70); records of a section in the order of their keys. -/
def sectionsBody (s : State) : List Byte :=
  let t := s.tables
  sectionBody 1 72 (t.ident.toList.map identBytes) ++ sectionBody 2 24 (mapRecs t.ports portsBytes) ++
  sectionBody 3 48 (if t.mgmt.isSome then [timeBytes t.time] else []) ++
  sectionBody 4 8 (mapRecs t.gates gatesBytes) ++ sectionBody 5 8 (mapRecs t.events eventsBytes) ++
  sectionBody 6 64 (mapRecs t.streams streamsBytes) ++ sectionBody 7 16 (mapRecs t.listen listenBytes) ++
  sectionBody 8 32 (mapRecs t.filters filtersBytes) ++ sectionBody 9 16 (mapRecs t.police policeBytes) ++
  sectionBody 10 8 (mapRecs t.frer frerBytes) ++ sectionBody 11 16 (mapRecs t.lanes lanesBytes) ++
  sectionBody 12 16 (mapRecs t.vcmap vcmapBytes) ++ sectionBody 13 16 (mapRecs t.pimap pimapBytes) ++
  sectionBody 14 32 (mapRecs t.dma dmaBytes) ++ sectionBody 15 1168 (t.power.toList.map powerBytes) ++
  sectionBody 16 32 (mgmtRecs s) ++ sectionBody 17 8 (t.safe.toList.map safeBytes) ++
  sectionBody 18 16 (t.cal.toList.map calBytes)

/-- A memory's words in address order, then the count and the addresses of the uncorrectable ones. -/
def memoryBody (s : State) (m : MemoryId) (words : List Byte) : List Byte :=
  let bad := (upsetWords s m 0).filter (fun w => uncorrectable (flips s m 0 w))
  words ++ leBytes 4 bad.length ++ bad.flatMap (leBytes 4)

/-- The data bytes of a memory of 64-bit words. -/
def bufferWords (s : State) (m : MemoryId) : List Byte :=
  (List.range (m.words * 8)).map (Config.memoryByte s.free (memCode m))

/-- An image word as the readout sends it: corrected, an uncorrectable one as stored; the station block's
words as they read. -/
def readoutWord (s : State) (w : Nat) : Word :=
  if uncorrectable (flips s .processImage 0 w) then storedWord s w else sramWord s w

def imageWords (s : State) : List Byte :=
  (List.range 65536).flatMap (fun w => leBytes 4 (readoutWord s w).toNat)

def memoryRecords (s : State) : List Byte :=
  readoutRecord 0x10 0 (memoryBody s .packetBuffer (bufferWords s .packetBuffer)) ++
  readoutRecord 0x11 0 (memoryBody s .lanePool (bufferWords s .lanePool)) ++
  readoutRecord 0x12 0 (memoryBody s .replayStore (bufferWords s .replayStore)) ++
  readoutRecord 0x13 0 (memoryBody s .processImage (imageWords s))

def readoutRecords (s : State) : List Byte :=
  (List.range 45).flatMap (fun d => readoutRecord 1 d (scanBody s d)) ++
  readoutRecord 2 0 (faultLogBody s) ++
  readoutRecord 3 0 (heronBody s.heron.copyA) ++ readoutRecord 3 1 (heronBody s.heron.copyB) ++
  readoutRecord 3 2 (heronBody s.heron.copyC) ++ readoutRecord 4 0 (sectionsBody s) ++
  (if s.readout.memsel then memoryRecords s else [])

/-! ### The stream (R350) -/

/-- The readout header for a stream of `len` bytes: 784 bytes. -/
def readoutHeader (s : State) (len : Nat) : List Byte :=
  [0x54, 0x53, 0x54, 0x4E] ++ leBytes 2 1 ++ leBytes 2 784 ++ leBytes 8 s.otp.serial.toNat ++
  leBytes 1 (phaseCode s.boot.phase) ++ leBytes 1 (s.boot.resultA + s.boot.resultB * 16) ++
  leBytes 1 s.power.level ++
  leBytes 1 (bitW s.readout.memsel 1 + bitW s.freeze.heldToEnd 2 + bitW s.freeze.fromS3 4) ++
  timeBytes12 s.freeze.stampLocal ++ timeBytes12 s.freeze.stampWorking ++
  leBytes 4 s.heron.cycle ++ leBytes 4 s.faults.corrected ++ leBytes 4 len ++ leBytes 8 0 ++
  (List.range 45).flatMap (stopStamp s)

/-- The stream: the header, the records and the trailer with the CRC-32 of all before its body. -/
def readoutStream (s : State) : List Byte :=
  let recs := readoutRecords s
  let body := readoutHeader s (784 + recs.length + 12) ++ recs ++ leBytes 2 0xFFFF ++ leBytes 2 0 ++ leBytes 4 4
  body ++ leBytes 4 (crc32 body)

/-- A nibble of the stream: the low half of each byte first, zero after the last byte (R349). -/
def streamNibble (s : State) (n : Nat) : Nat :=
  let b := ((readoutStream s).getD (n / 2) 0).toNat
  if n % 2 = 0 then b % 16 else b / 16

/-! ### The readout port (R349) -/

/-- What TS_DO shows. -/
def setTsDo (v : Nat) (s : State) : State :=
  if s.readout.tsDo = v then s else emit (.level s.now .tsDo v) { s with readout := { s.readout with tsDo := v } }

/-- READOUT_START. -/
def execReadoutStart (memsel : Bool) (s : State) : Host.Outcome State Fault Refusal :=
  act (frozen s && !s.readout.running) (fun s =>
    { s with readout := { s.readout with running := true, memsel := memsel, pos := 0 } }) s

/-- READOUT_END. TS_DO is low again. -/
def execReadoutEnd (s : State) : Host.Outcome State Fault Refusal :=
  act (frozen s && s.readout.running) (fun s =>
    setTsDo 0 { s with readout := { s.readout with running := false } }) s

/-- READOUT_NIBBLE. -/
def execReadoutNibble (s : State) : Host.Outcome State Fault Refusal :=
  act (frozen s && s.readout.running) (fun s =>
    let t := setTsDo (streamNibble s s.readout.pos) s
    { t with readout := { t.readout with pos := t.readout.pos + 1 } }) s

end Sys2Proof.Machine
end

