-- ==== Sys2Proof/Machine/Dispatch.lean ====
section
/-!
DEFINITION. The meaning of each command: one arm per constructor of `Instr`, in the table's order.
-/
namespace Sys2Proof.Machine

def exec (i : Instr) (s : State) : Host.Outcome State Fault Refusal :=
  match i with
  | .powerOn vinMv vdd18Mv extpwr => Sys2Proof.Machine.execPowerOn vinMv vdd18Mv extpwr s
  | .railBrownOut rail => Sys2Proof.Machine.execRailBrownOut rail s
  | .railsInRegulation => Sys2Proof.Machine.execRailsInRegulation s
  | .resetN lowNs => Sys2Proof.Machine.execResetN lowNs s
  | .vinUndervoltage mv => Sys2Proof.Machine.execVinUndervoltage mv s
  | .resetRelease x => Sys2Proof.Machine.execResetRelease x s
  | .ladderReading x => Sys2Proof.Machine.execLadderReading x s
  | .corePllLock => Sys2Proof.Machine.execCorePllLock s
  | .processImageClearDone => Sys2Proof.Machine.execProcessImageClearDone s
  | .otpReadDone a b c => Sys2Proof.Machine.execOtpReadDone a b c s
  | .jedecIdReadDone id1 id0 standA standB => Sys2Proof.Machine.execJedecIdReadDone id1 id0 standA standB s
  | .slotCheckDone r => Sys2Proof.Machine.execSlotCheckDone r s
  | .configDone => Sys2Proof.Machine.execConfigDone s
  | .localTimeout => Sys2Proof.Machine.execLocalTimeout s
  | .heronStart => Sys2Proof.Machine.execHeronStart s
  | .srefclkFault => Sys2Proof.Machine.execSrefclkFault s
  | .srefclkRecovery => Sys2Proof.Machine.execSrefclkRecovery s
  | .xinLoss => Sys2Proof.Machine.execXinLoss s
  | .bankBrownOut b mv => Sys2Proof.Machine.execBankBrownOut b mv s
  | .bankBrownOutRecovery b mv => Sys2Proof.Machine.execBankBrownOutRecovery b mv s
  | .overtemperature celsius => Sys2Proof.Machine.execOvertemperature celsius s
  | .thermalShutdown celsius => Sys2Proof.Machine.execThermalShutdown celsius s
  | .dcqFault w => Sys2Proof.Machine.execDcqFault w s
  | .cycleBoundary => Sys2Proof.Machine.execCycleBoundary s
  | .gateEntry p => Sys2Proof.Machine.execGateEntry p s
  | .heronEvent => Sys2Proof.Machine.execHeronEvent s
  | .heronVote u => Sys2Proof.Machine.execHeronVote u s
  | .syncReceived x => Sys2Proof.Machine.execSyncReceived x s
  | .syncLossTimeout d => Sys2Proof.Machine.execSyncLossTimeout d s
  | .alignmentComplete => Sys2Proof.Machine.execAlignmentComplete s
  | .announceReceived x => Sys2Proof.Machine.execAnnounceReceived x s
  | .pdelayReqSend p => Sys2Proof.Machine.execPdelayReqSend p s
  | .pdelayReceived p m phase => Sys2Proof.Machine.execPdelayReceived p m phase s
  | .signalingReceived p => Sys2Proof.Machine.execSignalingReceived p s
  | .ppsOutPulse => Sys2Proof.Machine.execPpsOutPulse s
  | .ppsOutPulseEnd => Sys2Proof.Machine.execPpsOutPulseEnd s
  | .timeInputEdge inp rising ps => Sys2Proof.Machine.execTimeInputEdge inp rising ps s
  | .serdesLatencyRemeasure p txPs rxPs => Sys2Proof.Machine.execSerdesLatencyRemeasure p txPs rxPs s
  | .timeBlockSend k => Sys2Proof.Machine.execTimeBlockSend k s
  | .echoReceived k body phase => Sys2Proof.Machine.execEchoReceived k body phase s
  | .echoMissing k => Sys2Proof.Machine.execEchoMissing k s
  | .wheelSlot => Sys2Proof.Machine.execWheelSlot s
  | .coarseSlot => Sys2Proof.Machine.execCoarseSlot s
  | .deadlineExpiry q => Sys2Proof.Machine.execDeadlineExpiry q s
  | .transmitSelection p => Sys2Proof.Machine.execTransmitSelection p s
  | .transmitComplete p => Sys2Proof.Machine.execTransmitComplete p s
  | .frameReceive p bytes codeError => Sys2Proof.Machine.execFrameReceive p bytes codeError s
  | .recoveryResetTimeout l => Sys2Proof.Machine.execRecoveryResetTimeout l s
  | .pfcReceived p x => Sys2Proof.Machine.execPfcReceived p x s
  | .macControlIgnored p opcode => Sys2Proof.Machine.execMacControlIgnored p opcode s
  | .pauseExpiry p c => Sys2Proof.Machine.execPauseExpiry p c s
  | .pfcSend p c => Sys2Proof.Machine.execPfcSend p c s
  | .pfcRefresh p c => Sys2Proof.Machine.execPfcRefresh p c s
  | .verifyTimer p => Sys2Proof.Machine.execVerifyTimer p s
  | .verifyMpacketReceived p respond => Sys2Proof.Machine.execVerifyMpacketReceived p respond s
  | .mpacketReceived p m => Sys2Proof.Machine.execMpacketReceived p m s
  | .portDown p w => Sys2Proof.Machine.execPortDown p w s
  | .portUp x => Sys2Proof.Machine.execPortUp x s
  | .linkUpHoldEnd p => Sys2Proof.Machine.execLinkUpHoldEnd p s
  | .sgmiiInbandWord p link speed full => Sys2Proof.Machine.execSgmiiInbandWord p link speed full s
  | .phyPoll p value => Sys2Proof.Machine.execPhyPoll p value s
  | .phyRestart p => Sys2Proof.Machine.execPhyRestart p s
  | .ctUnderrun p => Sys2Proof.Machine.execCtUnderrun p s
  | .tunnelFcsError q => Sys2Proof.Machine.execTunnelFcsError q s
  | .tunnelOverlength q => Sys2Proof.Machine.execTunnelOverlength q s
  | .packetReceived k before head middle last => Sys2Proof.Machine.execPacketReceived k before head middle last s
  | .pairResetTimeout j v => Sys2Proof.Machine.execPairResetTimeout j v s
  | .ackTimer k => Sys2Proof.Machine.execAckTimer k s
  | .ackReceived k kind body => Sys2Proof.Machine.execAckReceived k kind body s
  | .nakReceived k body => Sys2Proof.Machine.execNakReceived k body s
  | .replayTimeout k => Sys2Proof.Machine.execReplayTimeout k s
  | .linkDown k => Sys2Proof.Machine.execLinkDown k s
  | .packetSend k => Sys2Proof.Machine.execPacketSend k s
  | .creditWaitDeadline k v => Sys2Proof.Machine.execCreditWaitDeadline k v s
  | .creditReturn k v => Sys2Proof.Machine.execCreditReturn k v s
  | .auditSend k => Sys2Proof.Machine.execAuditSend k s
  | .auditReceived k body => Sys2Proof.Machine.execAuditReceived k body s
  | .controlBlockDiscard k body => Sys2Proof.Machine.execControlBlockDiscard k body s
  | .detectBeacon k => Sys2Proof.Machine.execDetectBeacon k s
  | .backoffReset k => Sys2Proof.Machine.execBackoffReset k s
  | .ts1Detected k body => Sys2Proof.Machine.execTs1Detected k body s
  | .blockLock k lane locked => Sys2Proof.Machine.execBlockLock k lane locked s
  | .alignComplete k lanes => Sys2Proof.Machine.execAlignComplete k lanes s
  | .paramReceived k body => Sys2Proof.Machine.execParamReceived k body s
  | .paramAckReceived k body => Sys2Proof.Machine.execParamAckReceived k body s
  | .speedCountdownEnd k => Sys2Proof.Machine.execSpeedCountdownEnd k s
  | .eqReqReceived k body => Sys2Proof.Machine.execEqReqReceived k body s
  | .eqDoneReceived k body => Sys2Proof.Machine.execEqDoneReceived k body s
  | .readyReceived k lane body => Sys2Proof.Machine.execReadyReceived k lane body s
  | .trainingTimeout k => Sys2Proof.Machine.execTrainingTimeout k s
  | .retrain k w => Sys2Proof.Machine.execRetrain k w s
  | .eyeMapComplete n fast points => Sys2Proof.Machine.execEyeMapComplete n fast points s
  | .dfeAdapt n errPos d1 d2 d3 => Sys2Proof.Machine.execDfeAdapt n errPos d1 d2 d3 s
  | .calBlockSend n => Sys2Proof.Machine.execCalBlockSend n s
  | .calBlockReceived n body => Sys2Proof.Machine.execCalBlockReceived n body s
  | .laneSleep k => Sys2Proof.Machine.execLaneSleep k s
  | .laneWake k => Sys2Proof.Machine.execLaneWake k s
  | .sleepKeepalive k => Sys2Proof.Machine.execSleepKeepalive k s
  | .hostWrite pa data x => Sys2Proof.Machine.execHostWrite pa data x s
  | .halfReadLatch pa => Sys2Proof.Machine.execHalfReadLatch pa s
  | .eventFlagClear w bits => Sys2Proof.Machine.execEventFlagClear w bits s
  | .attnmaskWrite value be => Sys2Proof.Machine.execAttnmaskWrite value be s
  | .doorbellRing bits => Sys2Proof.Machine.execDoorbellRing bits s
  | .hostltrWrite value be => Sys2Proof.Machine.execHostltrWrite value be s
  | .rearmPulseEnd => Sys2Proof.Machine.execRearmPulseEnd s
  | .avocetTrigger c => Sys2Proof.Machine.execAvocetTrigger c s
  | .avocetHalfCompletion c => Sys2Proof.Machine.execAvocetHalfCompletion c s
  | .avocetFullCompletion c => Sys2Proof.Machine.execAvocetFullCompletion c s
  | .avocetBusError c w => Sys2Proof.Machine.execAvocetBusError c w s
  | .listenAgeDiscard l => Sys2Proof.Machine.execListenAgeDiscard l s
  | .lanepoolAgeDiscard k v => Sys2Proof.Machine.execLanepoolAgeDiscard k v s
  | .discover p r => Sys2Proof.Machine.execDiscover p r s
  | .read p r => Sys2Proof.Machine.execRead p r s
  | .stage p r => Sys2Proof.Machine.execStage p r s
  | .commit p r => Sys2Proof.Machine.execCommit p r s
  | .abort p r => Sys2Proof.Machine.execAbort p r s
  | .counterSnapshot p r => Sys2Proof.Machine.execCounterSnapshot p r s
  | .eventSubscribe p r => Sys2Proof.Machine.execEventSubscribe p r s
  | .imageTransfer p r => Sys2Proof.Machine.execImageTransfer p r s
  | .imageTransferDone x => Sys2Proof.Machine.execImageTransferDone x s
  | .transferIdleTimeout => Sys2Proof.Machine.execTransferIdleTimeout s
  | .slotSwitch p r => Sys2Proof.Machine.execSlotSwitch p r s
  | .slotSwitchReset => Sys2Proof.Machine.execSlotSwitchReset s
  | .rollbackFloorRaise p r => Sys2Proof.Machine.execRollbackFloorRaise p r s
  | .floorRaiseDone => Sys2Proof.Machine.execFloorRaiseDone s
  | .reservedOpcode p opcode r => Sys2Proof.Machine.execReservedOpcode p opcode r s
  | .powerLevelChange => Sys2Proof.Machine.execPowerLevelChange s
  | .efftolUpdate => Sys2Proof.Machine.execEfftolUpdate s
  | .s3Entry => Sys2Proof.Machine.execS3Entry s
  | .s3Exit w => Sys2Proof.Machine.execS3Exit w s
  | .s4Entry wakeNHigh => Sys2Proof.Machine.execS4Entry wakeNHigh s
  | .bitternFrame bytes => Sys2Proof.Machine.execBitternFrame bytes s
  | .bitternLinkChange up => Sys2Proof.Machine.execBitternLinkChange up s
  | .wakeN => Sys2Proof.Machine.execWakeN s
  | .s4Exit => Sys2Proof.Machine.execS4Exit s
  | .scrubRead m u => Sys2Proof.Machine.execScrubRead m u s
  | .freezeN lowNs ps => Sys2Proof.Machine.execFreezeN lowNs ps s
  | .readoutStart memsel => Sys2Proof.Machine.execReadoutStart memsel s
  | .readoutEnd => Sys2Proof.Machine.execReadoutEnd s
  | .slotSwitchCheckDone r => Sys2Proof.Machine.execSlotSwitchCheckDone r s
  | .portLowPowerEntry p => Sys2Proof.Machine.execPortLowPowerEntry p s
  | .portLowPowerExit p => Sys2Proof.Machine.execPortLowPowerExit p s
  | .readoutNibble => Sys2Proof.Machine.execReadoutNibble s
  | .dunlinSecondsWrap c => Sys2Proof.Machine.execDunlinSecondsWrap c s
  | .vinRestart mv => Sys2Proof.Machine.execVinRestart mv s

end Sys2Proof.Machine
end

