-- ==== Sys2Proof/Machine/Idle.lean ====
section
/-!
DEFINITION. What one ck does when no command waits (notes/assumptions/2.md): time passes, a message that
waits for a frame buffer goes to its stream as soon as one is free (08 R207), Avocet reads and writes (11 R257 to
R259), and the conditions of the sleep states are timed (14 R308, R315).
-/
namespace Sys2Proof.Machine

/-- Tunnelled messages that wait for a frame buffer of their stream (08 R207). -/
def pourWaiting (s : State) : State :=
  each (s.vcs.map (·.1)) (fun i => pour (i / 8) (i % 8)) s

/-- The duties of a ck; in S3 CK stands and only time passes (14 R316). -/
def ckDuties (s : State) : State :=
  if ckRuns s then
    let s := ageDuty (avocetDuty (doorbellDuty (heronDuty (masterDuty (switchDuty s)))))
    powerDuties (rowDuty (levelDuty (pourWaiting (curlewDuty (speedDuty (mdioDuty (faultDuty s)))))))
  else if s.power.level = 3 then sleepDuty s else s

/-- A ck ends: the watchdog of a boundary ck compares, Avocet's reads and writes are granted, counter snapshots are
taken, and the pins that the ck's events drove take their levels. -/
def ckEnds (s : State) : State :=
  let s := settleWatchdog s
  showEvtOut (if ckRuns s then snapDuty (grantDuty s) else s)

/-- One ck passes, unless the device is held in reset, frozen or in S4. -/
def idleStep (s : State) : Host.Outcome State Fault Refusal :=
  act (running s) (fun s => ckDuties (tick (ckEnds s))) s

end Sys2Proof.Machine
end

