-- ==== Sys2Proof/Safety.lean ====
section
/-!
DEFINITION. The parts of the state, and what it means that a command leaves parts unchanged: the terms in which
claims about frames and safe runs are stated.
-/
namespace Sys2Proof.Machine

/-- The parts of the state that a frame speaks of: every field of State, with the station block in five parts,
Heron in two and Hidiquel in seven, but for what may follow from any change at all: the event flags and PATN_N
(10 R244, R246), Hidiquel's own frames with their session counters, announce marks and drop counts (13 R287,
R299, R300), the log of pins and wires, and the model's own numbering. -/
inductive Part where
  | pending | now | supply | straps | ladder | boot | otp | tables | lost | staged | commit | mem | upsets
  | halfLatch | hwWrote | hostWords | doorbell | ignWr | rearm | status | regions | dunlin | inputs
  | heronClock | heronCopies | streams | meters | coarse | released | ports | mdio | queues | rxCells | highWater
  | listeners | links | vcs | pairs | lanes | quiet | chans | avocet | mgmtRx | mgmtKey | subs | xfer | switch
  | raise | snaps | counters | power | faults | scrubs | freeze | readout
deriving DecidableEq, Repr

/-- The station block's words that the host writes (10 R243). -/
@[simp] def hostWordsOf (x : Station) : List Word :=
  [x.hostLtr, x.heartbeat, x.hbWindow, x.attnMask, x.hostInfo0, x.hostInfo1]

/-- The doorbell word with the bits rung in its last ck (10 R245). -/
@[simp] def doorbellOf (x : Station) : Word × Nat × Word := (x.doorbell, x.rungAt, x.rung)

/-- What the device computes into the station block: GENERATION, the watchdog, EFFTOL (10 R242). -/
@[simp] def statusOf (x : Station) : Word × Option Nat × Nat × Bool × Word × Bool × Word :=
  (x.generation, x.generationAt, x.wdMiss, x.wdExp, x.lastHeartbeat, x.wdDue, x.effTol)

/-- Heron's clock: started, cycle number, accumulator, boundary and cycle length (05 R106). -/
@[simp] def clockOf (x : Heron) : Bool × Nat × Nat × Nat × Nat := (x.started, x.cycle, x.acc, x.boundary, x.len)

/-- Heron's copies, and whether it is SAFE (06 R127, R129). -/
@[simp] def copiesOf (x : Heron) : HeronCopy × HeronCopy × HeronCopy × Bool := (x.copyA, x.copyB, x.copyC, x.safe)

/-- A port's state, its announce mark apart. -/
def portOf (x : PortSt) : PortSt := { x with announced := false }

/-- A counter that the device's own frames move: dropped, merged, renewed, or out of a class queue's room. -/
def frameCounter (id : Nat) : Bool :=
  id == ctrId 0x20 0 29 || id == ctrId 0x20 0 40 || id == ctrId 0x20 0 41 ||
    (id / 2 ^ 24 == 0x24 && id % 256 == 4)

/-- The frames of a class queue that are not the device's own, by number. -/
def otherFrames (q : List Frame) : List Nat := (q.filter (fun f => !f.hid)).map (·.id)

/-- A part has the same value in two states. -/
def Part.same : Part → State → State → Prop
  | .pending, s, t => s.pending = t.pending
  | .now, s, t => s.now = t.now
  | .supply, s, t => s.supply = t.supply
  | .straps, s, t => s.straps = t.straps
  | .ladder, s, t => s.ladder = t.ladder
  | .boot, s, t => s.boot = t.boot
  | .otp, s, t => s.otp = t.otp ∧ s.fuses = t.fuses
  | .tables, s, t => s.tables = t.tables
  | .lost, s, t => s.lost = t.lost
  | .staged, s, t => s.staged = t.staged
  | .commit, s, t => s.commit = t.commit
  | .mem, s, t => s.mem = t.mem
  | .upsets, s, t => s.upsets = t.upsets
  | .halfLatch, s, t => s.halfLatch = t.halfLatch
  | .hwWrote, s, t => s.hwWrote = t.hwWrote
  | .hostWords, s, t => hostWordsOf s.station = hostWordsOf t.station
  | .doorbell, s, t => doorbellOf s.station = doorbellOf t.station
  | .ignWr, s, t => s.station.ignWr = t.station.ignWr
  | .rearm, s, t => s.station.rearmEnd = t.station.rearmEnd
  | .status, s, t => statusOf s.station = statusOf t.station
  | .regions, s, t => s.regions = t.regions
  | .dunlin, s, t => s.dunlin = t.dunlin
  | .inputs, s, t => s.inputs = t.inputs
  | .heronClock, s, t => clockOf s.heron = clockOf t.heron
  | .heronCopies, s, t => copiesOf s.heron = copiesOf t.heron
  | .streams, s, t => s.streams = t.streams
  | .meters, s, t => s.meters = t.meters
  | .coarse, s, t => s.coarse = t.coarse
  | .released, s, t => s.released = t.released
  | .ports, s, t => ∀ p, portOf (port s p) = portOf (port t p)
  | .mdio, s, t => s.mdio = t.mdio
  | .queues, s, t => ∀ i, otherFrames (mGetD s.classQ i []) = otherFrames (mGetD t.classQ i [])
  | .rxCells, s, t => s.rxCells = t.rxCells
  | .highWater, s, t => s.highWater = t.highWater
  | .listeners, s, t => s.listeners = t.listeners
  | .links, s, t => s.links = t.links
  | .vcs, s, t => s.vcs = t.vcs
  | .pairs, s, t => s.pairs = t.pairs
  | .lanes, s, t => s.lanes = t.lanes
  | .quiet, s, t => s.quiet = t.quiet
  | .chans, s, t => s.chans = t.chans
  | .avocet, s, t => s.avocet = t.avocet
  | .mgmtRx, s, t => s.hid.rx = t.hid.rx
  | .mgmtKey, s, t => s.hid.key = t.hid.key
  | .subs, s, t => s.hid.subs = t.hid.subs
  | .xfer, s, t => s.hid.xfer = t.hid.xfer
  | .switch, s, t => s.hid.switch = t.hid.switch
  | .raise, s, t => s.hid.raise = t.hid.raise
  | .snaps, s, t => s.hid.snaps = t.hid.snaps
  | .counters, s, t => ∀ id, frameCounter id = false → mGetD s.counters id 0 = mGetD t.counters id 0
  | .power, s, t => s.power = t.power
  | .faults, s, t => s.faults = t.faults
  | .scrubs, s, t => s.scrubs = t.scrubs
  | .freeze, s, t => s.freeze = t.freeze
  | .readout, s, t => s.readout = t.readout

/-- Every part is unchanged but those of a list. -/
def SameBut (w : List Part) (s t : State) : Prop := ∀ p, p ∉ w → p.same s t

/-! ### Families, and what each command may write -/

/-- The families of the table's commands. -/
inductive Family where
  | supply | boot | time | heron | wheel | ethernet | dziak | training | pip | avocet | hidiquel | power
  | turnstone
deriving DecidableEq, Repr

/-- A command's family. -/
def familyOf : Instr → Family
  | .powerOn _ _ _ | .railBrownOut _ | .railsInRegulation | .resetN _ | .vinUndervoltage _
  | .resetRelease _ | .srefclkFault | .srefclkRecovery | .xinLoss | .bankBrownOut _ _
  | .bankBrownOutRecovery _ _ | .overtemperature _ | .thermalShutdown _ | .dcqFault _ | .vinRestart _ => .supply
  | .ladderReading _ | .corePllLock | .processImageClearDone | .otpReadDone _ _ _
  | .jedecIdReadDone _ _ _ _ | .slotCheckDone _ | .configDone | .localTimeout | .heronStart => .boot
  | .syncReceived _ | .syncLossTimeout _ | .alignmentComplete | .announceReceived _ | .pdelayReqSend _
  | .pdelayReceived _ _ _ | .signalingReceived _ | .ppsOutPulse | .ppsOutPulseEnd | .timeInputEdge _ _ _
  | .serdesLatencyRemeasure _ _ _ | .timeBlockSend _ | .echoReceived _ _ _ | .echoMissing _
  | .dunlinSecondsWrap _ => .time
  | .cycleBoundary | .gateEntry _ | .heronEvent | .heronVote _ => .heron
  | .wheelSlot | .coarseSlot | .deadlineExpiry _ | .transmitSelection _ | .transmitComplete _ => .wheel
  | .frameReceive _ _ _ | .recoveryResetTimeout _ | .pfcReceived _ _ | .macControlIgnored _ _
  | .pauseExpiry _ _ | .pfcSend _ _ | .pfcRefresh _ _ | .verifyTimer _ | .verifyMpacketReceived _ _
  | .mpacketReceived _ _ | .portDown _ _ | .portUp _ | .linkUpHoldEnd _ | .sgmiiInbandWord _ _ _ _
  | .phyPoll _ _ | .phyRestart _ | .ctUnderrun _ | .tunnelFcsError _ | .tunnelOverlength _ => .ethernet
  | .packetReceived _ _ _ _ _ | .pairResetTimeout _ _ | .ackTimer _ | .ackReceived _ _ _ | .nakReceived _ _
  | .replayTimeout _ | .linkDown _ | .packetSend _ | .creditWaitDeadline _ _ | .creditReturn _ _
  | .auditSend _ | .auditReceived _ _ | .controlBlockDiscard _ _ => .dziak
  | .detectBeacon _ | .backoffReset _ | .ts1Detected _ _ | .blockLock _ _ _ | .alignComplete _ _
  | .paramReceived _ _ | .paramAckReceived _ _ | .speedCountdownEnd _ | .eqReqReceived _ _
  | .eqDoneReceived _ _ | .readyReceived _ _ _ | .trainingTimeout _ | .retrain _ _ | .eyeMapComplete _ _ _
  | .dfeAdapt _ _ _ _ _ | .calBlockSend _ | .calBlockReceived _ _ => .training
  | .hostWrite _ _ _ | .halfReadLatch _ | .eventFlagClear _ _ | .attnmaskWrite _ _ | .doorbellRing _
  | .hostltrWrite _ _ | .rearmPulseEnd => .pip
  | .avocetTrigger _ | .avocetHalfCompletion _ | .avocetFullCompletion _ | .avocetBusError _ _
  | .listenAgeDiscard _ | .lanepoolAgeDiscard _ _ => .avocet
  | .discover _ _ | .read _ _ | .stage _ _ | .commit _ _ | .abort _ _ | .counterSnapshot _ _
  | .eventSubscribe _ _ | .imageTransfer _ _ | .imageTransferDone _ | .transferIdleTimeout
  | .slotSwitch _ _ | .slotSwitchReset | .rollbackFloorRaise _ _ | .floorRaiseDone | .reservedOpcode _ _ _
  | .slotSwitchCheckDone _ => .hidiquel
  | .laneSleep _ | .laneWake _ | .sleepKeepalive _ | .powerLevelChange | .efftolUpdate | .s3Entry
  | .s3Exit _ | .s4Entry _ | .bitternFrame _ | .bitternLinkChange _ | .wakeN | .s4Exit
  | .portLowPowerEntry _ | .portLowPowerExit _ => .power
  | .scrubRead _ _ | .freezeN _ _ | .readoutStart _ | .readoutEnd | .readoutNibble => .turnstone

/-- Every part but the queue of waiting commands. -/
def everyPart : List Part :=
  [.now, .supply, .straps, .ladder, .boot, .otp, .tables, .lost, .staged, .commit, .mem, .upsets,
   .halfLatch, .hwWrote, .hostWords, .doorbell, .ignWr, .rearm, .status, .regions, .dunlin, .inputs,
   .heronClock, .heronCopies, .streams, .meters, .coarse, .released, .ports, .mdio, .queues, .rxCells, .highWater,
   .listeners, .links, .vcs, .pairs, .lanes, .quiet, .chans, .avocet, .mgmtRx, .mgmtKey, .subs, .xfer, .switch,
   .raise, .snaps, .counters, .power, .faults, .scrubs, .freeze, .readout]

/-- The commands that can assert the internal reset (02 R28, R29, R41; 13 R297; 14 R318; 15 R330). -/
def assertsReset : Instr → Bool
  | .powerOn _ _ _ | .railBrownOut _ | .resetN _ | .vinUndervoltage _ | .xinLoss | .thermalShutdown _
  | .slotSwitchReset | .s4Entry _ => true
  | .railsInRegulation | .resetRelease _ | .ladderReading _ | .corePllLock
  | .processImageClearDone | .otpReadDone _ _ _ | .jedecIdReadDone _ _ _ _ | .slotCheckDone _
  | .configDone | .localTimeout | .heronStart | .srefclkFault | .srefclkRecovery | .bankBrownOut _ _
  | .bankBrownOutRecovery _ _ | .overtemperature _ | .dcqFault _ | .cycleBoundary | .gateEntry _
  | .heronEvent | .heronVote _ | .syncReceived _ | .syncLossTimeout _ | .alignmentComplete
  | .announceReceived _ | .pdelayReqSend _ | .pdelayReceived _ _ _ | .signalingReceived _ | .ppsOutPulse
  | .ppsOutPulseEnd | .timeInputEdge _ _ _ | .serdesLatencyRemeasure _ _ _ | .timeBlockSend _
  | .echoReceived _ _ _ | .echoMissing _ | .wheelSlot | .coarseSlot | .deadlineExpiry _
  | .transmitSelection _ | .transmitComplete _ | .frameReceive _ _ _ | .recoveryResetTimeout _
  | .pfcReceived _ _ | .macControlIgnored _ _ | .pauseExpiry _ _ | .pfcSend _ _ | .pfcRefresh _ _
  | .verifyTimer _ | .verifyMpacketReceived _ _ | .mpacketReceived _ _ | .portDown _ _ | .portUp _
  | .linkUpHoldEnd _ | .sgmiiInbandWord _ _ _ _ | .phyPoll _ _ | .phyRestart _ | .ctUnderrun _
  | .tunnelFcsError _ | .tunnelOverlength _ | .packetReceived _ _ _ _ _ | .pairResetTimeout _ _
  | .ackTimer _ | .ackReceived _ _ _ | .nakReceived _ _ | .replayTimeout _ | .linkDown _ | .packetSend _
  | .creditWaitDeadline _ _ | .creditReturn _ _ | .auditSend _ | .auditReceived _ _
  | .controlBlockDiscard _ _ | .detectBeacon _ | .backoffReset _ | .ts1Detected _ _ | .blockLock _ _ _
  | .alignComplete _ _ | .paramReceived _ _ | .paramAckReceived _ _ | .speedCountdownEnd _
  | .eqReqReceived _ _ | .eqDoneReceived _ _ | .readyReceived _ _ _ | .trainingTimeout _ | .retrain _ _
  | .eyeMapComplete _ _ _ | .dfeAdapt _ _ _ _ _ | .calBlockSend _ | .calBlockReceived _ _ | .laneSleep _
  | .laneWake _ | .sleepKeepalive _ | .hostWrite _ _ _ | .halfReadLatch _ | .eventFlagClear _ _
  | .attnmaskWrite _ _ | .doorbellRing _ | .hostltrWrite _ _ | .rearmPulseEnd | .avocetTrigger _
  | .avocetHalfCompletion _ | .avocetFullCompletion _ | .avocetBusError _ _ | .listenAgeDiscard _
  | .lanepoolAgeDiscard _ _ | .discover _ _ | .read _ _ | .stage _ _ | .commit _ _ | .abort _ _
  | .counterSnapshot _ _ | .eventSubscribe _ _ | .imageTransfer _ _ | .imageTransferDone _
  | .transferIdleTimeout | .slotSwitch _ _ | .rollbackFloorRaise _ _ | .floorRaiseDone
  | .reservedOpcode _ _ _ | .powerLevelChange | .efftolUpdate | .s3Entry | .s3Exit _ | .bitternFrame _
  | .bitternLinkChange _ | .wakeN | .s4Exit | .scrubRead _ _ | .freezeN _ _ | .readoutStart _
  | .readoutEnd | .slotSwitchCheckDone _ | .portLowPowerEntry _ | .portLowPowerExit _ | .readoutNibble
  | .dunlinSecondsWrap _ | .vinRestart _ => false

/-- The parts that a command may change. A command that asserts the internal reset (02 R29) may change every
part. -/
def writes : Instr → List Part
  | .powerOn _ _ _ | .railBrownOut _ | .resetN _ | .vinUndervoltage _ | .xinLoss | .thermalShutdown _ |
    .slotSwitchReset | .s4Entry _ => everyPart
  | .railsInRegulation | .srefclkRecovery | .bankBrownOutRecovery _ _ | .vinRestart _ =>
    [.supply]
  | .resetRelease _ => [.now, .supply, .straps, .ladder, .counters, .power, .faults, .freeze]
  | .ladderReading _ => [.ladder, .ports, .mdio, .links, .lanes, .counters, .freeze]
  | .corePllLock => [.boot, .scrubs]
  | .processImageClearDone =>
    [.supply, .boot, .tables, .mem, .upsets, .dunlin, .ports, .mdio, .links, .lanes, .mgmtKey, .counters, .faults]
  | .otpReadDone _ _ _ =>
    [.supply, .boot, .otp, .tables, .dunlin, .ports, .mdio, .links, .lanes, .mgmtKey, .counters, .faults]
  | .jedecIdReadDone _ _ _ _ =>
    [.supply, .boot, .tables, .dunlin, .ports, .mdio, .links, .lanes, .mgmtKey, .counters, .faults]
  | .slotCheckDone _ =>
    [.supply, .boot, .tables, .dunlin, .heronCopies, .streams, .meters, .ports, .mdio, .links, .vcs, .pairs,
     .lanes, .mgmtKey, .counters, .faults]
  | .configDone => [.boot, .mgmtKey, .counters, .faults]
  | .localTimeout => [.boot]
  | .heronStart =>
    [.supply, .boot, .otp, .mem, .upsets, .status, .regions, .dunlin, .heronClock, .heronCopies, .streams,
     .meters, .coarse, .ports, .queues, .quiet, .chans, .avocet, .counters, .faults]
  | .srefclkFault => [.supply, .regions, .ports, .queues, .rxCells, .links, .lanes, .counters, .faults]
  | .bankBrownOut _ _ | .overtemperature _ =>
    [.supply, .counters, .power, .faults]
  | .dcqFault _ => [.regions, .ports, .queues, .rxCells, .links, .lanes, .counters, .faults]
  | .cycleBoundary | .heronVote _ =>
    [.tables, .staged, .commit, .mem, .upsets, .hostWords, .status, .regions, .dunlin, .heronClock, .heronCopies,
     .streams, .meters, .ports, .mdio, .queues, .rxCells, .listeners, .links, .vcs, .pairs, .lanes, .quiet,
     .chans, .avocet, .mgmtRx, .counters, .faults]
  | .gateEntry _ => [.heronCopies]
  | .heronEvent => [.status, .regions, .dunlin, .heronCopies, .meters, .ports, .quiet, .chans, .counters, .faults]
  | .syncReceived _ | .syncLossTimeout _ | .announceReceived _ =>
    [.dunlin, .heronClock, .counters, .faults]
  | .alignmentComplete | .ppsOutPulseEnd =>
    [.dunlin]
  | .pdelayReqSend _ | .pdelayReceived _ _ _ | .serdesLatencyRemeasure _ _ _ | .pauseExpiry _ _ | .pfcSend _ _ |
    .pfcRefresh _ _ | .verifyMpacketReceived _ _ | .linkUpHoldEnd _ | .portLowPowerEntry _ | .portLowPowerExit _ =>
    [.ports]
  | .signalingReceived _ | .macControlIgnored _ _ | .controlBlockDiscard _ _ =>
    [.counters]
  | .ppsOutPulse | .dunlinSecondsWrap _ =>
    [.dunlin, .counters]
  | .timeInputEdge _ _ _ => [.inputs, .avocet, .counters, .power]
  | .timeBlockSend _ | .auditSend _ | .detectBeacon _ | .backoffReset _ | .alignComplete _ _ |
    .speedCountdownEnd _ | .laneSleep _ | .laneWake _ =>
    [.links]
  | .echoReceived _ _ _ | .echoMissing _ =>
    [.links, .counters]
  | .wheelSlot => [.streams, .released, .queues, .rxCells, .counters]
  | .coarseSlot => [.streams, .meters, .coarse]
  | .deadlineExpiry _ => [.streams, .queues, .rxCells, .counters]
  | .transmitSelection _ => [.upsets, .streams, .ports, .queues, .rxCells, .listeners, .vcs, .counters, .faults]
  | .transmitComplete _ => [.ports, .rxCells, .switch, .counters]
  | .frameReceive _ _ _ | .mpacketReceived _ _ =>
    [.meters, .ports, .queues, .rxCells, .highWater, .listeners, .vcs, .pairs, .mgmtRx, .counters]
  | .recoveryResetTimeout _ => [.listeners]
  | .pfcReceived _ _ | .verifyTimer _ | .portUp _ =>
    [.ports, .counters]
  | .portDown _ _ | .sgmiiInbandWord _ _ _ _ =>
    [.ports, .queues, .rxCells, .counters]
  | .phyPoll _ _ => [.ports, .mdio, .queues, .rxCells, .counters]
  | .phyRestart _ => [.ports, .mdio]
  | .ctUnderrun _ => [.streams, .ports, .queues, .counters]
  | .tunnelFcsError _ | .tunnelOverlength _ =>
    [.streams, .ports, .queues, .vcs, .counters]
  | .packetReceived _ _ _ _ _ => [.regions, .streams, .ports, .queues, .links, .vcs, .pairs, .lanes, .counters, .faults]
  | .pairResetTimeout _ _ => [.pairs, .counters]
  | .ackTimer _ | .creditReturn _ _ =>
    [.links, .vcs]
  | .ackReceived _ _ _ | .auditReceived _ _ =>
    [.regions, .links, .vcs, .lanes, .counters, .faults]
  | .nakReceived _ _ | .replayTimeout _ | .linkDown _ | .packetSend _ | .blockLock _ _ _ | .paramReceived _ _ |
    .paramAckReceived _ _ | .eyeMapComplete _ _ _ =>
    [.regions, .streams, .links, .vcs, .lanes, .counters, .faults]
  | .creditWaitDeadline _ _ => [.vcs, .counters]
  | .ts1Detected _ _ | .eqDoneReceived _ _ | .sleepKeepalive _ =>
    [.links, .lanes]
  | .eqReqReceived _ _ | .dfeAdapt _ _ _ _ _ | .calBlockSend _ =>
    [.lanes]
  | .readyReceived _ _ _ | .trainingTimeout _ =>
    [.regions, .streams, .links, .vcs, .pairs, .lanes, .counters, .faults]
  | .retrain _ _ => [.regions, .links, .lanes, .counters, .faults]
  | .calBlockReceived _ _ => [.lanes, .counters]
  | .hostWrite _ _ _ =>
    [.mem, .upsets, .halfLatch, .hostWords, .doorbell, .ignWr, .rearm, .chans, .counters, .power, .faults]
  | .halfReadLatch _ => [.mem, .upsets, .halfLatch, .hostWords, .counters, .faults]
  | .eventFlagClear _ _ => [.halfLatch, .rearm, .counters, .power]
  | .attnmaskWrite _ _ => [.upsets, .halfLatch, .hostWords, .rearm, .counters, .power, .faults]
  | .doorbellRing _ => [.halfLatch, .doorbell, .chans, .counters, .power]
  | .hostltrWrite _ _ => [.upsets, .halfLatch, .hostWords, .counters, .power, .faults]
  | .rearmPulseEnd => [.rearm]
  | .avocetTrigger _ => [.doorbell, .chans, .counters]
  | .avocetHalfCompletion _ =>
    [.mem, .upsets, .hwWrote, .hostWords, .streams, .rxCells, .vcs, .pairs, .chans, .counters, .faults]
  | .avocetFullCompletion _ =>
    [.mem, .upsets, .hwWrote, .hostWords, .regions, .inputs, .streams, .rxCells, .listeners, .vcs, .pairs, .chans,
     .counters, .faults]
  | .avocetBusError _ _ =>
    [.mem, .upsets, .hostWords, .inputs, .streams, .rxCells, .listeners, .vcs, .chans, .avocet, .counters, .faults]
  | .listenAgeDiscard _ => [.rxCells, .listeners, .counters]
  | .lanepoolAgeDiscard _ _ => [.streams, .vcs, .counters]
  | .discover _ _ | .read _ _ | .reservedOpcode _ _ _ =>
    [.mgmtRx, .counters]
  | .stage _ _ => [.staged, .mgmtRx, .counters]
  | .commit _ _ => [.commit, .heronCopies, .mgmtRx, .counters]
  | .abort _ _ => [.staged, .commit, .heronCopies, .mgmtRx, .counters]
  | .counterSnapshot _ _ => [.mgmtRx, .snaps, .counters]
  | .eventSubscribe _ _ => [.mgmtRx, .subs, .counters]
  | .imageTransfer _ _ => [.mgmtRx, .xfer, .counters]
  | .imageTransferDone _ => [.boot, .xfer, .counters]
  | .transferIdleTimeout => [.xfer]
  | .slotSwitch _ _ => [.mgmtRx, .switch, .counters]
  | .rollbackFloorRaise _ _ => [.mgmtRx, .raise, .counters]
  | .floorRaiseDone => [.otp, .raise, .counters]
  | .powerLevelChange => [.status, .ports, .links, .counters, .power]
  | .efftolUpdate => [.status, .power]
  | .s3Entry => [.status, .links, .counters, .power]
  | .s3Exit _ =>
    [.tables, .staged, .commit, .mem, .upsets, .hostWords, .status, .regions, .dunlin, .heronClock, .heronCopies,
     .streams, .meters, .ports, .mdio, .queues, .rxCells, .listeners, .links, .vcs, .pairs, .lanes, .quiet,
     .chans, .avocet, .mgmtRx, .counters, .power, .faults]
  | .bitternFrame _ | .bitternLinkChange _ | .wakeN | .s4Exit =>
    [.power]
  | .scrubRead _ _ =>
    [.tables, .lost, .mem, .upsets, .hostWords, .regions, .dunlin, .heronCopies, .streams, .meters, .ports, .mdio,
     .queues, .rxCells, .listeners, .links, .vcs, .pairs, .lanes, .quiet, .chans, .mgmtRx, .counters, .faults,
     .scrubs]
  | .freezeN _ _ => [.counters, .freeze]
  | .readoutStart _ | .readoutEnd | .readoutNibble =>
    [.readout]
  | .slotSwitchCheckDone _ => [.boot, .switch, .counters]

/-! ### Where in the image a command stores -/

/-- The words of the image that the write group of channel `c` stores to where it lands (10 R236; 11 R257, R258). -/
def landsIn (s : State) (c : Nat) : List Nat :=
  let x := chan s c
  match runningRec s c with
  | some r =>
    if r.dstSpace = 0 ∧ groupDue s x = true then
      (wordsOf (r.dst % 2 ^ 18 + x.landed) (slice x.bytes x.landed (x.wrote - x.landed)).length).map (hardwareTarget s)
    else []
  | none => []

/-- Whether a command may store to a word of the image: a host write to the word its address reaches (10 R236), a
read, a stop of Avocet and the scrubber to an uncorrectable word, which they rewrite (15 R329; 11 R266), Avocet to
the words of the write group that lands (11 R258, R261), a boundary to the words a stop left in error (11 R267), Heron's
start to the inbound regions (03 R46), the clear and a reset to all. -/
def storesTo (c : Instr) (s : State) (w : Nat) : Bool :=
  match c with
  | .hostWrite pa _ x => decide (accessWord s pa < 0xFFC0) && hostWriteTarget s x.lag.val (accessWord s pa) == some w
  | .halfReadLatch pa =>
    decide (accessWord s pa < 0xFFC0) && hostReadTarget s (accessWord s pa) == w &&
      uncorrectable (flips s .processImage 0 w)
  | .avocetHalfCompletion c | .avocetFullCompletion c => (landsIn s c.val).contains w
  | .avocetBusError _ _ => uncorrectable (flips s .processImage 0 w)
  | .scrubRead m _ => m == .processImage && (scrub s (memCode m)).next == w
  | .cycleBoundary | .heronVote _ | .s3Exit _ => s.avocet.faultWords.contains w
  | .heronStart => s.tables.pimap.any (fun x => x.2.kind == 0 &&
      (areas x.2).any (fun a => decide (a.1 ≤ w) && decide (w < a.1 + a.2)))
  | .processImageClearDone | .powerOn _ _ _ | .railBrownOut _ | .resetN _ | .vinUndervoltage _ | .xinLoss | .thermalShutdown _
  | .slotSwitchReset | .s4Entry _ => true
  | .railsInRegulation | .resetRelease _ | .ladderReading _ | .corePllLock
  | .otpReadDone _ _ _ | .jedecIdReadDone _ _ _ _ | .slotCheckDone _ | .configDone | .localTimeout
  | .srefclkFault | .srefclkRecovery | .bankBrownOut _ _ | .bankBrownOutRecovery _ _ | .overtemperature _
  | .dcqFault _ | .gateEntry _ | .heronEvent | .syncReceived _ | .syncLossTimeout _
  | .alignmentComplete | .announceReceived _ | .pdelayReqSend _ | .pdelayReceived _ _ _
  | .signalingReceived _ | .ppsOutPulse | .ppsOutPulseEnd | .timeInputEdge _ _ _
  | .serdesLatencyRemeasure _ _ _ | .timeBlockSend _ | .echoReceived _ _ _ | .echoMissing _ | .wheelSlot
  | .coarseSlot | .deadlineExpiry _ | .transmitSelection _ | .transmitComplete _ | .frameReceive _ _ _
  | .recoveryResetTimeout _ | .pfcReceived _ _ | .macControlIgnored _ _ | .pauseExpiry _ _ | .pfcSend _ _
  | .pfcRefresh _ _ | .verifyTimer _ | .verifyMpacketReceived _ _ | .mpacketReceived _ _ | .portDown _ _
  | .portUp _ | .linkUpHoldEnd _ | .sgmiiInbandWord _ _ _ _ | .phyPoll _ _ | .phyRestart _ | .ctUnderrun _
  | .tunnelFcsError _ | .tunnelOverlength _ | .packetReceived _ _ _ _ _ | .pairResetTimeout _ _
  | .ackTimer _ | .ackReceived _ _ _ | .nakReceived _ _ | .replayTimeout _ | .linkDown _ | .packetSend _
  | .creditWaitDeadline _ _ | .creditReturn _ _ | .auditSend _ | .auditReceived _ _
  | .controlBlockDiscard _ _ | .detectBeacon _ | .backoffReset _ | .ts1Detected _ _ | .blockLock _ _ _
  | .alignComplete _ _ | .paramReceived _ _ | .paramAckReceived _ _ | .speedCountdownEnd _
  | .eqReqReceived _ _ | .eqDoneReceived _ _ | .readyReceived _ _ _ | .trainingTimeout _ | .retrain _ _
  | .eyeMapComplete _ _ _ | .dfeAdapt _ _ _ _ _ | .calBlockSend _ | .calBlockReceived _ _ | .laneSleep _
  | .laneWake _ | .sleepKeepalive _ | .eventFlagClear _ _ | .attnmaskWrite _ _ | .doorbellRing _
  | .hostltrWrite _ _ | .rearmPulseEnd | .avocetTrigger _ | .listenAgeDiscard _ | .lanepoolAgeDiscard _ _
  | .discover _ _ | .read _ _ | .stage _ _ | .commit _ _ | .abort _ _ | .counterSnapshot _ _
  | .eventSubscribe _ _ | .imageTransfer _ _ | .imageTransferDone _ | .transferIdleTimeout
  | .slotSwitch _ _ | .rollbackFloorRaise _ _ | .floorRaiseDone | .reservedOpcode _ _ _
  | .powerLevelChange | .efftolUpdate | .s3Entry | .bitternFrame _ | .bitternLinkChange _ | .wakeN
  | .s4Exit | .freezeN _ _ | .readoutStart _ | .readoutEnd | .slotSwitchCheckDone _ | .portLowPowerEntry _
  | .portLowPowerExit _ | .readoutNibble | .dunlinSecondsWrap _ | .vinRestart _ => false

/-- The commands that a frozen device still takes (17 R348, R352): the supplies and resets, host reads of the
frozen image (10 R249), the readout, and Bittern's, whose domain a freeze does not stop. -/
def whileFrozen : Instr → Bool
  | .powerOn _ _ _ | .railBrownOut _ | .railsInRegulation | .resetN _ | .vinUndervoltage _
  | .resetRelease _ | .xinLoss | .thermalShutdown _ | .halfReadLatch _ | .bitternFrame _
  | .bitternLinkChange _ | .wakeN | .s4Exit | .readoutStart _ | .readoutEnd | .readoutNibble
  | .vinRestart _ => true
  | .ladderReading _ | .corePllLock | .processImageClearDone | .otpReadDone _ _ _
  | .jedecIdReadDone _ _ _ _ | .slotCheckDone _ | .configDone | .localTimeout | .heronStart
  | .srefclkFault | .srefclkRecovery | .bankBrownOut _ _ | .bankBrownOutRecovery _ _ | .overtemperature _
  | .dcqFault _ | .cycleBoundary | .gateEntry _ | .heronEvent | .heronVote _ | .syncReceived _
  | .syncLossTimeout _ | .alignmentComplete | .announceReceived _ | .pdelayReqSend _
  | .pdelayReceived _ _ _ | .signalingReceived _ | .ppsOutPulse | .ppsOutPulseEnd | .timeInputEdge _ _ _
  | .serdesLatencyRemeasure _ _ _ | .timeBlockSend _ | .echoReceived _ _ _ | .echoMissing _ | .wheelSlot
  | .coarseSlot | .deadlineExpiry _ | .transmitSelection _ | .transmitComplete _ | .frameReceive _ _ _
  | .recoveryResetTimeout _ | .pfcReceived _ _ | .macControlIgnored _ _ | .pauseExpiry _ _ | .pfcSend _ _
  | .pfcRefresh _ _ | .verifyTimer _ | .verifyMpacketReceived _ _ | .mpacketReceived _ _ | .portDown _ _
  | .portUp _ | .linkUpHoldEnd _ | .sgmiiInbandWord _ _ _ _ | .phyPoll _ _ | .phyRestart _ | .ctUnderrun _
  | .tunnelFcsError _ | .tunnelOverlength _ | .packetReceived _ _ _ _ _ | .pairResetTimeout _ _
  | .ackTimer _ | .ackReceived _ _ _ | .nakReceived _ _ | .replayTimeout _ | .linkDown _ | .packetSend _
  | .creditWaitDeadline _ _ | .creditReturn _ _ | .auditSend _ | .auditReceived _ _
  | .controlBlockDiscard _ _ | .detectBeacon _ | .backoffReset _ | .ts1Detected _ _ | .blockLock _ _ _
  | .alignComplete _ _ | .paramReceived _ _ | .paramAckReceived _ _ | .speedCountdownEnd _
  | .eqReqReceived _ _ | .eqDoneReceived _ _ | .readyReceived _ _ _ | .trainingTimeout _ | .retrain _ _
  | .eyeMapComplete _ _ _ | .dfeAdapt _ _ _ _ _ | .calBlockSend _ | .calBlockReceived _ _ | .laneSleep _
  | .laneWake _ | .sleepKeepalive _ | .hostWrite _ _ _ | .eventFlagClear _ _ | .attnmaskWrite _ _
  | .doorbellRing _ | .hostltrWrite _ _ | .rearmPulseEnd | .avocetTrigger _ | .avocetHalfCompletion _
  | .avocetFullCompletion _ | .avocetBusError _ _ | .listenAgeDiscard _ | .lanepoolAgeDiscard _ _
  | .discover _ _ | .read _ _ | .stage _ _ | .commit _ _ | .abort _ _ | .counterSnapshot _ _
  | .eventSubscribe _ _ | .imageTransfer _ _ | .imageTransferDone _ | .transferIdleTimeout
  | .slotSwitch _ _ | .slotSwitchReset | .rollbackFloorRaise _ _ | .floorRaiseDone | .reservedOpcode _ _ _
  | .powerLevelChange | .efftolUpdate | .s3Entry | .s3Exit _ | .s4Entry _ | .scrubRead _ _ | .freezeN _ _
  | .slotSwitchCheckDone _ | .portLowPowerEntry _ | .portLowPowerExit _ | .dunlinSecondsWrap _ => false

/-! ### What a command did -/

/-- A counter has moved by `n`, wrapping at its width (13 R301, R304). -/
def CountedBy (n cls inst num : Nat) (s t : State) : Prop :=
  readCtr t cls inst num = (readCtr s cls inst num + n) % ctrMod cls num

/-- A request that Hidiquel serves has passed every check of R288. -/
def Proven (p : Port) (op : Nat) (r : HidFrame) (s : State) : Prop :=
  hidServes s = true ∧ requestFails (takeReceived p op r s) p op r = none

/-- A response to `a` with an opcode, a status and a payload has been given: as `respond` gives it (13 R285, R287,
R289), with the device's counter and keys, and on the class queues, of the state before. -/
def Responded (a : Asker) (op status : Nat) (payload : List Byte) (s t : State) : Prop :=
  ∃ u, t = publish s (respond a op status payload u) ∧ u.classQ = s.classQ ∧
    responseBytes u a op status payload = responseBytes s a op status payload

/-- A fault has been detected: one entry more waits its 4 ck, as R334 lays it out over state `u`, in its place among
those that wait. -/
def Logged (u : State) (code subject detail : Nat) (s t : State) : Prop :=
  t.faults.waiting = putFault
    { due := s.now + 4, code := code, subject := subject, body := faultBody u code subject detail } s.faults.waiting

/-- The internal reset has been asserted (02 R29, R43; 03 R44): every part is as State.reset has it, but the queue
of commands, the supplies, the OTP, the stand-down words and the counters of Bittern's domain. -/
def WasReset (s t : State) : Prop :=
  SameBut [.pending, .supply, .boot, .otp, .counters] State.reset t ∧ t.station = Station.init ∧
    t.ports = [] ∧ t.classQ = [] ∧ t.hid = Hidiquel.init ∧ t.supply.inReset = true ∧ t.pending = s.pending ∧
    t.boot = { Boot.init with
      standKnown := s.boot.standKnown, standA := s.boot.standA, standB := s.boot.standB } ∧
    ∀ id, mGetD t.counters id 0 = if keptCounter id then mGetD s.counters id 0 else 0

end Sys2Proof.Machine
end

