-- ==== Sys2Proof/Certificates/Slice0/Obligations.lean ====
section
/-!
DEFINITION. The statements about the machine.
-/
open Sys2Proof Sys2Proof.Machine

/-! ### The block -/

/-- A step takes the command at the front of the queue and runs it on the state with the queue's rest. -/
def Obligations.StepRunsFrontCommand : Prop :=
  ∀ (s : State) (c : Instr) (rest : List Instr), s.pending = c :: rest →
    step s = exec c { s with pending := rest }

/-- On an empty queue one ck passes (the model's choice, log entry 2): a device that runs counts one ck more, in
S3 one XK period of 32, and every Dunlin counter advances by its increment; in reset, frozen and in S4 nothing
changes. -/
def Obligations.IdleStepPassesOneCk : Prop :=
  ∀ s : State, s.pending = [] →
    (running s = false → step s = .next s) ∧
    (running s = true → ∃ t, step s = .next t ∧ t.pending = [] ∧
      (∀ n, n = (if s.power.level = 3 then 32 else 1) →
        t.now = s.now + n ∧ t.dunlin.localCount = s.dunlin.localCount + nominalInc * n ∧
        t.dunlin.dom0.count = s.dunlin.dom0.count + s.dunlin.dom0.inc * n ∧
        t.dunlin.dom1.count = s.dunlin.dom1.count + s.dunlin.dom1.inc * n))

/-- The whole queue is the commands': no command touches the commands that wait behind it. -/
def Obligations.CommandsLeaveTheQueue : Prop :=
  ∀ (c : Instr) (s t : State), exec c s = .next t → t.pending = s.pending

/-- A step keeps the process image in its canonical form: addresses strictly rising, no entry equal to what an
unlisted byte reads as. -/
def Obligations.StepKeepsImageForm : Prop :=
  ∀ s t : State, memWf s.mem = true → step s = .next t → memWf t.mem = true

/-- The image at reset has its canonical form. -/
def Obligations.ResetImageFormed : Prop := memWf State.reset.mem = true

/-- Until the internal reset, a frozen device takes no command but those of `whileFrozen`; a host read changes
only the half-read latch, and the readout only its own state (17 R348, R349, R352). -/
def Obligations.FrozenDeviceHolds : Prop :=
  ∀ (c : Instr) (s : State), s.freeze.latched = true →
    (whileFrozen c = false → exec c s = .next s) ∧
    (∀ pa t, c = .halfReadLatch pa → exec c s = .next t → SameBut [.halfLatch] s t) ∧
    (∀ m t, c = .readoutStart m ∨ c = .readoutNibble ∨ c = .readoutEnd → exec c s = .next t →
      SameBut [.readout] s t)

/-- With MGMT_LOCK at 1, no request stages, commits, transfers an image or raises the floor: STAGE, COMMIT,
IMAGE TRANSFER and ROLLBACK-FLOOR RAISE change nothing but the management path and the counters (13 R289). -/
def Obligations.ManagementLockHolds : Prop :=
  ∀ (c : Instr) (p : Port) (r : HidFrame) (s t : State), s.straps.mgmtLock = true →
    c = .stage p r ∨ c = .commit p r ∨ c = .imageTransfer p r ∨ c = .rollbackFloorRaise p r →
    exec c s = .next t → SameBut [.mgmtRx, .counters] s t

/-- A request that fails a check of R288 changes nothing but the management path and that check's counter. -/
def Obligations.UnprovenRequestsChangeNothing : Prop :=
  ∀ (c : Instr) (p : Port) (op : Nat) (r : HidFrame) (s : State) (n : Nat),
    (c, op) ∈ [(.discover p r, 1), (.read p r, 2), (.stage p r, 3), (.commit p r, 4), (.abort p r, 5),
      (.counterSnapshot p r, 6), (.eventSubscribe p r, 7), (.imageTransfer p r, 8), (.slotSwitch p r, 9),
      (.rollbackFloorRaise p r, 10)] ∨ (∃ o : Byte, c = .reservedOpcode p o r ∧ op = o.toNat) →
    hidServes s = true → requestFails (takeReceived p op r s) p op r = some n →
    ∃ t, exec c s = .next t ∧ SameBut [.mgmtRx, .counters] s t ∧ CountedBy 1 0x20 0 n s t ∧
      ∀ i, i ≠ ctrId 0x20 0 n → frameCounter i = false → mGetD t.counters i 0 = mGetD s.counters i 0

/-- OTP fuses only blow: no command but the reading of the fuses clears a bit of the floor or of the revoked keys,
or changes any other field (03 R47, 13 R298). -/
def Obligations.FusesOnlyBlow : Prop :=
  ∀ (c : Instr) (s t : State), exec c s = .next t → (∀ x y z, c ≠ .otpReadDone x y z) →
    s.otp.floor &&& ~~~t.otp.floor = 0 ∧ s.otp.revoked &&& ~~~t.otp.revoked = 0 ∧
      { t.otp with floor := s.otp.floor, revoked := s.otp.revoked } = s.otp

/-- The EVENTS bits 3 to 8 follow every change that calls for them, in every step: of a command or of a ck that passes
(10 R244). -/
def Obligations.EventFlagsFollowChanges : Prop :=
  ∀ s t : State, step s = .next t →
    t.supply.inReset = false → t.power.level ≠ 4 → t.boot.cleared = true →
    (staleBits s ≠ staleBits t → t.station.events.getLsbD 3 = true) ∧
    (s.faults.made ≠ t.faults.made → t.station.events.getLsbD 4 = true) ∧
    (s.station.wdExp = false → t.station.wdExp = true → t.station.events.getLsbD 5 = true) ∧
    (timeLock s ≠ timeLock t ∨ s.dunlin.working ≠ t.dunlin.working → t.station.events.getLsbD 6 = true) ∧
    (∀ k < 32, linkCode (link s k) ≠ linkCode (link t k) → t.station.events.getLsbD 7 = true) ∧
    (∀ p < 4, (port s p).up ≠ (port t p).up ∨ (port s p).live ≠ (port t p).live →
      t.station.events.getLsbD 8 = true)

/-- FAULT_N and PATN_N follow the state: whatever step changes what holds them, the pad changes 2 ck later
(10 R246, 15 R326). -/
def Obligations.StatusPinsFollow : Prop :=
  ∀ s t : State, step s = .next t →
    (faultLow s ≠ faultLow t → .level (t.now + 2) .faultN (if faultLow t then 0 else 1) ∈ t.out) ∧
    (patnOn s ≠ patnOn t → .level (t.now + 2) .patnN (if patnOn t then 0 else 1) ∈ t.out)

/-- The cycle counter advances by exactly one at every cycle boundary, and nothing but a boundary, Heron's start,
the exit from S3 and the internal reset changes it: no loss of the working domain, hot switch, slewing or
step alignment does. A vote completes a boundary of its ck before it votes (the model's choice, log entry 2). -/
def Obligations.CyclesAdvanceByOne : Prop :=
  ∀ s : State,
    (ckRuns s = true → boundaryDue s = true →
      ∃ t, exec .cycleBoundary s = .next t ∧ t.heron.cycle = s.heron.cycle + 1) ∧
    (∀ l : List HeronUpset, ckRuns s = true → s.heron.started = true →
      ∃ t, exec (.heronVote l) s = .next t ∧
        t.heron.cycle = s.heron.cycle + if boundaryDue s then 1 else 0) ∧
    ∀ (c : Instr) (t : State), exec c s = .next t → c ≠ .cycleBoundary → c ≠ .heronStart →
      (∀ w, c ≠ .s3Exit w) → (∀ l, c ≠ .heronVote l) → assertsReset c = false → t.heron.cycle = s.heron.cycle

/-- Every byte of the process image outside the words that a command stores to, as the model computes them, reads
as before, whatever the command. -/
def Obligations.ImageFrame : Prop :=
  ∀ (c : Instr) (s t : State) (a : Nat), exec c s = .next t →
    storesTo c s (a / 4) = false → readByte t a = readByte s a

/-! ### Supplies and start-up -/

/-- The supplies rise: EXTPWR is latched until every supply has fallen below its power-on-reset threshold and the
converters start from VIN (02 R28; at or below 4.2 V they wait, log entry 40), PGOOD is released once the rails are in
regulation (R29), and stopped converters restart above 4.4 V (R41). -/
def Obligations.SuppliesComplete : Prop :=
  ∀ s : State,
    (∀ (vin vdd : Nat) (x afresh : Bool) (u : Supply), 4200 < vin ∨ 1620 < vdd ∧ vin < 4200 →
      s.supply.seqOn = false ∧ u = s.supply ∨ s.supply.seqOn = true ∧ afresh = true ∧ u = Supply.init →
      ∃ t, exec (.powerOn vin vdd ⟨x, afresh⟩) s = .next t ∧ t.supply = { u with
        seqOn := true, extpwr := x, cause := .empty
        converters := if x then .off else if 4200 < vin then .running else .stopped
        vinLow := !x && !decide (4200 < vin) }) ∧
    (∀ (vin vdd : Nat) (x : Bool), s.supply.seqOn = true → exec (.powerOn vin vdd ⟨x, false⟩) s = .next s) ∧
    (s.supply.seqOn = true → s.supply.pgood = false →
      s.supply.extpwr = true ∨ s.supply.converters = .running →
      ∃ t, exec .railsInRegulation s = .next t ∧ t.supply = { s.supply with pgood := true } ∧
        .level s.now .pgood 1 ∈ t.out) ∧
    (∀ mv : Nat, 4400 < mv → s.supply.vinLow = true → s.supply.converters = .stopped →
      ∃ t, exec (.vinRestart mv) s = .next t ∧ t.supply = { s.supply with
        converters := if s.supply.thermalOff then .stopped else .running, vinLow := false })

/-- Every cause of the internal reset resets the device (02 R29, R41, R43; 13 R297; 15 R330, R332), and Bittern's
domain keeps the cause. -/
def Obligations.ResetCausesComplete : Prop :=
  ∀ s : State,
    (∀ r : Rail, s.supply.pgood = true → railWatched s r = true →
      ∃ t, exec (.railBrownOut r) s = .next t ∧ WasReset s t ∧ t.supply.pgood = false ∧
        t.supply.cause = .railBrownOut) ∧
    (∀ n : Nat, 2000 ≤ n → ∃ t, exec (.resetN n) s = .next t ∧ WasReset s t ∧ t.supply.pgood = s.supply.pgood) ∧
    (∀ n : Nat, n < 500 → exec (.resetN n) s = .next s) ∧
    (∀ n : Nat, 500 ≤ n → n < 2000 → ∃ t, exec (.resetN n) s = .next t ∧ (WasReset s t ∨ SameBut [] s t)) ∧
    (∀ mv : Nat, mv < 4200 → s.supply.seqOn = true → s.supply.extpwr = false → s.supply.vinLow = false →
      ∃ t, exec (.vinUndervoltage mv) s = .next t ∧ t.supply.converters = .stopped ∧ t.supply.vinLow = true ∧
        (s.supply.converters = .running → WasReset s t ∧ t.supply.pgood = false ∧
          (s.supply.pgood = true → t.supply.cause = .railBrownOut)) ∧
        (s.supply.converters ≠ .running → SameBut [.supply] s t)) ∧
    (s.supply.inReset = false → s.power.bittern = none →
      ∃ t, exec .xinLoss s = .next t ∧ WasReset s t ∧ t.supply.xinOk = false ∧ t.supply.cause = .xinLost) ∧
    (∀ c : Int, s.supply.seqOn = true → s.supply.thermalOff = false → 140 ≤ c →
      ∃ t, exec (.thermalShutdown c) s = .next t ∧ WasReset s t ∧ t.supply.thermalOff = true ∧
        t.supply.cause = .thermal ∧ t.supply.converters = if s.supply.extpwr then .off else .stopped) ∧
    (∀ c : Int, s.supply.seqOn = true → s.supply.thermalOff = true → c < 115 →
      ∃ t, exec (.thermalShutdown c) s = .next t ∧ t.supply = { s.supply with
        thermalOff := false
        converters := if s.supply.extpwr then .off else if s.supply.vinLow then .stopped else .running }) ∧
    (hidServes s = true → switchResetDue s = true →
      ∃ t, exec .slotSwitchReset s = .next t ∧ WasReset s t)

/-- The release of the internal reset samples the straps, the bank levels and FREEZE_N, starts the ladder and the ck
count, counts the reset and draws a session value (02 R25, R32, R34; 03 R44; 13 R287). -/
def Obligations.ReleaseCompletes : Prop :=
  ∀ (s : State) (x : ReleaseSample), s.supply.pgood = true → s.supply.inReset = true →
    s.supply.thermalOff = false → s.power.bittern = none →
    ∃ t, exec (.resetRelease x) s = .next t ∧ t.now = 0 ∧ t.straps = x.straps ∧
      t.ladder = { s.ladder with active := true } ∧ t.freeze = { s.freeze with held := x.freezeLow } ∧
      t.supply = { s.supply with
        inReset := false, xinOk := true
        bankP := { hi := decide (2500 ≤ x.bankPMv), brown := false, unpowered := decide (x.bankPMv < 1200) }
        bankQ := { hi := decide (2500 ≤ x.bankQMv), brown := false, unpowered := decide (x.bankQMv < 1200) }
        overtemp := decide (125 ≤ x.celsius) || s.supply.overtemp } ∧
      CountedBy 1 0x20 0 11 s t ∧ (s.boot.cleared = false → t.hid.session = Config.sessionValue s.free)

/-- SREFCLK faults take every port down and hold until recovery (02 R31; 15 R333), the banks' brown-outs and
overtemperature are entered and left at their limits (15 R330), and a dual-clock queue fault takes its port down or
retrains its link (01 R17). -/
def Obligations.ClockBankAndHeatFaultsComplete : Prop :=
  ∀ s : State,
    (running s = true → s.supply.srefFault = false →
      ∃ t, exec .srefclkFault s = .next t ∧ t.supply.srefFault = true ∧
        (∀ p < 4, (port t p).up = false) ∧ ∀ k < 32, (link t k).st ≠ .active) ∧
    (running s = true → s.supply.srefFault = true →
      ∃ t, exec .srefclkRecovery s = .next t ∧ t.supply = { s.supply with srefFault := false }) ∧
    (∀ (b : Bank) (mv : Nat), running s = true → (bankOf s b).brown = false →
      mv < (if (bankOf s b).hi then 2950 else 1600) →
      ∃ t, exec (.bankBrownOut b mv) s = .next t ∧ (bankOf t b) = { bankOf s b with
          brown := true, unpowered := (bankOf s b).unpowered || decide (mv < 1200) } ∧
        CountedBy 1 0x20 0 43 s t ∧ Logged s (match b with | .p => 0x80 | .q => 0x81) 0 0 s t) ∧
    (∀ (b : Bank) (mv : Nat), running s = true → (bankOf s b).brown = true →
      (if (bankOf s b).hi then 3050 else 1650) < mv →
      ∃ t, exec (.bankBrownOutRecovery b mv) s = .next t ∧
        bankOf t b = { bankOf s b with brown := false, unpowered := false }) ∧
    (∀ c : Int, running s = true → (if s.supply.overtemp then c < 115 else 125 ≤ c) →
      ∃ t, exec (.overtemperature c) s = .next t ∧ t.supply = { s.supply with overtemp := !s.supply.overtemp } ∧
        (s.supply.overtemp = false → CountedBy 1 0x20 0 44 s t ∧ Logged s 0x83 0 0 s t)) ∧
    (∀ p : Port, ckRuns s = true → ∃ t, exec (.dcqFault (.port p)) s = .next t ∧ (port t p.val).up = false) ∧
    (∀ (n : Lane) (k i : Nat), ckRuns s = true → laneHome s n.val = some (k, i) → (link s k).st = .active →
      ∃ t, exec (.dcqFault (.lane n)) s = .next t ∧ (link t k).st = .sync ∧ (link t k).retrain = true ∧
        (link t k).lastCause = 3)

/-- The ladder's readings settle its pins (02 R34, R35), the core PLL starts CK (03 R45), the image is zero with valid
check bits once 65,536 words are cleared at one per ck (R45, R46), after which the JEDEC IDs are asked for (R45); and
the OTP takes the majority of its fuses, which only the device changes from then on, or is unreadable with its fault
(R47; what it then shows is the model's choice, log entry 41). -/
def Obligations.EarlyStartComplete : Prop :=
  ∀ s : State, running s = true →
    (∀ x : LadderSample, s.ladder.active = true → usCk (100 + 50 * s.ladder.taken) ≤ s.now →
      ∃ t, exec (.ladderReading x) s = .next t ∧ t.ladder.taken = s.ladder.taken + 1 ∧
        t.ladder.pins = (List.range 8).map (fun j =>
          readPin s.ladder.taken ((sampleList x).getD j 0) (ladderPin s j)) ∧
        (t.ladder.pins.all (fun p => p.settled) = true → t.ladder.done = true ∧ t.ladder.active = false)) ∧
    (s.boot.pllLocked = false →
      ∃ t, exec .corePllLock s = .next t ∧ t.boot = { s.boot with
          pllLocked := true, clearDue := s.now + 65536 } ∧
        ∀ m < 6, scrub t m = { next := 0, due := s.now + 16 }) ∧
    (s.boot.pllLocked = true → s.boot.cleared = false → s.boot.clearDue ≤ s.now →
      ∃ t, exec .processImageClearDone s = .next t ∧ (∀ a < 4 * 65536, readByte t a = 0) ∧
        (∀ w < 65536, flips t .processImage 0 w = []) ∧ t.boot.cleared = true ∧
        t.boot.phase = (if s.boot.otpBad then .bare else .early) ∧
        (s.supply.bankQ.unpowered = false → .flashCmd s.now 1 0x9F 0 0 ∈ t.out ∧ .flashCmd s.now 0 0x9F 0 0 ∈ t.out)) ∧
    (∀ a b c : FuseRead, s.boot.otpRead = false →
      ∃ t, exec (.otpReadDone a b c) s = .next t ∧ t.boot.otpRead = true ∧
        (otpReadable a b c = true → t.otp = s.fuses.getD (majOtp a.one b.one c.one) ∧ t.fuses = some t.otp ∧
          t.boot.otpBad = s.boot.otpBad) ∧
        (otpReadable a b c = false → t.otp = OtpBits.init ∧ t.fuses = s.fuses ∧ t.boot.otpBad = true ∧
          t.boot.resultA = 0xF ∧ t.boot.resultB = 0xF ∧ CountedBy 1 0x20 0 15 s t ∧
          t.boot.phase = if s.boot.cleared then .bare else s.boot.phase))

/-- The flash layout is taken with an absent slot B's code (03 R49), the stand-down words at their first reading (R50),
and a slot tried (R51), whose check lets its image run, its tables in force, or passes on (R51, R52, R56); at CONFIG's
end the station key is installed or counted (R56; 04 R89), LOCAL's timeout meets the start condition (R57), and Heron
starts with cycle 1 in SERVICE (R58, R62). -/
def Obligations.SlotsAndServiceComplete : Prop :=
  ∀ s : State, running s = true →
    (∀ (id1 id0 : BitVec 24) (a b : BitVec 32), s.boot.phase = .early → s.boot.otpRead = true →
      s.boot.otpBad = false → s.boot.jedecDone = false →
      ∃ t, exec (.jedecIdReadDone id1 id0 a b) s = .next t ∧ t.boot.jedecDone = true ∧
        t.boot.twoChip = chipThere id1 ∧ t.boot.standKnown = true ∧
        (s.boot.standKnown = false → t.boot.standA = a ∧ t.boot.standB = b) ∧
        (s.boot.standKnown = true → t.boot.standA = s.boot.standA ∧ t.boot.standB = s.boot.standB) ∧
        t.boot.slotBPresent = (chipThere id1 || decide (0x18 ≤ id0.toNat % 256) || !chipThere id0) ∧
        (t.boot.slotBPresent = false → t.boot.resultB = 1)) ∧
    (∀ (x : Slot) (r : SlotRead), s.boot.trying = some x →
      s.ladder.done = true ∨ earlyFailure (checkRegion s x r) = true →
      ∃ t, exec (.slotCheckDone r) s = .next t ∧
        (∀ i, (checkRegion s x r).image = some i → t.boot.phase = .config ∧ t.boot.runSlot = some x ∧
          t.boot.image = some i ∧ t.tables = i.tables ∧ (if x = .a then t.boot.resultA else t.boot.resultB) = 0) ∧
        ((checkRegion s x r).image = none →
          (if x = .a then t.boot.resultA else t.boot.resultB) = (checkRegion s x r).code)) ∧
    (∀ i : Image, s.boot.phase = .config → s.boot.image = some i →
      ∃ t, exec .configDone s = .next t ∧ t.boot = { s.boot with
        phase := .waitTime, enteredAt := s.now, configEnd := s.now, startCond := false } ∧
        (∀ k, stationKey s i = some k → t.hid.key = k) ∧
        (stationKey s i = none → t.hid.key = s.otp.mgmtKey ∧ CountedBy 1 0x20 0 18 s t)) ∧
    (s.boot.phase = .waitTime → s.boot.startCond = false → s.tables.time.policy = 1 →
      s.boot.configEnd + msCk s.tables.time.timeoutMs ≤ s.now →
      ∃ t, exec .localTimeout s = .next t ∧ t.boot = { s.boot with startCond := true }) ∧
    (s.boot.phase = .waitTime → s.boot.startCond = true ∨ timeLock s = true → gridHere s = true →
      ∃ t, exec .heronStart s = .next t ∧ t.heron.started = true ∧ t.heron.cycle = 1 ∧ t.boot.phase = .service ∧
        t.boot.enteredAt = s.now)

/-! ### Dunlin -/

/-- An accepted Sync sets its domain's offset, instant and grandmaster (05 R104); the loss of Sync ends LOCKED in
HOLDOVER, counted, and calls for the hot switch of the next ck where the other domain is LOCKED (R104, R105);
alignment's end clears ALIGNING (R107); an Announce is heard and the best of those that still count taken (R103; their
receipt timeout is log entry 9's); a counter wraps at the top of its range, counted (R101). -/
def Obligations.DomainsComplete : Prop :=
  ∀ s : State,
    (∀ (x : SyncInfo) (d : Dom), ckRuns s = true → domOf s x.number = some d → inMask s d x.port.val = true →
      (port s x.port.val).up = true → (dom s d).slavePort = some x.port →
      ∃ t, exec (.syncReceived x) s = .next t ∧ (dom t d).offset = syncOffset s d x ∧
        (dom t d).lastSync = some s.now ∧ (dom t d).gm = some x.gm) ∧
    (∀ d : Dom, ckRuns s = true → (dom s d).st = .locked →
      (∀ n, (dom s d).lastSync = some n → n + msCk s.tables.time.lossMs ≤ s.now) →
      ∃ t, exec (.syncLossTimeout d) s = .next t ∧ (dom t d).st = .holdover ∧ CountedBy 1 0x22 d.val 1 s t ∧
        (s.dunlin.working = d → (dom s (otherDom d)).st = .locked → t.dunlin.switchDue = some (s.now + 1))) ∧
    (ckRuns s = true → s.dunlin.h = 0 → s.dunlin.slewPpm ≠ 0 →
      ∃ t, exec .alignmentComplete s = .next t ∧ t.dunlin = { s.dunlin with slewPpm := 0 } ∧ aligning t = false) ∧
    (∀ (x : AnnounceInfo) (d : Dom), ckRuns s = true → domOf s x.number = some d → inMask s d x.port.val = true →
      (port s x.port.val).up = true → x.steps < 255 →
      ∃ t, exec (.announceReceived x) s = .next t ∧
        ∀ l, l = ((dom s d).heard.filter (fun y => y.1.port != x.port) ++ [(x, s.now + announceTimeout x)]).filter
            (fun y => domPort s d y.1.port && decide (s.now < y.2)) →
          (dom t d).heard = l ∧
          (∀ b, (l.map (·.1)).foldl betterMaster none = some b →
            (dom t d).slavePort = some b.port ∧ (dom t d).gm = some b.gm) ∧
          (l = [] → (dom t d).slavePort = none)) ∧
    (∀ c : Fin 3, running s = true → 2 ^ 48 * unitsPerSec ≤ counterValue s c →
      ∃ t, exec (.dunlinSecondsWrap c) s = .next t ∧ CountedBy 1 0x20 0 8 s t ∧
        counterValue t c = counterValue s c - 2 ^ 48 * unitsPerSec ∧
        ∀ d, d ≠ c → counterValue t d = counterValue s d)

/-- Pdelay requests leave, are answered in two steps, and their answers give the link delay (05 R103; the formula and
the crossing to MTX that a transmit stamp holds are log entries 8 and 5); Signaling is counted and ignored (R103); each
1 ms a latency moves toward its measurement by at most 10 ps (R109). -/
def Obligations.LinkDelayAndLatencyComplete : Prop :=
  ∀ (s : State) (p : Port), ckRuns s = true →
    (gptpPort s p.val = true →
      ((port s p.val).pdelayDue ≤ s.now →
        ∃ t, exec (.pdelayReqSend p) s = .next t ∧
          .control s.now p.val (.pdelayReq ((port s p.val).pdelaySeq + 1)) ∈ t.out ∧
          (port t p.val).pdelaySeq = (port s p.val).pdelaySeq + 1 ∧
          (port t p.val).pdelayDue = s.now + 800000000 ∧
          (port t p.val).pdelayT1 = some (egressStamp s p.val)) ∧
      (∀ (seq : BitVec 16) (f : Fin 8), ∃ t, exec (.pdelayReceived p (.req seq) f) s = .next t ∧
        .control s.now p.val (.pdelayResp seq (localStamp s f.val - (port s p.val).rxLat)) ∈ t.out ∧
        .control s.now p.val (.pdelayFollowUp seq (egressStamp s p.val)) ∈ t.out) ∧
      (∀ (seq : BitVec 16) (t2 : Int) (f : Fin 8), seq = (port s p.val).pdelaySeq →
        (port s p.val).pdelayT1.isSome = true →
        ∃ t, exec (.pdelayReceived p (.resp seq t2) f) s = .next t ∧
          (port t p.val).pdelayResp = some (t2, localStamp s f.val - (port s p.val).rxLat)) ∧
      (∀ (seq : BitVec 16) (t1 t2 t3 t4 : Int) (f : Fin 8), seq = (port s p.val).pdelaySeq →
        (port s p.val).pdelayT1 = some t1 → (port s p.val).pdelayResp = some (t2, t4) →
        ∃ t, exec (.pdelayReceived p (.followUp seq t3) f) s = .next t ∧
          (port t p.val).linkDelay = meanLinkDelay (port s p.val).pdelayLast t1 t2 t3 t4 ∧
          (port t p.val).pdelayLast = some (t3, t4)) ∧
      (∃ t, exec (.signalingReceived p) s = .next t ∧ CountedBy 1 0x23 p.val 15 s t)) ∧
    (∀ a b : Nat, (port s p.val).up = true → (port s p.val).lowPower = false → (port s p.val).latencyDue ≤ s.now →
      ∃ t, exec (.serdesLatencyRemeasure p a b) s = .next t ∧
        (port t p.val).txLat = latencyStep (port s p.val).txLat (psUnits a) ∧
        (port t p.val).rxLat = latencyStep (port s p.val).rxLat (psUnits b) ∧
        (port t p.val).latencyDue = s.now + msCk 1)

/-- PPS_OUT rises at each second of a locked or held working domain, in the phase of the second's instant, within 500 ms
of the last rise only counted, and falls at its end (05 R110, R116); a time input's edge is captured with its stamps,
dropped as too close or for want of room and counted (R112), and one of an EVT_IN triggers Avocet 4 ck later (11 R254). -/
def Obligations.TimePinsComplete : Prop :=
  ∀ s : State,
    (ckRuns s = true → ppsRuns s = true → s.tables.time.ppsUs ≠ 0 → secondHere s = true →
      ((∀ n, s.dunlin.ppsLast = some n → n + 400000000 ≤ s.now) →
        ∃ t ph, exec .ppsOutPulse s = .next t ∧
          ph = edgePhase s (workingCount s % unitsPerSec) (dom s s.dunlin.working).inc ∧
          .edge (ph / 8) (ph % 8) .ppsOut 1 ∈ t.out ∧ t.dunlin = { s.dunlin with
            ppsHigh := true, ppsPhase := ph % 8, ppsEnd := ph / 8 + usCk s.tables.time.ppsUs
            ppsLast := some s.now }) ∧
      (∀ n, s.dunlin.ppsLast = some n → s.now < n + 400000000 →
        ∃ t, exec .ppsOutPulse s = .next t ∧ CountedBy 1 0x20 0 7 s t ∧ t.dunlin = s.dunlin)) ∧
    (running s = true → s.dunlin.ppsHigh = true → s.dunlin.ppsEnd ≤ s.now →
      ∃ t, exec .ppsOutPulseEnd s = .next t ∧
        (s.power.level ≠ 3 → .edge s.dunlin.ppsEnd s.dunlin.ppsPhase .ppsOut 0 ∈ t.out) ∧
        (s.power.level = 3 → .edge s.now 0 .ppsOut 0 ∈ t.out) ∧
        t.dunlin = { s.dunlin with ppsHigh := false }) ∧
    (∀ (i : Fin 3) (up : Bool) (ps : Fin 1250), running s = true →
      (∀ n, (input s i.val).lastEdge = some n → n + 10000 ≤ s.now * 1250 + ps.val) →
      ∃ t, exec (.timeInputEdge i up ps) s = .next t ∧
        (input t i.val).lastEdge = some (s.now * 1250 + ps.val) ∧
        t.avocet.edges = s.avocet.edges ++ (if i = 0 then [] else [(s.now + 4, i.val - 1, up)]) ∧
        ((i ≠ 0 ∨ up = true) → (input s i.val).captures.length < 16 →
          (input t i.val).captures = (input s i.val).captures ++ [captureOf s up (ps.val * 8 / 1250)]) ∧
        ((i ≠ 0 ∨ up = true) → 16 ≤ (input s i.val).captures.length →
          (input t i.val).captures = (input s i.val).captures ∧
          if i = 0 then CountedBy 1 0x20 0 9 s t else CountedBy 1 0x21 i.val 1 s t) ∧
        (i = 0 → up = false → (input t i.val).captures = (input s i.val).captures)) ∧
    (∀ (i : Fin 3) (up : Bool) (ps : Fin 1250) (n : Nat), running s = true →
      (input s i.val).lastEdge = some n → s.now * 1250 + ps.val < n + 10000 →
      ∃ t, exec (.timeInputEdge i up ps) s = .next t ∧ (input t i.val).captures = (input s i.val).captures ∧
        (input t i.val).lastEdge = some (s.now * 1250 + ps.val) ∧
        ((i ≠ 0 ∨ up = true) → CountedBy 1 0x21 i.val 0 s t))

/-- A TIME block that falls due takes the timing lane's next position, with its tag (05 R113, R114; 08 R207); an ECHO
matched to a tag gives a round-trip sample, one that matches none, or turns at the field's end, is counted (R114, R115,
R117), and sixteen TIME blocks without an echo end the path's validity (R115). -/
def Obligations.TimeBlocksComplete : Prop :=
  ∀ (s : State) (k : Link), serdesRun s = true → (link s k.val).st = .active →
    (inBare s = false → (lanesRec s k.val).timeBlocks = true → (link s k.val).asleep = false →
      (link s k.val).wakeEnd ≤ s.now → (link s k.val).timeDue ≤ s.now →
      ∃ t, exec (.timeBlockSend k) s = .next t ∧ link t k.val = { link s k.val with
        timeOwed := true, timeDue := s.now + 1024 * slotCk (link s k.val).rate }) ∧
    (∀ n, (link s k.val).timeOwed = true → timingLane s k.val = n →
      ∃ t, activeLane k.val n s = ((syncControl, timeBlock s k.val), t) ∧ (link t k.val).timeOwed = false ∧
        (link t k.val).timeTag = ((link s k.val).timeTag + 1) % 16 ∧
        (link t k.val).missed = (link s k.val).missed + 1) ∧
    (∀ (b : Block) (f : Fin 8), blockType b = 0x5A → crc8Good b = true →
      (∀ x, (recentTags s k.val).find? (fun x => x.1 == echoTag b) = some x → echoTurn b ≠ 2 ^ 24 - 1 →
        ((link s k.val).rtts.length < 8 ∨
          (echoArrival s k.val f.val - x.2.1 - (echoTurn b * 2 ^ 24 : Nat) - median (link s k.val).rtts).natAbs
            ≤ 2 * unitsPerNs) →
        ∃ t, exec (.echoReceived k b f) s = .next t ∧ (link t k.val).missed = 0 ∧
          (link t k.val).accepted = (link s k.val).accepted + 1 ∧
          (link t k.val).pathValid = decide (4 ≤ (link s k.val).accepted + 1)) ∧
      ((recentTags s k.val).find? (fun x => x.1 == echoTag b) = none ∨ echoTurn b = 2 ^ 24 - 1 →
        ∃ t, exec (.echoReceived k b f) s = .next t ∧ CountedBy 1 0x27 k.val 26 s t ∧ t.links = s.links)) ∧
    ((link s k.val).pathValid = true → 17 ≤ (link s k.val).missed →
      ∃ t, exec (.echoMissing k) s = .next t ∧ (link t k.val).pathValid = false ∧ CountedBy 1 0x27 k.val 25 s t)

/-! ### Heron -/

/-- Gate entries take effect in every copy (06 R119), due events fire in every copy and drive the EVT_OUT pins (R125;
05 R111), and the vote, of what the copies show once the ck's work is done, takes out of three live copies each that the
majority outvotes, and enters SAFE where two differ (06 R127 to R129). -/
def Obligations.HeronComplete : Prop :=
  ∀ s : State, ckRuns s = true → s.heron.started = true →
    (∀ p : Port, gateDue s p.val (cycleOffset s) = true →
      ∃ t, exec (.gateEntry p) s = .next t ∧ t.heron = { s.heron with
        copyA := takeGate p.val (cycleOffset s) s.heron.copyA
        copyB := takeGate p.val (cycleOffset s) s.heron.copyB
        copyC := takeGate p.val (cycleOffset s) s.heron.copyC }) ∧
    (eventDue s = true →
      ∃ t, exec .heronEvent s = .next t ∧ t.heron = { s.heron with
        copyA := noteFired (cycleOffset s) s.heron.copyA
        copyB := noteFired (cycleOffset s) s.heron.copyB
        copyC := noteFired (cycleOffset s) s.heron.copyC
        safe := s.heron.safe || firedDiffer s (cycleOffset s) } ∧
        ∀ l, l = firingRecords s (cycleOffset s) →
          t.dunlin.evtOut0 = l.foldl (fun v r => outAction r.out0 v) s.dunlin.evtOut0 ∧
          t.dunlin.evtOut1 = l.foldl (fun v r => outAction r.out1 v) s.dunlin.evtOut1) ∧
    (∀ (l : List HeronUpset) (v : State),
      v = each (l.filter (fun x => !isFired x)) heronUpset (heronWork (each (l.filter isFired) heronUpset s)) →
      ∃ t, exec (.heronVote l) s = .next t ∧
        (∀ a b c m, liveCopies v = [a, b, c] → m = majShown (shown v a) (shown v b) (shown v c) →
          t.heron.copyA.live = (firstDiffer (shown v a) m).isNone ∧
          t.heron.copyB.live = (firstDiffer (shown v b) m).isNone ∧
          t.heron.copyC.live = (firstDiffer (shown v c) m).isNone) ∧
        (∀ a b, liveCopies v = [a, b] →
          t.heron.safe = (v.heron.safe || (firstDiffer (shown v a) (shown v b)).isSome)))

/-! ### The wheel and the wire -/

/-- The wheel releases the due stream's head with its TAT and sequence number, at most 8 in a ck (06 R131, R133, R134;
07 R163), the coarse ring turns (06 R134), and a head past its deadline is discarded from its queue (R137), before any
release (R144). -/
def Obligations.WheelComplete : Prop :=
  ∀ s : State, ckRuns s = true →
    (∀ (q : Nat) (r : StreamsRec) (f : Frame) (rest : List Frame), s.heron.started = true →
      (∀ x ∈ dueStreams s, ∀ g, (stream s x.2).queue.head? = some g → lateHead s g = false) →
      firstDue s = some q → mFind s.tables.streams q = some r → (stream s q).queue = f :: rest →
      releasesNow s < 8 → firstDue (noteRelease (releaseHead q s)) = none →
      ∃ t, exec .wheelSlot s = .next t ∧ (stream t q).queue = rest ∧ t.released = (s.now, releasesNow s + 1) ∧
        (stream t q).seq = ((stream s q).seq + 1) % 65536 ∧ (stream t q).lastRelease = hck s ∧
        (stream t q).tat = tatOf (max (tatAt s (stream s q).tat) (f.arrival * 2 ^ 24 : Nat) +
          (countedLen r.lenMode r.overhead (sentLen r f) * byteTime r.rate : Nat))) ∧
    (s.heron.started = true → 8 ≤ releasesNow s →
      (∀ x ∈ dueStreams s, ∀ g, (stream s x.2).queue.head? = some g → lateHead s g = false) →
      ∃ t, exec .wheelSlot s = .next t ∧ SameBut [] s t) ∧
    (∀ (q : Nat × Nat) (f : Frame), s.heron.started = true → dueStreams s = [q] → (stream s q.2).queue = [f] →
      lateHead s f = true → ∃ t, exec .wheelSlot s = .next t ∧ (stream t q.2).queue = [] ∧
        (stream t q.2).seq = (stream s q.2).seq ∧ t.released = s.released) ∧
    (s.heron.started = true → firstDue s = none →
      ∃ t, exec .wheelSlot s = .next t ∧ SameBut [] s t) ∧
    (s.heron.started = true → s.coarse < hck s / 8192 →
      ∃ t, exec .coarseSlot s = .next t ∧ t.coarse = hck s / 8192) ∧
    (∀ (q : Stream) (f : Frame) (rest : List Frame), (stream s q.val).queue = f :: rest → f.started = false →
      f.deadline < hck s →
      ∃ t, exec (.deadlineExpiry (.stream q)) s = .next t ∧ (stream t q.val).queue = rest) ∧
    (∀ (p : Port) (c : TClass) (f : Frame) (rest : List Frame), classQueue s p.val c.val = f :: rest →
      f.started = false → f.deadline < hck s →
      ∃ t, exec (.deadlineExpiry (.cls p c)) s = .next t ∧
        otherFrames (classQueue t p.val c.val) = otherFrames rest ∧
        if f.stream = none then CountedBy 1 0x24 (8 * p.val + c.val) 5 s t
        else CountedBy 1 0x2C (4 * f.stream.getD 0 + p.val) 0 s t)

/-- An idle wire takes the frame that selection picks, its first bit at the PCS 25 ck later (06 R120 to R124), or
stays idle, and a MAC Control frame that waits goes first (07 R153); a pre-emptable frame in progress gives way as a
fragment (06 R121); and a sending ends with its frame sent, its fragment waiting or its stomp done (07 R151, R159). -/
def Obligations.TransmissionComplete : Prop :=
  ∀ (s : State) (p : Port), ckRuns s = true →
    (mayTransmit s p.val = true →
      (∀ (c : Nat) (f : Frame), (port s p.val).tx = none → (port s p.val).control = [] →
        pickClass s p.val classesDown = some c → nextFrame s p.val c = some f → frameErrors s f = [] →
        ∃ t, exec (.transmitSelection p) s = .next t ∧ (port t p.val).tx = some
          { cls := c, express := isExpress s p.val c && !resumes s p.val c, frame := { f with started := true }
            start := s.now + 25, ends := .frame, finish := 0 }) ∧
      ((port s p.val).tx = none → (port s p.val).control = [] → pickClass s p.val classesDown = none →
        ∃ t, exec (.transmitSelection p) s = .next t ∧ (port t p.val).tx = none) ∧
      (∀ (b : List Byte) (rest : List (List Byte)), (port s p.val).tx = none → (port s p.val).control = b :: rest →
        ∃ t, exec (.transmitSelection p) s = .next t ∧ (port t p.val).control = rest ∧ (port t p.val).tx = some
          { cls := 8, express := true
            frame := { plainFrame s.frameIds b (hck s) (hck s) with started := true }
            start := s.now + 25, ends := .frame, finish := 0 }) ∧
      (∀ x : Tx, (port s p.val).tx = some x → mayPreempt s p.val x = true → wantsWire s p.val = true →
        ∃ t, exec (.transmitSelection p) s = .next t ∧ (port t p.val).tx = some { x with
          ends := .fragment, finish := s.now + cdiv (24 * byteCk100 (port s p.val)) 100
          frame := { x.frame with sent := x.frame.sent + bytesOut (port s p.val) x s.now } })) ∧
    (∀ x : Tx, (port s p.val).tx = some x → sendingOver s p.val x = true →
      ∃ t, exec (.transmitComplete p) s = .next t ∧ (port t p.val).tx = none ∧
        (port t p.val).idleSince = s.now ∧
        (x.ends = .frame → endOf s p.val x (withFcs x.frame.bytes) ∈ t.out ∧ CountedBy 1 0x23 p.val 19 s t) ∧
        (x.ends = .fragment → (port t p.val).preempted = some (x.cls, x.frame)))

/-! ### Ethernet -/

/-- A received frame is dropped for want of cells (12 R273), discarded by the MAC in the order of its counters (07
R147), consumed as MAC Control, counted where its opcode is not PFC's, or taken by Dunlin (R148), sent to the management
path or, unmatched, discarded (R154, R155), each counted; and a listener stream's recovery resets after its time without
a frame (R167). -/
def Obligations.ReceptionComplete : Prop :=
  ∀ s : State, ckRuns s = true →
    (∀ (p : Port) (b : List Byte) (e : Bool), (port s p.val).up = true →
      (canTake s p.val (pcpOf (ethHdr b)) (cellsOf b.length) = false →
        ∃ t, exec (.frameReceive p b e) s = .next t ∧
          CountedBy 1 0x24 (8 * p.val + pcpOf (ethHdr b)) 3 s t ∧ t.rxCells = s.rxCells) ∧
      (canTake s p.val (pcpOf (ethHdr b)) (cellsOf b.length) = true →
        (∀ n, macError s p.val b e = some n →
          ∃ t, exec (.frameReceive p b e) s = .next t ∧ CountedBy 1 0x23 p.val n s t ∧
            rxHeld t p.val (pcpOf (ethHdr b)) = rxHeld s p.val (pcpOf (ethHdr b))) ∧
        (macError s p.val b e = none →
          (isMacControl b = true ∨ dunlinTakes s p.val (ethHdr b) = true →
            ∃ t, exec (.frameReceive p b e) s = .next t ∧
              rxHeld t p.val (pcpOf (ethHdr b)) = rxHeld s p.val (pcpOf (ethHdr b)) ∧
              (isMacControl b = true → macOpcode b ≠ 0x0101 → CountedBy 1 0x23 p.val 4 s t)) ∧
          (isMacControl b = false → dunlinTakes s p.val (ethHdr b) = false →
            (managementFrame s (ethHdr b) = true → s.boot.otpBad = false →
              hidRxCells s + cellsOf b.length ≤ 32 →
              ∃ t, exec (.frameReceive p b e) s = .next t ∧
                t.hid.rx = s.hid.rx ++ [{ port := p.val, bytes := b }] ∧ CountedBy 1 0x23 p.val 20 s t) ∧
            (managementFrame s (ethHdr b) = false →
              s.tables.filters.find? (fun y => filterMatches y.2 p.val (ethHdr b)) = none →
              ∃ t, exec (.frameReceive p b e) s = .next t ∧ CountedBy 1 0x23 p.val 12 s t))))) ∧
    (∀ (l : Stream) (r : ListenRec) (f : FrerRec), (listener s l.val).recovering = false →
      mFind s.tables.listen l.val = some r → mFind s.tables.frer r.recovery = some f →
      (listener s l.val).lastPassed + usCk f.timeoutUs ≤ s.now →
      ∃ t, exec (.recoveryResetTimeout l) s = .next t ∧
        listener t l.val = { listener s l.val with recovering := true, history := [] })

/-- PFC pauses its classes, or is counted where a class is gated or not pausable (07 R152) or the port's flag for it
is clear (16 R341), as the command or as a received frame of opcode 0x0101 (R148); other MAC control is counted and
ignored (R148); a pause ends (R152); and the device pauses its partner above 30 cells, refreshes and ends that pause, by
a PFC frame from the port's MAC address (R153; 12 R273). A class both gated and not pausable counts as gated (log entry
44). -/
def Obligations.PauseComplete : Prop :=
  ∀ (s : State) (p : Port), ckRuns s = true →
    (∀ (x : PfcInfo) (r : PortsRec), (port s p.val).up = true → portsRec s p.val = some r → r.pauseRx = true →
      ∃ t, exec (.pfcReceived p x) s = .next t ∧ ∀ c : TClass, x.enable.getLsbD c.val = true →
        (gated s p.val c.val = false → hasBit r.pausable c.val = true → (port s p.val).pausedUntil.length = 8 →
          (port t p.val).pausedUntil.getD c.val 0 = if x.quanta.getD c.val 0 = 0 then 0
            else s.now + cdiv (x.quanta.getD c.val 0 * quantumCk100 (port s p.val)) 100) ∧
        (gated s p.val c.val = true → CountedBy 1 0x24 (8 * p.val + c.val) 1 s t) ∧
        (gated s p.val c.val = false → hasBit r.pausable c.val = false →
          CountedBy 1 0x24 (8 * p.val + c.val) 2 s t)) ∧
    (∀ x : PfcInfo, (port s p.val).up = true → (∀ r, portsRec s p.val = some r → r.pauseRx = false) →
      ∃ t, exec (.pfcReceived p x) s = .next t ∧ CountedBy 1 0x23 p.val 4 s t) ∧
    (∀ b : List Byte, (port s p.val).up = true → canTake s p.val (pcpOf (ethHdr b)) (cellsOf b.length) = true →
      macError s p.val b false = none → isMacControl b = true → macOpcode b = 0x0101 →
      ∃ t u, exec (.frameReceive p b false) s = .next t ∧ exec (.pfcReceived p (pfcOf b)) s = .next u ∧
        (port t p.val).pausedUntil = (port u p.val).pausedUntil) ∧
    (∀ o : BitVec 16, (port s p.val).up = true → o ≠ 0x0101 →
      ∃ t, exec (.macControlIgnored p o) s = .next t ∧ CountedBy 1 0x23 p.val 4 s t) ∧
    (∀ c : TClass, (port s p.val).pausedUntil.getD c.val 0 ≠ 0 →
      (port s p.val).pausedUntil.getD c.val 0 ≤ s.now →
      ∃ t, exec (.pauseExpiry p c) s = .next t ∧
        (port t p.val).pausedUntil = (port s p.val).pausedUntil.set c.val 0) ∧
    (∀ (c : TClass) (r : PortsRec), pfcClass s p.val c.val = true → portsRec s p.val = some r →
      ((port s p.val).pfcOn.getD c.val false = false → 30 < rxHeld s p.val c.val →
        ∃ t, exec (.pfcSend p c) s = .next t ∧
          (port t p.val).control = (port s p.val).control ++ [pfcBytes r.mac c.val 0xFFFF] ∧
          (port t p.val).pfcOn = (port s p.val).pfcOn.set c.val true) ∧
      ((port s p.val).pfcOn.getD c.val false = true → rxHeld s p.val c.val ≤ 20 →
        ∃ t, exec (.pfcSend p c) s = .next t ∧
          (port t p.val).control = (port s p.val).control ++ [pfcBytes r.mac c.val 0] ∧
          (port t p.val).pfcOn = (port s p.val).pfcOn.set c.val false) ∧
      ((port s p.val).pfcOn.getD c.val false = true → 20 < rxHeld s p.val c.val →
        (port s p.val).pfcDue.getD c.val 0 ≤ s.now →
        ∃ t, exec (.pfcRefresh p c) s = .next t ∧
          (port t p.val).control = (port s p.val).control ++ [pfcBytes r.mac c.val 0xFFFF] ∧
          (port t p.val).pfcDue = (port s p.val).pfcDue.set c.val (s.now + pfcInterval (port s p.val))))

/-- Verification sends at most three verify mPackets and completes on a respond (07 R150), a verify is answered (R150),
fragments are reassembled in order, their cells charged as they arrive or the frame dropped and counted (R157), or
counted where they are not in order (R151); a whole frame is the MAC's to judge (R147). -/
def Obligations.PreemptionComplete : Prop :=
  ∀ (s : State) (p : Port), ckRuns s = true →
    (∀ n due : Nat, (port s p.val).verify = .running n due → due ≤ s.now →
      ∃ t, exec (.verifyTimer p) s = .next t ∧
        (n < 3 → .control s.now p.val .verify ∈ t.out ∧ (port t p.val).verify = .running (n + 1)
          (s.now + msCk (match portsRec s p.val with | some r => r.verifyMs | none => 10))) ∧
        (3 ≤ n → (port t p.val).verify = .failed ∧ CountedBy 1 0x23 p.val 6 s t)) ∧
    ((port s p.val).up = true →
      (∀ n due : Nat, (port s p.val).verify = .running n due →
        ∃ t, exec (.verifyMpacketReceived p true) s = .next t ∧ (port t p.val).verify = .verified) ∧
      (preemptFlag s p.val = true →
        ∃ t, exec (.verifyMpacketReceived p false) s = .next t ∧ .control s.now p.val .respond ∈ t.out) ∧
      (∀ m : Mpacket, preemptFlag s p.val = false →
        ∃ t, exec (.mpacketReceived p m) s = .next t ∧ CountedBy 1 0x23 p.val 8 s t) ∧
      (∀ m : Mpacket, preemptFlag s p.val = true → m.start = true → (port s p.val).reasm = none →
        m.final = false → m.good = true →
        canTake s p.val (pcpOf (ethHdr m.bytes)) (cellsOf m.bytes.length) = true →
        ∃ t, exec (.mpacketReceived p m) s = .next t ∧ (port t p.val).reasm = some
          { frameCount := m.frameCount.val, fragCount := 0, bytes := m.bytes, cls := pcpOf (ethHdr m.bytes)
            cells := cellsOf m.bytes.length, lost := false }) ∧
      (∀ m : Mpacket, preemptFlag s p.val = true → m.start = true → m.final = true → (port s p.val).reasm = none →
        exec (.mpacketReceived p m) s = exec (.frameReceive p m.bytes false) s) ∧
      (∀ (m : Mpacket) (r : Reasm), preemptFlag s p.val = true → m.start = false →
        (port s p.val).reasm = some r → m.frameCount.val = r.frameCount → m.fragCount.val = r.fragCount →
        ∀ more, more = cellsOf (r.bytes ++ m.bytes).length - r.cells →
        (m.good = true → m.final = false → r.lost = false → canTake s p.val r.cls more = true →
          ∃ t, exec (.mpacketReceived p m) s = .next t ∧ (port t p.val).reasm = some
            { r with fragCount := (r.fragCount + 1) % 4, bytes := r.bytes ++ m.bytes, cells := r.cells + more }) ∧
        (m.good = true → m.final = false → r.lost = false → canTake s p.val r.cls more = false →
          ∃ t, exec (.mpacketReceived p m) s = .next t ∧ CountedBy 1 0x24 (8 * p.val + r.cls) 3 s t ∧
            (port t p.val).reasm = some
              { r with fragCount := (r.fragCount + 1) % 4, bytes := [], cells := 0, lost := true }) ∧
        (m.final = true → r.lost = false → canTake s p.val r.cls more = true →
          ∃ t, exec (.mpacketReceived p m) s = .next t ∧ (port t p.val).reasm = none ∧
            ∀ n, macError s p.val (r.bytes ++ m.bytes) false = some n → CountedBy 1 0x23 p.val n s t)) ∧
      (∀ m : Mpacket, preemptFlag s p.val = true → m.start = false →
        (∀ r, (port s p.val).reasm = some r → m.frameCount.val ≠ r.frameCount ∨ m.fragCount.val ≠ r.fragCount ∨
          (m.good = false ∧ m.final = false)) →
        ∃ t, exec (.mpacketReceived p m) s = .next t ∧ (port t p.val).reasm = none ∧
          CountedBy 1 0x23 p.val 7 s t))

/-- Ports go down and come up with their counts, the link-up hold and the partner's base page (07 R145, R168 to R170),
SGMII's in-band word moves link and speed, half duplex counted whatever its link bit (R168, R172; log entry 44), and the
PHY is brought up, polled, found absent and tried again (R172), by accesses to its address, one at a time in port order
(R171). -/
def Obligations.PortLinkComplete : Prop :=
  ∀ (s : State) (p : Port), ckRuns s = true →
    (∀ w : LinkLoss, (port s p.val).up = true → lossPossible (port s p.val).mode w = true →
      ∃ t, exec (.portDown p w) s = .next t ∧ (port t p.val).up = false ∧ (port t p.val).live = false ∧
        (port t p.val).tx = none ∧ (port t p.val).verify = .idle ∧ (port t p.val).linkBit = false ∧
        CountedBy 1 0x23 p.val 9 s t) ∧
    (∀ page : BitVec 16, mayComeUp s p.val = true →
      ∃ t, exec (.portUp ⟨p, page⟩) s = .next t ∧ ((port s p.val).mode = 4 → (port t p.val).anPage = page) ∧
        (port t p.val).up = true ∧ (port t p.val).live = false ∧
        (port t p.val).holdEnd = some (s.now + usCk (match portsRec s p.val with | some r => r.holdUs | none => 0)) ∧
        CountedBy 1 0x23 p.val 10 s t) ∧
    (∀ n : Nat, (port s p.val).up = true → (port s p.val).live = false → (port s p.val).holdEnd = some n →
      n ≤ s.now →
      ∃ t, exec (.linkUpHoldEnd p) s = .next t ∧ (port t p.val).live = true ∧ (port t p.val).holdEnd = none) ∧
    ((port s p.val).mode = 6 →
      (∀ (v : Fin 3) (f : Bool), ∃ t, exec (.sgmiiInbandWord p false v f) s = .next t ∧ (port t p.val).up = false ∧
        (port t p.val).linkBit = false) ∧
      (∀ (v : Fin 3) (b : Bool), ∃ t, exec (.sgmiiInbandWord p b v false) s = .next t ∧ (port t p.val).up = false ∧
        (port t p.val).halfDuplex = true ∧ CountedBy 1 0x23 p.val 14 s t) ∧
      (∀ v : Fin 3, ∃ t, exec (.sgmiiInbandWord p true v true) s = .next t ∧ (port t p.val).halfDuplex = false ∧
        (port t p.val).linkBit = true ∧ (port t p.val).speed = v.val ∧
        (port t p.val).up = ((port s p.val).up && decide ((port s p.val).speed = v.val)))) ∧
    (∀ (v : BitVec 16) (n : Nat), s.supply.bankQ.brown = false → s.mdio.queue = [] → s.mdio.freeAt ≤ s.now →
      firstBelow 4 (pollDue s) = some p.val →
      ∃ t, exec (.phyPoll p v) s = .next t ∧
        (∀ a, phyAddress s p.val = some a → .mdio s.now a (polled (port s p.val)) none ∈ t.out ∧
          t.mdio.freeAt = s.now + 20480) ∧
        (v = 0xFFFF → (port t p.val).phy = .absent (s.now + msCk 1000) ∧ (port t p.val).up = false ∧
          CountedBy 1 0x23 p.val 13 s t) ∧
        ((port s p.val).phy = .resetting n → v.getLsbD 15 = false → (port t p.val).phy = .running ∧
          ∀ a, phyAddress s p.val = some a →
            t.mdio.queue = [(p.val, a, 4, 0x0141), (p.val, a, 9, 0x0200), (p.val, a, 0, 0x1340)])) ∧
    (∀ (a reg val : Nat) (rest : List (Nat × Nat × Nat × Nat)), s.mdio.queue = (p.val, a, reg, val) :: rest →
      (∀ e ∈ rest, p.val ≤ e.1) → s.supply.bankQ.brown = false → s.mdio.freeAt ≤ s.now →
      (mdioDuty s).mdio = { queue := rest, freeAt := s.now + 20480 } ∧
        .mdio s.now a reg (some val) ∈ (mdioDuty s).out) ∧
    (∀ n a : Nat, (port s p.val).phy = .absent n → n ≤ s.now → (port s p.val).mode = 6 →
      phyAddress s p.val = some a →
      ∃ t, exec (.phyRestart p) s = .next t ∧ (port t p.val).phy = .resetting s.now ∧
        t.mdio.queue = s.mdio.queue ++ [(p.val, a, 0, 0x8000)])

/-- An underrun stomps its copy, is counted and raises its stream's threshold once for a frame (07 R159, R160), and a
tunnelled frame with a bad FCS or beyond its stream's maximum is given up and counted (R162). -/
def Obligations.CutThroughComplete : Prop :=
  ∀ s : State, ckRuns s = true →
    (∀ (p : Port) (x : Tx), (port s p.val).tx = some x → underruns s p.val x = true →
      ∃ t, exec (.ctUnderrun p) s = .next t ∧ (∃ y, (port t p.val).tx = some y ∧ y.ends = .stomp) ∧
        (∀ q, x.frame.stream = some q → (stream t q).threshold =
          if x.frame.raised then (stream s q).threshold else min 142 ((stream s q).threshold + 1)) ∧
        CountedBy 1 0x2C (4 * x.frame.stream.getD 0 + p.val) 1 s t) ∧
    (∀ (q : Stream) (k : Nat) (f : Frame),
      (stream s q.val).tunnels.find? (fun e => e.2.carriedBad) = some (k, f) →
      ∃ t, exec (.tunnelFcsError q) s = .next t ∧ mFind (stream t q.val).tunnels k = none ∧
        CountedBy 1 0x2B q.val 4 s t) ∧
    (∀ (q : Stream) (k : Nat) (f : Frame),
      (stream s q.val).tunnels.find? (fun e => tunnelTooLong s q.val e.2) = some (k, f) →
      ∃ t, exec (.tunnelOverlength q) s = .next t ∧ mFind (stream t q.val).tunnels k = none ∧
        CountedBy 1 0x2B q.val 0 s t)

/-! ### Dziak -/

/-- What the rows of a link yield (08 R183, R188): a packet that fails is counted, in NORMAL with one NAK that carries S,
which replaces an ACK of the same ck (R207), and the receiver is in ERROR (R188); a sound one is sorted by its SEQ: in
sequence and with room it is accepted, without room it fails, a duplicate is acknowledged at once, any other is out of
sequence (R186, R187). -/
def Obligations.PacketSortingComplete : Prop :=
  ∀ (s u : State) (k : Link) (before head middle last rows : Rows) (e : RxEvent), carries s k.val = true →
    rows = before ++ head ++ middle ++ last →
    (∀ r ∈ rows, r.length = popCount 8 (link s k.val).finalMask) → readRows k.val rows s = ([e], u) →
    (∀ n < 2, (e = .failed n ∨ ∃ hdr data tail, e = .packet hdr data tail ∧ packetFails hdr data tail = some n) →
      ((link s k.val).rxError = false →
        ∃ t, exec (.packetReceived k before head middle last) s = .next t ∧ (link t k.val).rxError = true ∧
          (link t k.val).rxS = (link s k.val).rxS ∧ CountedBy 1 0x27 k.val n s t ∧ CountedBy 1 0x27 k.val 4 s t ∧
          builtNow t k.val 0x33 = [] ∧ (∃ c crv v cl m, c ∈ (link t k.val).control ∧ c.built = s.now ∧
            c.body = mkAck 0x3C (link s k.val).rxS crv v cl m)) ∧
      ((link s k.val).rxError = true →
        ∃ t, exec (.packetReceived k before head middle last) s = .next t ∧ link t k.val = link u k.val ∧
          CountedBy 1 0x27 k.val n s t ∧ readCtr t 0x27 k.val 4 = readCtr s 0x27 k.val 4)) ∧
    (∀ (hdr tail : Block) (data : List Block) (w : State) (cost : Nat), e = .packet hdr data tail →
      packetFails hdr data tail = none → cost = packetCost (hdrLen hdr) →
      w = applyReturn k.val (tailS tail) true (tailVc tail) (tailCl tail) (tailEmpty tail) u →
      (link w k.val).st = .active →
      (hdrSeq hdr = ((link w k.val).rxS + 1) % 4096 →
        (hasRoom w k.val (hdrVc hdr) cost = true →
          ∃ t, exec (.packetReceived k before head middle last) s = .next t ∧ (link t k.val).rxS = hdrSeq hdr ∧
            (link t k.val).rxError = false ∧ (link t k.val).retrains = 0 ∧
            (vc t k.val (hdrVc hdr)).ac = ((vc w k.val (hdrVc hdr)).ac + cost) % 65536) ∧
        (hasRoom w k.val (hdrVc hdr) cost = false → (link w k.val).rxError = false →
          ∃ t, exec (.packetReceived k before head middle last) s = .next t ∧ (link t k.val).rxS = (link w k.val).rxS ∧
            (link t k.val).rxError = true ∧ CountedBy 1 0x27 k.val 16 w t)) ∧
      (hdrSeq hdr ≠ ((link w k.val).rxS + 1) % 4096 →
        (((link w k.val).rxS + 4096 - hdrSeq hdr) % 4096 ≤ 2046 →
          ∃ t, exec (.packetReceived k before head middle last) s = .next t ∧ (link t k.val).rxS = (link w k.val).rxS ∧
            CountedBy 1 0x27 k.val 2 w t ∧ (builtNow w k.val 0x3C = [] →
              ∃ c crv v cl m, c ∈ (link t k.val).control ∧ c.built = s.now ∧
                c.body = mkAck 0x33 (link w k.val).rxS crv v cl m)) ∧
        (2046 < ((link w k.val).rxS + 4096 - hdrSeq hdr) % 4096 →
          ∃ t, exec (.packetReceived k before head middle last) s = .next t ∧ link t k.val = link w k.val ∧
            CountedBy 1 0x27 k.val 3 w t)))

/-- Pair elimination (08 R201): an accepted packet passes and moves H, or it is a duplicate or a rogue, counted, and
moves nothing. -/
def Obligations.PairEliminationComplete : Prop :=
  ∀ (s u w : State) (k : Link) (before head middle last rows : Rows) (hdr tail : Block) (data : List Block) (r : VcmapRec),
    carries s k.val = true → rows = before ++ head ++ middle ++ last → (∀ r ∈ rows, r.length = popCount 8 (link s k.val).finalMask) →
    readRows k.val rows s = ([.packet hdr data tail], u) → packetFails hdr data tail = none →
    w = applyReturn k.val (tailS tail) true (tailVc tail) (tailCl tail) (tailEmpty tail) u →
    (link w k.val).st = .active → hdrSeq hdr = ((link w k.val).rxS + 1) % 4096 →
    hasRoom w k.val (hdrVc hdr) (packetCost (hdrLen hdr)) = true → hdrKind hdr < 2 →
    vcRec w k.val (hdrVc hdr) = some r → eliminates w k.val = true →
    (eliminate (pair w (k.val / 2) (hdrVc hdr)) (hdrPseq hdr) = .passed →
      ∃ t, exec (.packetReceived k before head middle last) s = .next t ∧
        (pair t (k.val / 2) (hdrVc hdr)).last = hdrPseq hdr ∧
        (pair t (k.val / 2) (hdrVc hdr)).isReset = false ∧ (pair t (k.val / 2) (hdrVc hdr)).lastPass = s.now) ∧
    (eliminate (pair w (k.val / 2) (hdrVc hdr)) (hdrPseq hdr) = .duplicate →
      ∃ t, exec (.packetReceived k before head middle last) s = .next t ∧
        pair t (k.val / 2) (hdrVc hdr) = pair w (k.val / 2) (hdrVc hdr) ∧
        CountedBy 1 0x29 (8 * (k.val / 2) + hdrVc hdr) 1 w t) ∧
    (eliminate (pair w (k.val / 2) (hdrVc hdr)) (hdrPseq hdr) = .rogue →
      ∃ t, exec (.packetReceived k before head middle last) s = .next t ∧
        pair t (k.val / 2) (hdrVc hdr) = pair w (k.val / 2) (hdrVc hdr) ∧
        CountedBy 1 0x29 (8 * (k.val / 2) + hdrVc hdr) 2 w t)

/-- A block survives its lane: each bit sent is the body's bit with the bits sent 39 and 58 before it, the history holding
those of earlier blocks, newest first, and descrambling undoes that, its history following the sender's (08 R176); the 67 bits of a block carry its sync header and body with odd parity (R175, R177); and a
packet's blocks, received free of error over any number of lanes, are that packet again, with the payload of HDR's length
(R178, R183). -/
def Obligations.BlocksSurviveTheLane : Prop :=
  (∀ (h : BitVec 58) (d r : Block), r = (scramble h d).1 →
    (∀ i < 64, r.getLsbD i = ((d.getLsbD i ^^ (if 39 ≤ i then r.getLsbD (i - 39) else h.getLsbD (38 - i))) ^^
      (if 58 ≤ i then r.getLsbD (i - 58) else h.getLsbD (57 - i)))) ∧
    ∀ j < 58, (scramble h d).2.getLsbD j = r.getLsbD (63 - j)) ∧
  (∀ (h : BitVec 58) (d : Block), descramble h (scramble h d).1 = (d, (scramble h d).2)) ∧
  (∀ (n : Nat) (b : Block), 1 ≤ n → n ≤ 3 →
    wordGood (laneWord n b) = true ∧ wordSync (laneWord n b) = n ∧ wordBody (laneWord n b) = b) ∧
  (∀ (built ready seq : Nat) (hdr tail : Block) (payload : List Byte) (f : RxFrame)
    (rows : List (List (Nat × Block))), blockType hdr = 0x2D →
    rows.flatten = (packetBlocks built ready seq hdr payload tail).map (fun c => (c.sync, c.body)) →
    (∀ h d, f ≠ .inside h d) →
    rows.foldl (fun a r => ((frameRow false a.1 r).1, a.2 ++ (frameRow false a.1 r).2)) (f, []) =
      (.outside, [.packet hdr (payloadBlocks payload) tail])) ∧
  (∀ payload : List Byte, blockBytes payload.length (payloadBlocks payload) = payload)

/-- An ACTIVE link resends in an episode, else sends the head packet of the highest VC with credit under the next SEQ
and keeps it (08 R190, R191, R195), its blocks joining the striped sequence behind those on their way (R183, R203); a
message without credit beyond its deadline is discarded (R195); credit is returned and audits are sent (R196, R198). -/
def Obligations.PacketSendingComplete : Prop :=
  ∀ (s : State) (k : Link),
    (mayPacket s k.val = true →
      (∀ (e : Nat) (p : Stored) (rest : List Stored), (link s k.val).episode = some e →
        (link s k.val).store.dropWhile (fun p => p.seq != e) = p :: rest → p.marked = false →
        ∃ t, exec (.packetSend k) s = .next t ∧ (link t k.val).sending = (link s k.val).sending ++
            packetBlocks s.now (s.now + 16) e p.hdr p.payload (tailNow s k.val p.hdr p.payload) ∧
          (link t k.val).episode = rest.head?.map (·.seq) ∧
          (link t k.val).store.map (·.seq) = (link s k.val).store.map (·.seq) ∧
          (link t k.val).txSeq = (link s k.val).txSeq) ∧
      (∀ (v n : Nat) (m : TxMsg) (rest : List TxMsg), (link s k.val).episode = none → pickVc s k.val = some v →
        (vc s k.val v).txQ = m :: rest → n = min 256 (m.bytes.length - m.pos) → storeRoom s k.val n = true →
        ∃ t h, exec (.packetSend k) s = .next t ∧
          h = mkHdr (link s k.val).txSeq v n m.kind (m.pos == 0) (m.pos + n == m.bytes.length)
            (if planPairs (plan s) then m.pseq + m.pos / 256 else 0) ∧
          (link t k.val).sending = (link s k.val).sending ++ packetBlocks s.now (s.now + 16) (link s k.val).txSeq h
            (slice m.bytes m.pos n) (tailNow s k.val h (slice m.bytes m.pos n)) ∧
          (link t k.val).txSeq = ((link s k.val).txSeq + 1) % 4096 ∧
          (∃ x, (link t k.val).store = (link s k.val).store ++ [x] ∧ x.seq = (link s k.val).txSeq ∧ x.hdr = h ∧
            x.payload = slice m.bytes m.pos n ∧ x.cost = packetCost n ∧ x.sentAt = none) ∧
          (vc t k.val v).c = ((vc s k.val v).c + packetCost n) % 65536 ∧
          (vc t k.val v).txQ =
            if m.pos + n = m.bytes.length then rest else { m with pos := m.pos + n } :: rest)) ∧
    (∀ (v : VC) (m : TxMsg) (rest : List TxMsg), ckRuns s = true → (vc s k.val v.val).txQ = m :: rest → m.pos = 0 →
      m.deadline < s.now → hasCredit s k.val v.val = false →
      ∃ t, exec (.creditWaitDeadline k v) s = .next t ∧ (vc t k.val v.val).txQ = rest ∧
        CountedBy 1 0x28 (8 * k.val + v.val) 4 s t) ∧
    (∀ (v : VC) (i : Nat), ckRuns s = true → waitsTooLong s k.val v.val = some i →
      ∃ t, exec (.creditWaitDeadline k v) s = .next t ∧
        (vc t k.val v.val).txQ = (vc s k.val v.val).txQ.eraseIdx i ∧
        CountedBy 1 0x28 (8 * k.val + v.val) 4 s t) ∧
    (∀ v : VC, carries s k.val = true → (vcRec s k.val v.val).isSome = true → returnDue s k.val v.val = true →
      builtNow s k.val 0x3C = [] →
      ∃ t, exec (.creditReturn k v) s = .next t ∧
        (vc t k.val v.val).reported = (vc s k.val v.val).freed ∧ (vc t k.val v.val).firstFree = none ∧
        (link t k.val).rxU = 0 ∧ (link t k.val).returnNext = (v.val + 1) % 8 ∧
        (∃ c ∈ (link t k.val).control, c.built = s.now ∧ c.body = mkAck 0x33 (link s k.val).rxS true v.val
          (creditLimit (vc s k.val v.val)) (vcEmpty (vc s k.val v.val)))) ∧
    (carries s k.val = true → (lanesRec s k.val).auditUs ≠ 0 → (link s k.val).auditDue ≤ s.now →
      ∃ t, exec (.auditSend k) s = .next t ∧
        (link t k.val).auditDue = s.now + usCk (lanesRec s k.val).auditUs ∧
        ∀ v : VC, (vcRec s k.val v.val).isSome = true → ∃ c ∈ (link t k.val).control,
          c.built = s.now ∧ c.body = mkAudit (link s k.val).rxS v.val (vc s k.val v.val).ac)

/-- The ACK timer (08 R189), blocks that carry S (R190, R197), NAK and replay timeout, one episode where both fall in one
ck (R191, R207), link down (R192, R193), AUDIT (R198), discarded control blocks (R180), and the reset of a pair's
elimination state (R201). -/
def Obligations.LinkUpkeepComplete : Prop :=
  ∀ (s : State) (k : Link),
    (carries s k.val = true →
      (∀ d, (link s k.val).ackDue = some d → d ≤ s.now → builtNow s k.val 0x3C = [] →
        ∃ t, exec (.ackTimer k) s = .next t ∧ (link t k.val).ackDue = none ∧ (link t k.val).rxU = 0 ∧
          (∃ c crv v cl m, c ∈ (link t k.val).control ∧ c.built = s.now ∧
            c.body = mkAck 0x33 (link s k.val).rxS crv v cl m)) ∧
      (∀ (kind : SKind) (b : Block) (n v cl gone : Nat), blockGood kind b = true →
        returnOf kind b = (n, true, v, cl, false) →
        gone = beyond s k.val n → 0 < gone → gone ≤ 2047 → gone ≤ (link s k.val).store.length →
        ∃ t, exec (.ackReceived k kind b) s = .next t ∧ (vc t k.val v).cl = cl ∧ (link t k.val).released = n ∧
          (link t k.val).store = (link s k.val).store.drop gone ∧ (link t k.val).retrains = 0 ∧
          (link t k.val).releasedAt = s.now) ∧
      (∀ (kind : SKind) (b : Block) (n v cl : Nat) (e : Bool), blockGood kind b = true →
        returnOf kind b = (n, false, v, cl, e) → 2047 < beyond s k.val n →
        ∃ t, exec (.ackReceived k kind b) s = .next t ∧ CountedBy 1 0x27 k.val 8 s t ∧
          link t k.val = link s k.val) ∧
      (∀ (b : Block) (u : State) (p : Stored) (rest : List Stored), blockGood .nak b = true →
        u = applyReturn k.val (ackS b) (ackCrv b) (ackVc b) (ackCl b) (ackEmpty b)
          (if (link s k.val).timerAt = some s.now then undoTimer k.val (bumpLink k.val 5 s) else bumpLink k.val 5 s) →
        (link u k.val).st = .active → (link u k.val).store = p :: rest → p.marked = false →
        p.count < (lanesRec u k.val).limitN →
        ∃ t, exec (.nakReceived k b) s = .next t ∧ (link t k.val).episode = some p.seq ∧
          (link t k.val).store = { p with count := p.count + 1, sentAt := none } :: rest ∧
          ((link s k.val).timerAt ≠ some s.now → CountedBy 1 0x27 k.val 6 u t) ∧
          ((link s k.val).timerAt = some s.now → readCtr t 0x27 k.val 6 = readCtr u 0x27 k.val 6) ∧
          CountedBy 1 0x27 k.val 5 s t) ∧
      (∀ (p : Stored) (rest : List Stored) (d : Nat), (link s k.val).store = p :: rest →
        replayDue s k.val = some d → d ≤ s.now → p.marked = false → p.count < (lanesRec s k.val).limitN →
        ∃ t, exec (.replayTimeout k) s = .next t ∧ (link t k.val).episode = some p.seq ∧
          (link t k.val).store = { p with count := p.count + 1, sentAt := none } :: rest ∧
          (link t k.val).timerAt = some s.now ∧ CountedBy 1 0x27 k.val 6 s t ∧ CountedBy 1 0x27 k.val 7 s t) ∧
      (∀ (b : Block) (x : VcSt) (d : Int), blockGood .audit b = true → (link s k.val).released = ackS b →
        x = vc s k.val (auditVcOf b) → d = auditDelta x (auditAc b) →
        (d = 0 → ∃ t, exec (.auditReceived k b) s = .next t ∧ SameBut [] s t) ∧
        (d ≠ 0 → d.natAbs ≤ x.partnerBv → ∃ t, exec (.auditReceived k b) s = .next t ∧
          CountedBy d.natAbs 0x27 k.val 13 s t ∧ (vc t k.val (auditVcOf b)).cRel = x.cRel ∧
          ((vc t k.val (auditVcOf b)).c : Int) = ((x.c : Int) - d) % 65536) ∧
        (d ≠ 0 → x.partnerBv < d.natAbs → ∃ t, exec (.auditReceived k b) s = .next t ∧
          CountedBy 1 0x27 k.val 14 s t ∧ (link t k.val).st = .sync)) ∧
      (∀ b : Block, blockGood .audit b = true → 2047 < beyond s k.val (ackS b) →
        ∃ t, exec (.auditReceived k b) s = .next t ∧ CountedBy 1 0x27 k.val 15 s t ∧ link t k.val = link s k.val)) ∧
    (ckRuns s = true →
      ((link s k.val).st ≠ .off → (link s k.val).st ≠ .detect →
        (lanesRec s k.val).limitM ≤ (link s k.val).retrains ∨ keptLanes s k.val = 0 →
        ∃ t, exec (.linkDown k) s = .next t ∧ (link t k.val).st = .detect ∧ (link t k.val).down = true ∧
          (link t k.val).store = [] ∧ CountedBy 1 0x27 k.val 11 s t) ∧
      ((link s k.val).st ≠ .off → s.supply.srefFault = false →
        (∀ b : Block, expectedType (link s k.val).st (blockType b) = false →
          ∃ t, exec (.controlBlockDiscard k b) s = .next t ∧ SameBut [.counters] s t ∧
            CountedBy 1 0x27 k.val 17 s t) ∧
        (∀ b : Block, expectedType (link s k.val).st (blockType b) = true → checkedType (blockType b) = true →
          crc8Good b = false →
          ∃ t, exec (.controlBlockDiscard k b) s = .next t ∧ SameBut [.counters] s t ∧
            CountedBy 1 0x27 k.val 18 s t)) ∧
      (∀ (j : PairIx) (v : VC), inBare s = false → eliminates s (2 * j.val) = true → inPlan s (2 * j.val) = true →
        (pair s j.val v.val).isReset = false → (pair s j.val v.val).lastPass + msCk 1 ≤ s.now →
        ∃ t, exec (.pairResetTimeout j v) s = .next t ∧ (pair t j.val v.val).isReset = true ∧
          CountedBy 1 0x29 (8 * j.val + v.val) 3 s t))

/-! ### Training and Curlew -/

/-- DETECT's beacon, 64 rows of TS1, and back-off (09 R213), and the states SYNC, ALIGN, PARAM and SPEEDUP: what each is
left for, and what goes out on the way (R211, R212, R214 to R216). -/
def Obligations.TrainingStatesComplete : Prop :=
  ∀ (s : State) (k : Link), serdesRun s = true →
    ((link s k.val).st = .detect →
      ((link s k.val).beaconDue ≤ s.now →
        ∃ t, exec (.detectBeacon k) s = .next t ∧ link t k.val = { link s k.val with
          beaconDue := s.now + msCk (link s k.val).backoff, beaconLeft := 64 }) ∧
      (∀ b : Block, trainingGood 0x80 b = true →
        ∃ t, exec (.ts1Detected k b) s = .next t ∧ (link t k.val).st = .sync ∧ (link t k.val).retrain = false ∧
          (link t k.val).stateDue = s.now + trainTimeout s k.val .sync)) ∧
    ((link s k.val).st = .active → (link s k.val).backoff ≠ 1 → (link s k.val).activeSince + msCk 1000 ≤ s.now →
      ∃ t, exec (.backoffReset k) s = .next t ∧ link t k.val = { link s k.val with backoff := 1 }) ∧
    (∀ (i : Fin 8) (on : Bool) (y : Nat), hasBit (keptLanes s k.val) i.val = true → (link s k.val).st ≠ .off →
      (link s k.val).st ≠ .detect →
      y = (if on then setBit (link s k.val).locked i.val else clrBit (link s k.val).locked i.val) →
      ∃ t, exec (.blockLock k i on) s = .next t ∧
        (y &&& keptLanes s k.val ≠ keptLanes s k.val → link t k.val = { link s k.val with
          locked := y
          aligned := if on then (link s k.val).aligned else clrBit (link s k.val).aligned i.val }) ∧
        (y &&& keptLanes s k.val = keptLanes s k.val → (link s k.val).st = .sync → (link t k.val).st = .align) ∧
        (y &&& keptLanes s k.val = keptLanes s k.val → (link s k.val).st = .speedup →
          (link s k.val).rate = (link s k.val).agreed → (link t k.val).st = .equalize)) ∧
    (∀ (m : BitVec 8) (y : Nat), (link s k.val).st = .align → y = m.toNat &&& (link s k.val).locked →
      ∃ t, exec (.alignComplete k m) s = .next t ∧
        (y &&& keptLanes s k.val ≠ keptLanes s k.val → link t k.val = { link s k.val with aligned := y }) ∧
        (keptLanes s k.val ≠ 0 → y &&& keptLanes s k.val = keptLanes s k.val → (link t k.val).st = .param ∧
          ∀ i, trainingBlock t k.val i = some (syncControl, mkParam 0 (paramContent s k.val 0)))) ∧
    ((link s k.val).st = .param →
      (∀ i, trainingBlock (countRow k.val s) k.val i = some (syncControl,
        mkParam (((link s k.val).paramNext + 1) % 12) (paramContent s k.val (((link s k.val).paramNext + 1) % 12)))) ∧
      (∀ b : Block, trainingGood 0x82 b = true → 12 ≤ bf b 8 4 →
        ∃ t, exec (.paramReceived k b) s = .next t ∧ CountedBy 1 0x27 k.val 17 s t ∧ link t k.val = link s k.val) ∧
      (∀ (b : Block) (y : Nat), trainingGood 0x82 b = true → bf b 8 4 < 12 → (link s k.val).paramAcked = false →
        y = (if mFind (link s k.val).params (bf b 8 4) = some b then setBit (link s k.val).paramSeen (bf b 8 4)
          else clrBit (link s k.val).paramSeen (bf b 8 4)) →
        ∃ t, exec (.paramReceived k b) s = .next t ∧
          (∀ n ∈ maskLanes s k.val (keptLanes s k.val), (readyCk s k.val 8, mkParamAck y) ∈ (lane t n).queue) ∧
          (link t k.val).paramSeen = y ∧ mFind (link t k.val).params (bf b 8 4) = some b) ∧
      (∀ b : Block, trainingGood 0x83 b = true → bf b 8 16 ≠ 0x0FFF →
        ∃ t, exec (.paramAckReceived k b) s = .next t ∧
          link t k.val = { link s k.val with paramAcked := false }) ∧
      (∀ (b : Block) (rate : Nat), trainingGood 0x83 b = true → bf b 8 16 = 0x0FFF →
        (link s k.val).paramSeen = 0x0FFF → paramsAgree s k.val = true → allLocked s k.val = true →
        keptLanes s k.val ≠ 0 →
        keptLanes s k.val - (keptLanes s k.val &&& bf (partnerParam s k.val 0) 30 8) = 0 →
        rate = bf (partnerParam s k.val 0) 12 2 →
        ∃ t, exec (.paramAckReceived k b) s = .next t ∧ (link t k.val).agreed = rate ∧
          (rate = (link s k.val).rate → (link t k.val).st = .equalize) ∧
          (rate ≠ (link s k.val).rate → (link t k.val).st = .speedup ∧ (link t k.val).speedLeft = some 16))) ∧
    ((link s k.val).st = .speedup → (link s k.val).rate ≠ (link s k.val).agreed → (link s k.val).speedLeft = none →
      (link s k.val).rowDue ≤ s.now →
      ∃ t, exec (.speedCountdownEnd k) s = .next t ∧ (link t k.val).rate = (link s k.val).agreed ∧
        (link t k.val).locked = 0 ∧ (link t k.val).st = .speedup ∧ (link t k.val).rowDue = s.now + usCk 1)

/-- EQUALIZE, the READY exchange, in which lanes that the module leaves out are excluded and an unused spare may join
(09 R217, R218, R221), the entry to ACTIVE (R218), a training state's timeout, DETECT's among them (R212, R219), and a
retrain (08 R192, R199; 09 R220). -/
def Obligations.EqualizeAndRetrainComplete : Prop :=
  ∀ (s : State) (k : Link), serdesRun s = true →
    ((link s k.val).st = .equalize →
      (∀ b : Block, trainingGood 0x85 b = true →
        ∃ t, exec (.eqReqReceived k b) s = .next t ∧
          (∀ n, physLane s k.val (bf b 8 3) = some n → lane t n = { lane s n with emphasis := bf b 12 4 }) ∧
          (physLane s k.val (bf b 8 3) = none → SameBut [] s t)) ∧
      (∀ (b : Block) (y z : Nat), trainingGood 0x86 b = true → hasBit (keptLanes s k.val) (bf b 8 3) = true →
        y = setBit (link s k.val).eqRecv (bf b 8 3) → (link s k.val).readySent = 0 →
        z = (link s k.val).eqSent &&& y &&& (link s k.val).locked &&& keptLanes s k.val →
        ∃ t, exec (.eqDoneReceived k b) s = .next t ∧
          (∀ n, physLane s k.val (bf b 8 3) = some n → (lane t n).emphasis = bf b 12 4) ∧
          (z ≠ keptLanes s k.val → link t k.val = { link s k.val with eqRecv := y }) ∧
          (z = keptLanes s k.val → (link t k.val).readySent = ownFinal s k.val ∧
            ∀ n ∈ maskLanes s k.val (keptLanes s k.val),
              (readyCk s k.val 8, mkReady (link s k.val).rxS (ownFinal s k.val)) ∈ (lane t n).queue)) ∧
      (∀ (b : Block) (i : Fin 8) (m y lost : Nat), trainingGood 0x87 b = true → m = (link s k.val).readySent →
        m ≠ 0 → y = setBit (link s k.val).readyRecv i.val →
        lost = (m &&& workingMask s k.val) - (m &&& workingMask s k.val &&& bf b 20 8) →
        (m &&& bf b 20 8 = m →
          ∃ t, exec (.readyReceived k i b) s = .next t ∧
            (m &&& y ≠ m → (link t k.val).readyRecv = y ∧ (link t k.val).st = .equalize) ∧
            (m &&& y = m → (link t k.val).st = .active ∧ (link t k.val).finalMask = m ∧
              (link t k.val).retrain = false ∧ (link t k.val).activeSince = s.now)) ∧
        (∀ (v : State) (n : Nat), lost ≠ 0 → v = excludeLanes k.val lost 7 s →
          n = equalized v k.val &&& (ownFinal v k.val &&& (m ||| (allLanes s k.val - workingMask s k.val))) →
          ∃ t, exec (.readyReceived k i b) s = .next t ∧
            (n = 0 → (link t k.val).st = .detect) ∧
            (n ≠ 0 → n &&& bf b 20 8 ≠ n → (link t k.val).readySent = n ∧ (link t k.val).readyRecv = y ∧
              (link t k.val).excluded = (link v k.val).excluded ∧ (link t k.val).st = .equalize)))) ∧
    ((link s k.val).st ≠ .off → (link s k.val).st ≠ .active → (link s k.val).stateDue ≤ s.now →
      ∃ t, exec (.trainingTimeout k) s = .next t ∧
        ((link s k.val).st = .detect → (link t k.val).st = .detect ∧ CountedBy 1 0x27 k.val 21 s t ∧
          (link t k.val).backoff = min 256 (2 * (link s k.val).backoff)) ∧
        ((link s k.val).st ≠ .detect → finishedLanes s k.val = 0 → (link t k.val).st = .detect ∧
          CountedBy 1 0x27 k.val 21 s t) ∧
        (finishedLanes s k.val ≠ 0 →
          ((link s k.val).st = .sync → (link t k.val).st = .align) ∧
          ((link s k.val).st = .align → (link t k.val).st = .param) ∧
          ((link s k.val).st = .speedup → (link t k.val).st = .equalize))) ∧
    ((link s k.val).st = .active →
      (∀ w : RetrainCause, w ≠ .timeout → (w = .closedEye → (closedLane s k.val).isSome = true) →
        ∃ t, exec (.retrain k w) s = .next t ∧ (link t k.val).st = .sync ∧ (link t k.val).retrain = true ∧
          (link t k.val).lastCause = causeCode w ∧ CountedBy 1 0x27 k.val 9 s t) ∧
      exec (.retrain k .timeout) s = .next s)

/-- Full maps and the sampler's moves (09 R222, R223, R226), fast maps and the choice of a setting (R217, R222), DFE
(R224) and CAL blocks, of which one that is wrong closes its points of the map (R225). -/
def Obligations.LanesComplete : Prop :=
  ∀ (s : State) (n : Lane), serdesRun s = true →
    (∀ (pts : BitVec 2048) (o x : LaneSt), mapRuns s n.val false = true →
      o = { lane s n.val with mapStart := s.now, spoiled := [] } →
      x = mapped o (withoutSpoiled (lane s n.val).spoiled pts) →
      ∃ t, exec (.eyeMapComplete n false pts) s = .next t ∧
        (x.eyeWidth < 4 → lane t n.val = { o with
          eyeWidth := x.eyeWidth, eyeHeight := x.eyeHeight, closedRun := o.closedRun + 1 } ∧
          CountedBy 1 0x26 n.val 4 s t) ∧
        (4 ≤ x.eyeWidth → s.quiet = true → (lane t n.val).phase = x.phase ∧ (lane t n.val).threshold = x.threshold ∧
          (lane t n.val).deferred = (phaseCalls x || thresholdCalls x || x.deferred)) ∧
        (4 ≤ x.eyeWidth → s.quiet = false →
          ((lane t n.val).phase = if phaseCalls x then
            (if 0 < phaseGap x then (x.phase + 1) % 64 else (x.phase + 63) % 64) else x.phase) ∧
          ((lane t n.val).latency = if phaseCalls x then
            (if 0 < phaseGap x then x.latency + samplerStep (laneRate s n.val)
             else x.latency - samplerStep (laneRate s n.val)) else x.latency) ∧
          ((lane t n.val).threshold = if thresholdCalls x then
            (if 0 < thresholdGap x then min 31 (x.threshold + 1) else x.threshold - 1) else x.threshold))) ∧
    (∀ (pts : BitVec 2048) (k i : Nat), mapRuns s n.val true = true → laneHome s n.val = some (k, i) →
      (link s k).keepEq = false → (lane s n.val).partnerSetting < 15 →
      ∃ t, exec (.eyeMapComplete n true pts) s = .next t ∧
        (lane t n.val).partnerSetting = (lane s n.val).partnerSetting + 1 ∧
        (readyCk s k 8, mkEq 0x85 i ((lane s n.val).partnerSetting + 1)) ∈ (lane t n.val).queue) ∧
    (∀ (pts : BitVec 2048) (k i : Nat), mapRuns s n.val true = true → laneHome s n.val = some (k, i) →
      (link s k).keepEq = false → (lane s n.val).partnerSetting = 15 →
      openPoints pts ≤ (lane s n.val).eqPoints → 8 ≤ (lane s n.val).eyeWidth → 4 ≤ (lane s n.val).eyeHeight →
      ∃ t, exec (.eyeMapComplete n true pts) s = .next t ∧
        (lane t n.val).partnerSetting = (lane s n.val).eqBest ∧
        (readyCk s k 8, mkEq 0x86 i (lane s n.val).eqBest) ∈ (lane t n.val).queue) ∧
    (∀ (e d1 d2 d3 : Bool), adapts s n.val = true → (∀ r, s.tables.cal = some r → r.dfe = true) →
      (lane s n.val).dfeDue ≤ 67 * s.now →
      ∃ t, exec (.dfeAdapt n e d1 d2 d3) s = .next t ∧ lane t n.val = { lane s n.val with
        taps := [tapStep e d1 ((lane s n.val).taps.getD 0 0), tapStep e d2 ((lane s n.val).taps.getD 1 0),
          tapStep e d3 ((lane s n.val).taps.getD 2 0)]
        dfeDue := max ((lane s n.val).dfeDue + 64 * slotCk (laneRate s n.val)) (67 * s.now) }) ∧
    (∀ (k i : Nat), laneActive s n.val = true → calDueNow s n.val = true →
      laneHome s n.val = some (k, i) → (link s k).asleep = false →
      ∃ t, exec (.calBlockSend n) s = .next t ∧ lane t n.val = { lane s n.val with
        calDue := (lane s n.val).calDue + laneSlots s n.val (2 ^ calRate s.tables n.val)
        calWait := some ((lane s n.val).calWait.getD 0) }) ∧
    (∀ k : Nat, (link s k).timeOwed = false → (lane s n.val).queue = [] →
      calMay s k n.val = true → 64 ≤ (lane s n.val).calWait.getD 0 →
      activeLane k n.val s = ((syncControl, calBody),
        setLane s n.val { lane s n.val with calWait := none, calLast := s.now })) ∧
    (∀ b : Block, laneActive s n.val = true → blockType b = 0x99 → b ≠ calBody →
      ∃ t, exec (.calBlockReceived n b) s = .next t ∧ SameBut [.lanes, .counters] s t ∧ CountedBy 1 0x26 n.val 5 s t ∧
        lane t n.val = { lane s n.val with spoiled := (lane s n.val).spoiled ++ pointsHere s n.val })

/-! ### The process image port -/

/-- In 16-bit mode, a read of half 0 of word n also latches bits [31:16] of the same word value; a read of half 1 of
word n as the next access returns the latched bits; any other access discards the latch (10 R233): a read of another
word's half 1, which returns that word's own upper half, a read in 32-bit mode, and every kind of host write. -/
def Obligations.HalfReadsNeverTorn : Prop :=
  ∀ (s : State) (pa : BitVec 17) (n : Nat), s.supply.inReset = false → s.power.level ≠ 4 →
    s.supply.bankP.brown = false →
    (s.straps.pipW16 = true → pa.toNat = 2 * n →
      ∃ t, exec (.halfReadLatch pa) s = .next t ∧ .pd s.now pa ((lowHalf (hostWord s n)).setWidth 32) ∈ t.out ∧
        t.halfLatch = some (n, highHalf (hostWord s n))) ∧
    (s.straps.pipW16 = true → pa.toNat = 2 * n + 1 → ∀ u, s.halfLatch = some (n, u) →
      ∃ t, exec (.halfReadLatch pa) s = .next t ∧ .pd s.now pa (u.setWidth 32) ∈ t.out ∧ t.halfLatch = none) ∧
    (s.straps.pipW16 = true → pa.toNat = 2 * n + 1 → (∀ u, s.halfLatch ≠ some (n, u)) →
      ∃ t, exec (.halfReadLatch pa) s = .next t ∧
        .pd s.now pa ((highHalf (hostWord s n)).setWidth 32) ∈ t.out ∧ t.halfLatch = none) ∧
    (s.straps.pipW16 = false → ∃ t, exec (.halfReadLatch pa) s = .next t ∧
      .pd s.now pa (hostWord s (pa.toNat % 65536)) ∈ t.out ∧ t.halfLatch = none) ∧
    (pipWrites s = true → ∀ (c : Instr) (v : Word) (be : BitVec 4) (w : Fin 13) (lag : Fin 5),
      c ∈ [.hostWrite pa v ⟨be, lag⟩, .eventFlagClear w v, .attnmaskWrite v be, .doorbellRing v, .hostltrWrite v be] →
      ∃ t, exec c s = .next t ∧ t.halfLatch = none)

/-- A host write lands in the bytes it enables of the word that its window reached as PWE_N rose (01 R19), or is ignored
and counted, by the word it addresses (03 R46, R60; 10 R230, R232, R235, R236, R243); an uncorrectable word keeps the
stored bits of the bytes that it does not enable, counted (R232); and in S3 a write to the station block wakes the device
(14 R317). -/
def Obligations.HostWritesLand : Prop :=
  ∀ (s : State) (pa : BitVec 17) (data v : Word) (w : Nat) (be b : BitVec 4) (lag : Fin 5), pipWrites s = true →
    w = accessWord s pa → v = accessData s pa data → b = accessBytes s pa be →
    (b = 0 → ∃ t, exec (.hostWrite pa data ⟨be, lag⟩) s = .next t ∧ SameBut [.halfLatch] s t) ∧
    (b ≠ 0 → s.boot.cleared = false →
      ∃ t, exec (.hostWrite pa data ⟨be, lag⟩) s = .next t ∧ SameBut [.halfLatch, .counters] s t ∧
        CountedBy 1 0x20 0 19 s t) ∧
    (b ≠ 0 → s.boot.cleared = true →
      (w < 0xFFC0 → inBare s = true →
        ∃ t, exec (.hostWrite pa data ⟨be, lag⟩) s = .next t ∧ SameBut [.halfLatch] s t) ∧
      (w < 0xFFC0 → inBare s = false →
        (hostWriteTarget s lag.val w = none → ∃ t, exec (.hostWrite pa data ⟨be, lag⟩) s = .next t ∧
          SameBut [.halfLatch, .ignWr, .counters] s t ∧ t.station.ignWr = s.station.ignWr + 1 ∧
          CountedBy 1 0x20 0 20 s t) ∧
        (∀ x, hostWriteTarget s lag.val w = some x → x < 0xFFC0 → writtenNow s x = false →
          ∃ t, exec (.hostWrite pa data ⟨be, lag⟩) s = .next t ∧ ∀ i : Fin 4,
            (b.getLsbD i.val = true → readByte t (4 * x + i.val) = byteOf v i.val) ∧
            (b.getLsbD i.val = false → uncorrectable (flips s .processImage 0 x) = false →
              readByte t (4 * x + i.val) = readByte s (4 * x + i.val)) ∧
            (b.getLsbD i.val = false → uncorrectable (flips s .processImage 0 x) = true →
              readByte t (4 * x + i.val) = byteOf (storedWord s x) i.val ∧ CountedBy 1 0x20 0 24 s t))) ∧
      (0xFFC0 ≤ w → ∃ t, exec (.hostWrite pa data ⟨be, lag⟩) s = .next t ∧
        (s.power.level = 3 → t.power.woken = true)) ∧
      (∀ n, w = 0xFFC0 + n → n ≤ 18 ∨ 39 ≤ n ∧ n ≤ 61 → ∃ t, exec (.hostWrite pa data ⟨be, lag⟩) s = .next t ∧
        SameBut [.halfLatch, .ignWr, .counters, .power] s t ∧ t.station.ignWr = s.station.ignWr + 1 ∧
        CountedBy 1 0x20 0 20 s t) ∧
      (∀ old, old = (if uncorrectable (flips s .processImage 0 w) then storedWord s w else sramWord s w) →
        (w = 0xFFD4 → ∃ t, exec (.hostWrite pa data ⟨be, lag⟩) s = .next t ∧
          t.station.heartbeat = mergeWord old v b) ∧
        (w = 0xFFD5 → ∃ t, exec (.hostWrite pa data ⟨be, lag⟩) s = .next t ∧ t.station.hbWindow = mergeWord old v b) ∧
        (w = 0xFFFE → ∃ t, exec (.hostWrite pa data ⟨be, lag⟩) s = .next t ∧
          t.station.hostInfo0 = mergeWord old v b) ∧
        (w = 0xFFFF → ∃ t, exec (.hostWrite pa data ⟨be, lag⟩) s = .next t ∧
          t.station.hostInfo1 = mergeWord old v b)) ∧
      (w = 0xFFE5 → ∃ t, exec (.hostWrite pa data ⟨be, lag⟩) s = .next t ∧
        t.station.ignWr = mergeWord s.station.ignWr v b) ∧
      (w = 0xFFE6 → ∃ t, exec (.hostWrite pa data ⟨be, lag⟩) s = .next t ∧ t.station.attnCount =
        mergeWord s.station.attnCount v b + (if s.station.attnAt = some s.now then 1 else 0)) ∧
      (w = 0xFFD3 → exec (.hostWrite pa data ⟨be, lag⟩) s = exec (.hostltrWrite v b) s) ∧
      (w = 0xFFD6 → exec (.hostWrite pa data ⟨be, lag⟩) s = exec (.attnmaskWrite v b) s) ∧
      (w = 0xFFD7 → exec (.hostWrite pa data ⟨be, lag⟩) s = exec (.doorbellRing (v &&& beMask b)) s) ∧
      (∀ i : Fin 13, w = 0xFFD8 + i.val →
        exec (.hostWrite pa data ⟨be, lag⟩) s = exec (.eventFlagClear i (v &&& beMask b)) s))

/-- Event flags clear where a 1 is written and no set of the same ck stands (10 R243); a write to EVENTS or ATTNMASK
that leaves PATN_N asserted releases it for 80 ck, and the pulse's end asserts it again, counted (R246); doorbells ring,
and from SERVICE one that no channel names is cleared in a later ck, counted (R243, R245); HOSTLTR lands (R247), and an
early write is counted (03 R46). -/
def Obligations.FlagWritesComplete : Prop :=
  ∀ s : State,
    (pipWrites s = true → s.boot.cleared = false → ∀ (c : Instr) (v : Word) (w : Fin 13),
      c ∈ [.eventFlagClear w v, .doorbellRing v] →
      ∃ t, exec c s = .next t ∧ SameBut [.halfLatch, .counters] s t ∧ CountedBy 1 0x20 0 19 s t) ∧
    (pipWrites s = true → s.boot.cleared = true →
      (∀ (w : Fin 13) (v b : Word), b = v &&& ~~~setNow s (24 + w.val) →
        ∃ t, exec (.eventFlagClear w v) s = .next t ∧
          (w = 0 → t.station.events = s.station.events &&& ~~~b ∧
            (patnOn s = true → s.station.events &&& ~~~b &&& ~~~s.station.attnMask ≠ 0 →
              t.station.rearmEnd = some (s.now + 80))) ∧
          (w = 1 → t.station.chHalf = s.station.chHalf &&& ~~~b.setWidth 64) ∧
          (w = 2 → t.station.chHalf = s.station.chHalf &&& ~~~(b.setWidth 64 <<< 32)) ∧
          (w = 3 → t.station.chFull = s.station.chFull &&& ~~~b.setWidth 64) ∧
          (w = 4 → t.station.chFull = s.station.chFull &&& ~~~(b.setWidth 64 <<< 32)) ∧
          (5 ≤ w.val → t.station.hevt = s.station.hevt &&& ~~~(b.setWidth 256 <<< (32 * (w.val - 5))))) ∧
      (∀ (v old : Word) (be : BitVec 4), be ≠ 0 →
        old = (if uncorrectable (flips s .processImage 0 0xFFD6) then storedWord s 0xFFD6 else s.station.attnMask) →
        ∃ t, exec (.attnmaskWrite v be) s = .next t ∧ t.station.attnMask = mergeWord old v be ∧
          (patnOn s = true → s.station.events &&& ~~~mergeWord old v be ≠ 0 →
            t.station.rearmEnd = some (s.now + 80))) ∧
      (∀ b : Fin 32, ∃ t, exec (.doorbellRing (1 <<< b.val)) s = .next t ∧
        t.station.doorbell = s.station.doorbell ||| 1 <<< b.val ∧ t.station.rungAt = s.now ∧
        t.station.rung.getLsbD b.val = true) ∧
      (∀ (v old : Word) (be : BitVec 4), be ≠ 0 →
        old = (if uncorrectable (flips s .processImage 0 0xFFD3) then storedWord s 0xFFD3 else s.station.hostLtr) →
        ∃ t, exec (.hostltrWrite v be) s = .next t ∧ t.station.hostLtr = mergeWord old v be)) ∧
    (∀ b : Fin 32, inService s = true → s.station.doorbell.getLsbD b.val = true → namesDoorbell s b.val = false →
      ¬(s.station.rungAt = s.now ∧ s.station.rung.getLsbD b.val = true) →
      (doorbellDuty s).station.doorbell.getLsbD b.val = false ∧
        CountedBy (unboundBits s).length 0x20 0 22 s (doorbellDuty s)) ∧
    (∀ d, running s = true → s.station.rearmEnd = some d → d ≤ s.now →
      ∃ t, exec .rearmPulseEnd s = .next t ∧ t.station.rearmEnd = none ∧
        (patnOn t = true → t.station.attnCount = s.station.attnCount + 1 ∧ .level (s.now + 2) .patnN 0 ∈ t.out))

/-! ### Avocet -/

/-- A recognised trigger starts a waiting channel, its first source read 3 ck later, or at once where it fell before the
descriptor was active or was kept pending (11 R258, R270); on a busy channel it is kept pending, or counted as an overrun
(R255); a source with no frame or message is skipped (R264), and the first read opens the oldest one whole (R256); at most
two reads are granted in a ck, to the lowest channels that ask (R259). -/
def Obligations.AvocetTriggersComplete : Prop :=
  ∀ (s : State) (c : Chan), ckRuns s = true → s.avocet.running = true →
    (triggerDue s c.val = true →
      (isWaiting s c.val = true → (chan s c.val).pendingFlag = false →
        (∀ a ∈ (chan s c.val).triggers.head?, (chan s c.val).activeFrom ≤ a) →
        ∃ t, exec (.avocetTrigger c) s = .next t ∧ (chan t c.val).status = .busy ∧ (chan t c.val).landed = 0 ∧
          (chan t c.val).issued = 0 ∧ (chan t c.val).startedAt = s.now + 3) ∧
      (∀ a, isWaiting s c.val = true → (chan s c.val).pendingFlag = false →
        (chan s c.val).triggers.head? = some a → a < (chan s c.val).activeFrom →
        ∃ t, exec (.avocetTrigger c) s = .next t ∧ (chan t c.val).status = .busy ∧
          (chan t c.val).startedAt = s.now) ∧
      (isWaiting s c.val = true → (chan s c.val).pendingFlag = true →
        ∃ t, exec (.avocetTrigger c) s = .next t ∧ (chan t c.val).status = .busy ∧
          (chan t c.val).startedAt = s.now ∧ (chan t c.val).pendingFlag = false ∧ CountedBy 1 0x2A c.val 0 s t) ∧
      ((chan s c.val).status = .busy →
        ((chan s c.val).pendingFlag = false → ∃ t, exec (.avocetTrigger c) s = .next t ∧
          (chan t c.val).pendingFlag = true ∧ (chan t c.val).status = .busy) ∧
        ((chan s c.val).pendingFlag = true → ∃ t, exec (.avocetTrigger c) s = .next t ∧
          (chan t c.val).pendingFlag = true ∧ CountedBy 1 0x2A c.val 0 s t))) ∧
    (triggerDue s c.val = false → startDue s c.val = true →
      ∃ t, exec (.avocetTrigger c) s = .next t ∧ (chan t c.val).status = .busy ∧
        (chan t c.val).startedAt = s.now ∧ (chan t c.val).pendingFlag = false) ∧
    (skipDue s c.val = true → (chan (skipEmpty c.val s) c.val).status = .waiting ∧
      CountedBy 1 0x2A c.val 2 s (skipEmpty c.val s)) ∧
    (∀ (r : DmaRec) (f : Frame) (d : Nat) (rest : List (Frame × Nat)), runningRec s c.val = some r →
      (chan s c.val).issued = 0 → r.srcSpace = 1 → (listener s (srcListener r)).held = (f, d) :: rest →
      (chan (issueRead c.val s) c.val).bytes = cutSource r f.bytes) ∧
    ((readGrants s).length ≤ 2 ∧
      (asksRead s c.val = true → c.val ∉ readGrants s → (readGrants s).length = 2) ∧
      (mSorted s.chans = true → c.val ∈ readGrants s → ∀ d < c.val, asksRead s d = true → d ∈ readGrants s))

/-- A write group lands where its descriptor says, as the elements were read (11 R257, R261); half and full completions
set their flags and step to the next descriptor, active from the ck after (R251, R252, R260, R270); a bus error stops
every channel, which keeps its descriptor, and discards every open frame buffer (R265, R266); and frames and messages
held for Avocet age out at two cycles, each counted and its room freed (12 R275, R277). -/
def Obligations.AvocetCompletionsComplete : Prop :=
  ∀ s : State, ckRuns s = true →
    (∀ (c : Chan) (r : DmaRec) (v : State), s.avocet.running = true → runningRec s c.val = some r →
      v = landGroup c.val s →
      (r.dstSpace = 0 → groupDue s (chan s c.val) = true → writeError s c.val r = none →
        (∀ w, hardwareTarget s w = w) → r.dst % 2 ^ 18 + (chan s c.val).wrote ≤ 4 * 0xFFC0 →
        ∀ (i : Nat) (b : Byte), (chan s c.val).landed ≤ i → i < (chan s c.val).wrote →
          (chan s c.val).bytes[i]? = some b → readByte v (r.dst % 2 ^ 18 + i) = b) ∧
      (halfDue v c.val = true →
        ∃ t, exec (.avocetHalfCompletion c) s = .next t ∧ (chan t c.val).halfDone = true ∧
          (chan t c.val).status = .busy ∧
          (r.half = true → r.patn = true → t.station.chHalf.getLsbD c.val = true)) ∧
      (fullDue v c.val = true →
        ∃ t, exec (.avocetFullCompletion c) s = .next t ∧
          (r.full = true → r.patn = true → t.station.chFull.getLsbD c.val = true) ∧
          ((chan s c.val).shadow = none → (chan t c.val).status = .idle) ∧
          (∀ x, (chan s c.val).shadow = some x → (chan t c.val).status = .waiting ∧ (chan t c.val).active = some x ∧
            (chan t c.val).activeFrom = s.now + 1 ∧ (chan t c.val).startsNow = (x.2.trig == 0) ∧
            (chan t c.val).pendingFlag = (chan s c.val).pendingFlag))) ∧
    (∀ (c : Chan) (e : BusCause × Nat × Nat), s.avocet.running = true → busError s c.val = some e →
      ∃ t, exec (.avocetBusError c e.1) s = .next t ∧ t.avocet.running = false ∧ t.avocet.stopped = true ∧
        (∀ d : Chan, chan t d.val = { ChanSt.init with
          status := if (chan s d.val).status = .idle then .idle else .stopped
          active := (chan s d.val).active, shadow := (chan s d.val).shadow }) ∧
        (∀ q, (stream t q).assembly = none) ∧ CountedBy 1 0x20 0 30 s t ∧
        s.faults.waiting.length < t.faults.waiting.length) ∧
    (∀ (l : Stream) (f : Frame) (d : Nat) (rest : List (Frame × Nat)), (listener s l.val).held = (f, d) :: rest →
      d ≤ s.now →
      ∃ t, exec (.listenAgeDiscard l) s = .next t ∧ (listener t l.val).held = rest ∧
        CountedBy 1 0x2D l.val 10 s t) ∧
    (∀ (k : Link) (v : VC) (i : Nat) (m : Msg), agedMessage s k.val v.val = some i →
      (vc s k.val v.val).rxMsgs[i]? = some m →
      ∃ t, exec (.lanepoolAgeDiscard k v) s = .next t ∧
        (vc t k.val v.val).rxMsgs = (vc s k.val v.val).rxMsgs.eraseIdx i ∧
        CountedBy 1 0x28 (8 * k.val + v.val) 6 s t)

/-! ### Hidiquel -/

/-- A response joins the class queue of its port that its C-tag's PCP names, with the opcode, status, payload, device
counter and tag of R284 to R287, where the 32-cell pool and the queue have room; a status other than 0x00 is counted
(13 R285, R289; 12 R271). -/
def Obligations.ResponsesJoinTheirQueue : Prop :=
  ∀ (a : Asker) (op status : Nat) (payload : List Byte) (s : State) (n : Nat),
    n = frameLen (plainFrame s.frameIds (responseBytes s a op status payload) (hck s) (hck s + oneCycle s)) →
    (hidTxCells s + cellsOf n ≤ 32 → (classQueue s a.port.val (responseClass a)).length < 256 →
      n ≤ maxFrame s a.port.val →
      ∃ f ∈ classQueue (respond a op status payload s) a.port.val (responseClass a),
        f.bytes = responseBytes s a op status payload ∧ f.hid = true) ∧
    (status ≠ 0 → CountedBy 1 0x20 0 38 s (respond a op status payload s))

/-- DISCOVER answers the announce payload, READ the objects asked for; COUNTER SNAPSHOT is answered as its ck ends, its
counters then read and cleared where the request says so; EVENT SUBSCRIBE replaces the subscriptions; a reserved opcode answers 0x01; a
payload that does not fit is refused with 0x02 (13 R289, R290, R299, R302). -/
def Obligations.ReadingRequestsComplete : Prop :=
  ∀ (s : State) (p : Port) (r : HidFrame) (b : List Byte), b = requestPayload r →
    (Proven p 1 r s → ∃ t, exec (.discover p r) s = .next t ∧ SameBut [.mgmtRx, .counters] s t ∧
      (b = [] → Responded (askerOf p r) 1 0 (announcePayload s) s t) ∧
      (b ≠ [] → Responded (askerOf p r) 1 2 [] s t)) ∧
    (Proven p 2 r s → ∃ t, exec (.read p r) s = .next t ∧ SameBut [.mgmtRx, .counters] s t ∧
      (b.length % 4 = 0 → 0 < b.length → b.length ≤ 256 → Responded (askerOf p r) 2 0
        (readList s (r.flags.getLsbD 3) (words4 b) (payloadRoom s p.val)) s t) ∧
      (b.length % 4 ≠ 0 ∨ b.length = 0 ∨ 256 < b.length → Responded (askerOf p r) 2 2 [] s t)) ∧
    (Proven p 6 r s → ∃ t, exec (.counterSnapshot p r) s = .next t ∧
      SameBut [.mgmtRx, .snaps, .counters] s t ∧
      (b.length < 12 ∨ b.length % 8 ≠ 4 ∨ 16 < (b.length - 4) / 8 →
        t.hid.snaps = s.hid.snaps ∧ Responded (askerOf p r) 6 2 [] s t) ∧
      (12 ≤ b.length → b.length % 8 = 4 → (b.length - 4) / 8 ≤ 16 → t.hid.snaps = s.hid.snaps ++ [{
        asker := askerOf p r, clear := hasBit (fld b 0 1) 0
        parts := (List.range ((b.length - 4) / 8)).flatMap fun i =>
          rangeParts (fld b (4 + 8 * i) 4) (fld b (8 + 8 * i) 2) }])) ∧
    (∀ (x : Snap) (bytes : List Byte) (ids : List Nat), s.hid.snaps = [x] → snapRead s x = (bytes, ids) →
      (snapDuty s).hid.snaps = [] ∧ (snapDuty s).highWater = s.rxCells ∧
      (∃ u, snapDuty s = respond x.asker 6 0 bytes u ∧ u.classQ = s.classQ ∧
        responseBytes u x.asker 6 0 bytes = responseBytes s x.asker 6 0 bytes) ∧
      ∀ id, frameCounter id = false → mGetD (snapDuty s).counters id 0 =
        if x.clear = true ∧ id ∈ ids ∧ id ≠ ctrId 0x20 0 32 then 0 else mGetD s.counters id 0) ∧
    (Proven p 7 r s → inBare s = false → b.length % 4 = 0 → b.length ≤ 128 → ∀ l,
      l = (List.range (b.length / 4)).map (fun i => (fld b (4 * i) 1, fld b (4 * i + 1) 1)) →
      ∃ t, exec (.eventSubscribe p r) s = .next t ∧ SameBut [.mgmtRx, .counters, .subs] s t ∧
        (l.all subscriptionOk = true → t.hid.subs = l.eraseDups ∧ Responded (askerOf p r) 7 0 [] s t) ∧
        (l.all subscriptionOk = false → t.hid.subs = s.hid.subs ∧ Responded (askerOf p r) 7 0x0A [] s t)) ∧
    (∀ o : Byte, Proven p o.toNat r s → ∃ t, exec (.reservedOpcode p o r) s = .next t ∧
      SameBut [.mgmtRx, .counters] s t ∧ Responded (askerOf p r) o.toNat 1 [] s t)

/-- STAGE replaces the staged set's entries that it accepts and answers each entry's status; COMMIT binds the set to
the first epoch at or after its time and answers that cycle, or the ID of the first fault; ABORT empties the set and
cancels the commit, unless its epoch is nearer than 100 µs (13 R292 to R294). -/
def Obligations.StagingRequestsComplete : Prop :=
  ∀ (s : State) (p : Port) (r : HidFrame) (b : List Byte), b = requestPayload r → inBare s = false →
    (Proven p 3 r s → s.straps.mgmtLock = false → 4 ≤ b.length → s.commit = none →
      (∀ x, s.staged = some x → x.number = fld b 0 2) →
      ∀ l, stageEntries (fld b 2 2) (b.drop 4) = some l →
      ∃ t, exec (.stage p r) s = .next t ∧ SameBut [.staged, .mgmtRx, .counters] s t ∧
        Responded (askerOf p r) 3 0 (l.flatMap (fun e => leBytes 1 (entryStatus e.1 e.2) ++ [0, 0, 0])) s t ∧
        (∀ l1 id v, l = l1 ++ [(id, v)] → entryStatus id v = 0 → ∃ x, t.staged = some x ∧ x.number = fld b 0 2 ∧
          mFind x.entries id = some (if v.isEmpty then none else some v)) ∧
        ((∀ e ∈ l, entryStatus e.1 e.2 ≠ 0) → t.staged = s.staged)) ∧
    (Proven p 4 r s → s.straps.mgmtLock = false → b.length = 20 → fld b 4 8 < 2 ^ 48 → fld b 12 4 < 1000000000 →
      ∀ time x, time = fld b 4 8 * unitsPerSec + fld b 12 4 * unitsPerNs → x = stagedSet s (fld b 0 2) →
      ∃ t, exec (.commit p r) s = .next t ∧ SameBut [.commit, .heronCopies, .mgmtRx, .counters] s t ∧
        (s.commit = none → s.heron.started = true → x.number = fld b 0 2 →
          1000000 * unitsPerNs ≤ (epochOf s time).1 → time ≤ workingCount s + 3600 * unitsPerSec →
          (commitBad s x = [] → t.commit = some { number := fld b 0 2, time := time } ∧
            Responded (askerOf p r) 4 0 (leBytes 8 (epochOf s time).2) s t) ∧
          (∀ bad rest, commitBad s x = bad :: rest → t.commit = none ∧
            Responded (askerOf p r) 4 9 (leBytes 4 (failId bad)) s t)) ∧
        (s.commit = some { number := fld b 0 2, time := time } → t.commit = s.commit ∧
          Responded (askerOf p r) 4 0 (leBytes 8 (epochOf s time).2) s t)) ∧
    (Proven p 5 r s → b.length = 4 →
      ∃ t, exec (.abort p r) s = .next t ∧ SameBut [.staged, .commit, .heronCopies, .mgmtRx, .counters] s t ∧
        (s.commit = none → (∀ x, s.staged = some x → x.number = fld b 0 2) →
          t.staged = none ∧ t.commit = none ∧ Responded (askerOf p r) 5 0 [] s t) ∧
        (∀ c, s.commit = some c → c.number = fld b 0 2 →
          (100000 * unitsPerNs ≤ (epochOf s c.time).1 →
            t.staged = none ∧ t.commit = none ∧ Responded (askerOf p r) 5 0 [] s t) ∧
          ((epochOf s c.time).1 < 100000 * unitsPerNs →
            t.staged = s.staged ∧ t.commit = s.commit ∧ Responded (askerOf p r) 5 8 [] s t)))

/-- IMAGE TRANSFER programs the chunk that it expects, after an erase for the first, repeats its answer to the last
chunk, and checks the slot after the last one, which stands down; a first chunk that begins elsewhere than at offset 0 is
refused; ten seconds without a chunk end it (13 R296), run from the answer to the last one (log entry 46). -/
def Obligations.ImageTransferCompletes : Prop :=
  ∀ (s : State),
    (∀ (p : Port) (r : HidFrame) (b : List Byte) (slot : Slot) (len off : Nat) (last : Bool), b = requestPayload r →
      Proven p 8 r s → s.straps.mgmtLock = false → b.length = 8 + len → fld b 2 2 = len → fld b 0 1 ≤ 1 →
      slot = slotOf (fld b 0 1) → off = fld b 4 4 → last = hasBit (fld b 1 1) 1 → s.supply.bankQ.brown = false →
      s.boot.runSlot ≠ some slot → flashBusy s = false →
      ∃ t, exec (.imageTransfer p r) s = .next t ∧ SameBut [.xfer, .mgmtRx, .counters] s t ∧
        (hasBit (fld b 1 1) 0 = true → off ≠ 0 →
          t.hid.xfer = s.hid.xfer ∧ Responded (askerOf p r) 8 2 [] s t) ∧
        (chunkStatus len off last = 0 →
          (s.hid.xfer = none ∧ hasBit (fld b 1 1) 0 = true ∧ off = 0) ∨
          (∃ x, s.hid.xfer = some x ∧ x.slot = slot ∧ off = x.next ∧ hasBit (fld b 1 1) 0 = false ∧
            ¬(off = x.lastOffset ∧ len = x.lastLen)) →
          t.hid.xfer = some {
            slot := slot, next := off + len, lastOffset := off, lastLen := len,
            idleDue := s.now + 8000000000, busy := some (askerOf p r), lastChunk := last } ∧
          .flash s.now slot off (b.drop 8) ∈ t.out ∧ (s.hid.xfer = none → .flashErase s.now slot ∈ t.out)) ∧
        (∀ x, s.hid.xfer = some x → x.slot = slot → (hasBit (fld b 1 1) 0 = true → off = 0) → off = x.lastOffset → len = x.lastLen →
          t.hid.xfer = some { x with idleDue := s.now + 8000000000 } ∧
          Responded (askerOf p r) 8 0 [0, 0, 0, 0] s t)) ∧
    (∀ (x : Xfer) (a : Asker) (f : FlashResult), hidServes s = true → s.hid.xfer = some x → x.busy = some a →
      ∃ t, exec (.imageTransferDone f) s = .next t ∧ SameBut [.boot, .xfer, .counters] s t ∧
        (f.programmed = false → t.hid.xfer = none ∧ Responded a 8 0x0B [] s t) ∧
        (f.programmed = true → x.lastChunk = false → t.hid.xfer = some { x with
            busy := none, idleDue := s.now + 8000000000 } ∧
          Responded a 8 0 [0, 0, 0, 0] s t) ∧
        (f.programmed = true → x.lastChunk = true → t.hid.xfer = none ∧ stoodDown (standWord t x.slot) = true ∧
          ∀ c, c = (checkRegion (standDown x.slot s) x.slot f.read).code →
            Responded a 8 (if c = 0 then 0 else 0x0C) (codePayload c) s t)) ∧
    (∀ x, hidServes s = true → s.hid.xfer = some x → x.busy = none → x.idleDue ≤ s.now →
      ∃ t, exec .transferIdleTimeout s = .next t ∧ SameBut [.xfer] s t ∧ t.hid.xfer = none)

/-- SLOT SWITCH checks the slot, makes it stand and the other stand down, and answers, its reset following that response
(13 R297); ROLLBACK-FLOOR RAISE blows the fuses up to the floor asked for and answers it, or refuses a lower one (R298). -/
def Obligations.SwitchAndRaiseComplete : Prop :=
  ∀ (s : State),
    (∀ (p : Port) (r : HidFrame) (b : List Byte), b = requestPayload r → Proven p 9 r s → b.length = 4 →
      ∃ t, exec (.slotSwitch p r) s = .next t ∧ SameBut [.switch, .mgmtRx, .counters] s t ∧
        (1 < fld b 0 1 → t.hid.switch = s.hid.switch ∧ Responded (askerOf p r) 9 0x0A [] s t) ∧
        (fld b 0 1 ≤ 1 → s.hid.xfer.isSome = true ∨ s.hid.switch.isSome = true →
          t.hid.switch = s.hid.switch ∧ Responded (askerOf p r) 9 6 [] s t) ∧
        (fld b 0 1 ≤ 1 → s.hid.xfer = none → s.hid.switch = none → t.hid.switch =
          some { slot := slotOf (fld b 0 1), asker := askerOf p r, answer := none, resetAt := none })) ∧
    (∀ (w : Switch) (x : SlotRead) (c : Nat), hidServes s = true → s.hid.switch = some w → w.answer = none →
      w.resetAt = none → c = (checkRegion s w.slot x).code →
      ∃ t, exec (.slotSwitchCheckDone x) s = .next t ∧ SameBut [.boot, .switch, .counters] s t ∧
        (c ≠ 0 → t.hid.switch = none ∧ t.boot = s.boot ∧ Responded w.asker 9 0x0C (codePayload c) s t) ∧
        (c = 0 → switchWords s w.slot = none →
          t.hid.switch = none ∧ t.boot = s.boot ∧ Responded w.asker 9 0x0E [] s t) ∧
        (∀ wx wo, c = 0 → switchWords s w.slot = some (wx, wo) →
          standWord t w.slot = wx ∧ standWord t (otherSlot w.slot) = wo ∧ ∃ y, t.hid.switch = some y ∧
            y.slot = w.slot ∧ (y.answer.isSome = true ∨ y.resetAt = some s.now))) ∧
    (∀ (p : Port) (r : HidFrame) (b : List Byte), b = requestPayload r → Proven p 10 r s →
      s.straps.mgmtLock = false → inBare s = false → b.length = 4 → s.hid.raise = none →
      ∃ t, exec (.rollbackFloorRaise p r) s = .next t ∧ SameBut [.raise, .mgmtRx, .counters] s t ∧
        (127 < fld b 0 1 ∨ fld b 0 1 < otpFloor s.otp →
          t.hid.raise = none ∧ Responded (askerOf p r) 10 0x0D (floorPayload s) s t) ∧
        (fld b 0 1 = otpFloor s.otp → t.hid.raise = none ∧ Responded (askerOf p r) 10 0 (floorPayload s) s t) ∧
        (otpFloor s.otp < fld b 0 1 → fld b 0 1 ≤ 127 →
          t.hid.raise = some { target := fld b 0 1, asker := askerOf p r })) ∧
    (∀ r, hidServes s = true → s.hid.raise = some r → otpFloor s.otp ≤ r.target → r.target ≤ 127 →
      ∃ t, exec .floorRaiseDone s = .next t ∧ SameBut [.otp, .raise, .counters] s t ∧ t.hid.raise = none ∧
        otpFloor t.otp = r.target ∧ Responded r.asker 10 0 [BitVec.ofNat 8 r.target, 0, 0, 0] s t)

/-! ### Power -/

/-- The level among S0 to S2 follows E, each deeper entry counted; EFFTOL holds E in whole µs (14 R307, R311); what
sleeps goes deep at S2, and below S2 a port begins its 8 µs exit, at S0 every lane wakes (R312, R314). -/
def Obligations.LevelsComplete : Prop :=
  ∀ s : State, ckRuns s = true →
    (shallowLevel s ≠ s.power.level → ∃ t, exec .powerLevelChange s = .next t ∧
      SameBut [.status, .ports, .links, .counters, .power] s t ∧ t.power.level = shallowLevel s ∧
      (s.power.level < shallowLevel s → CountedBy 1 0x20 0 (44 + shallowLevel s) s t) ∧
      (∀ k : Link, (shallowLevel s = 2 → (link s k.val).asleep = true → (link t k.val).deep = true) ∧
        (shallowLevel s < 2 → (link t k.val).deep = false ∨ (link s k.val).deep = false) ∧
        (shallowLevel s = 0 → (link t k.val).asleep = false)) ∧
      ∀ p : Port, shallowLevel s < 2 → (port s p.val).lowPower = true → (port s p.val).sendAfter = 0 →
        (port t p.val).sendAfter = s.now + 6400) ∧
    (s.boot.cleared = true → s.power.efftolDue ≤ s.now → ∃ t, exec .efftolUpdate s = .next t ∧
      SameBut [.status, .power] s t ∧ t.power.efftolDue = s.now + 800 ∧ t.station.effTol =
        match effective s with | none => 0xFFFFFFFF | some e => BitVec.ofNat 32 (e / (1000 * unitsPerNs)))

/-- The lanes of an idle link with nothing to send fall asleep from S1 and wake when the link has something to send,
after IDLE for 0.4 µs and 7.6 µs more where the transmitter was down; after 10 ms of sleep its TIME block falls due,
in S3 it leaves with the lanes asleep; in S2 an idle port goes into low power, and 8 µs after its exit began it is out
of it (14 R312, R314, R316). -/
def Obligations.LightSleepCompletes : Prop :=
  ∀ s : State,
    (∀ k : Link, ckRuns s = true → 1 ≤ s.power.level → laneIdle s k.val = true → wakeCalled s k.val = false →
      ∃ t, exec (.laneSleep k) s = .next t ∧ SameBut [.links] s t ∧ link t k.val = { link s k.val with
        asleep := true, deep := decide (2 ≤ s.power.level), sleepSince := s.now }) ∧
    (∀ k : Link, ckRuns s = true → (link s k.val).asleep = true → wakeCalled s k.val = true →
      ∃ t, exec (.laneWake k) s = .next t ∧ SameBut [.links] s t ∧ (link t k.val).asleep = false ∧
        (link t k.val).deep = false ∧ (link t k.val).wakeEnd =
          max s.now (link s k.val).wakeEnd + if (link s k.val).deep then 6400 else 320) ∧
    (∀ k : Link, running s = true → (link s k.val).asleep = true → (link s k.val).sleepSince + 8000000 ≤ s.now →
      ∃ t, exec (.sleepKeepalive k) s = .next t ∧ SameBut [.links] s t ∧
        (s.power.level ≠ 3 → (link t k.val).asleep = false ∧ (link t k.val).timeDue = s.now) ∧
        (s.power.level = 3 → (link t k.val).asleep = true ∧ (link t k.val).sleepSince = s.now ∧
          ((lanesRec s k.val).timeBlocks = true → ∀ n, n = timingLane s k.val →
            .row s.now k.val [(n, (sendWord n syncControl (timeBlock s k.val) s).1)] ∈ t.out))) ∧
    (∀ p : Port, ckRuns s = true → 2 ≤ s.power.level → (port s p.val).up = true → (port s p.val).lowPower = false →
      portIdle s p.val = true →
      ∃ t, exec (.portLowPowerEntry p) s = .next t ∧ SameBut [.ports] s t ∧ (port t p.val).lowPower = true) ∧
    (∀ p : Port, ckRuns s = true → (port s p.val).lowPower = true → (port s p.val).sendAfter ≠ 0 →
      (port s p.val).sendAfter ≤ s.now →
      ∃ t, exec (.portLowPowerExit p) s = .next t ∧ SameBut [.ports] s t ∧ (port t p.val).lowPower = false ∧
        (port t p.val).sendAfter = 0)

/-- S3 is entered when quiet long enough and left at a wake cause, the boundaries passed being processed then (14 R315
to R317); S4 leaves nothing but Bittern's domain, which a magic or pattern frame, a link change or WAKE_N wakes where
the record enables it; a woken Bittern ends S4, the internal reset still asserted (R318 to R321). -/
def Obligations.DeepSleepsComplete : Prop :=
  ∀ s : State,
    (ckRuns s = true → quietLong s = true → s3Allowed s = true → ∃ t, exec .s3Entry s = .next t ∧
      SameBut [.status, .links, .counters, .power] s t ∧ t.power.level = 3 ∧ t.power.s3Since = s.now ∧
      CountedBy 1 0x20 0 47 s t ∧ ∀ k : Link, (link s k.val).asleep = true → (link t k.val).deep = true) ∧
    (∀ w : WakeCause, running s = true → s.power.level = 3 → wakeHolds s w = true →
      ∃ t, exec (.s3Exit w) s = .next t ∧ t.power.level = 0 ∧
        (∀ k : Link, (link t k.val).asleep = false) ∧ (boundaryDue s = true → s.heron.cycle < t.heron.cycle) ∧
        (boundaryDue s = false → SameBut [.status, .links, .ports, .counters, .power] s t ∧
          t.heron.cycle = s.heron.cycle ∧ ∀ p : Port, w = .frame p → CountedBy 1 0x24 (8 * p.val) 3 s t)) ∧
    (∀ (w : Bool) (r : PowerRec), running s = true → s.tables.power = some r → s4Allowed s w = true →
      ∃ t, exec (.s4Entry w) s = .next t ∧ t.power.level = 4 ∧ t.supply.inReset = true ∧
        t.power.bittern = some { record := r, address := deviceAddr s, mgmtAddress := mgmtAddr s,
                                 port := s.straps.bitternPort.toNat, faultN := faultLow s, woken := false } ∧
        t.mem = [] ∧ t.tables = State.reset.tables ∧ t.commit = none ∧ t.staged = none ∧ t.faults = State.reset.faults ∧
        .level s.now .ppsOut 0 ∈ t.out ∧ .level s.now (.evtOut 0) 0 ∈ t.out ∧ .level s.now (.evtOut 1) 0 ∈ t.out) ∧
    (∀ (x : Bittern) (c : Instr), s.power.bittern = some x →
      (∃ b, c = .bitternFrame b ∧ frameWakes x b = true) ∨ (∃ u, c = .bitternLinkChange u ∧ x.record.wakeLink = true) ∨
        (c = .wakeN ∧ x.record.wakePin = true) →
      ∃ t, exec c s = .next t ∧ SameBut [.power] s t ∧ t.power.bittern = some { x with woken := true }) ∧
    (∀ x : Bittern, s.power.bittern = some x → x.woken = true →
      ∃ t, exec .s4Exit s = .next t ∧ SameBut [.power] s t ∧ t.power.level = 0 ∧ t.power.bittern = none)

/-! ### Turnstone and the scrubber -/

/-- A low pulse of 10 ns on FREEZE_N latches the freeze with the edge's stamps, QCS_N high and MDC low as QS stops (of a
powered bank), is held until the ladder measurement
ends, or is ignored and counted, by FREEZE_ARM (17 R345); the readout gives the stream's nibbles in order from byte 0,
the low half of a byte first, TS_DO low before and after (R349). -/
def Obligations.FreezeAndReadoutComplete : Prop :=
  ∀ s : State,
    (∀ (n : Nat) (ps : Fin 1250), running s = true → 10 ≤ n →
      ∃ t, exec (.freezeN n ps) s = .next t ∧ SameBut [.freeze, .counters] s t ∧
        (s.ladder.done = false → s.freeze.held = false → t.freeze.held = true ∧ t.freeze.latched = s.freeze.latched) ∧
        (s.ladder.done = true → s.straps.freezeArm = true → t.freeze.latched = true ∧
          (t.freeze.stampLocal, t.freeze.stampWorking) = freezeStamps ps.val s ∧
          (s.supply.bankQ.unpowered = false →
            .level (s.now + 96) .qcsN 1 ∈ t.out ∧ .level (s.now + 96) .mdc 0 ∈ t.out)) ∧
        (s.ladder.done = true → s.straps.freezeArm = false → t.freeze = s.freeze ∧ CountedBy 1 0x20 0 42 s t)) ∧
    (∀ m, frozen s = true → s.readout.running = false → ∃ t, exec (.readoutStart m) s = .next t ∧
      SameBut [.readout] s t ∧ t.readout = { s.readout with running := true, memsel := m, pos := 0 }) ∧
    (frozen s = true → s.readout.running = true → ∃ t, exec .readoutNibble s = .next t ∧ SameBut [.readout] s t ∧
      t.readout.pos = s.readout.pos + 1 ∧ t.readout.running = true ∧
      (∀ b, (readoutStream s)[s.readout.pos / 2]? = some b →
        t.readout.tsDo = if s.readout.pos % 2 = 0 then b.toNat % 16 else b.toNat / 16) ∧
      ((readoutStream s).length ≤ s.readout.pos / 2 → t.readout.tsDo = 0)) ∧
    (frozen s = true → s.readout.running = true → ∃ t, exec .readoutEnd s = .next t ∧ SameBut [.readout] s t ∧
      t.readout.running = false ∧ t.readout.tsDo = 0)

/-- A scrub read falls due 16 ck after the one before and takes the memory's words in turn (15 R327); it corrects a
word with one flipped bit and counts it (R328), and an uncorrectable one is logged and rewritten, in the process image as
zero, the station block's words that the host writes among them (R329). -/
def Obligations.ScrubbingCompletes : Prop :=
  ∀ (s v : State) (m : MemoryId) (u : List Upset) (w : Nat), ckRuns s = true → s.boot.pllLocked = true →
    (scrub s (memCode m)).due ≤ s.now → v = each u addUpset s → w = (scrub s (memCode m)).next →
    ∃ t, exec (.scrubRead m u) s = .next t ∧
      scrub t (memCode m) = { next := (w + 1) % m.words, due := s.now + 16 } ∧
      (m ∈ [.packetBuffer, .lanePool, .replayStore, .processImage] → flips t m 0 w = [] ∧
        ((flips v m 0 w).length = 0 → t.faults = s.faults) ∧
        ((flips v m 0 w).length = 1 → t.faults = { s.faults with
          corrected := min 0xFFFFFFFF (s.faults.corrected + 1) }) ∧
        (2 ≤ (flips v m 0 w).length → s.faults.waiting.length < t.faults.waiting.length ∧
          (m = .processImage → CountedBy 1 0x20 0 24 s t ∧ (w < 0xFFC0 → readWord t w = 0) ∧
            ∀ n ∈ [19, 20, 21, 22, 62, 63], w = 0xFFC0 + n → stationWord t n = 0)))

/-! ### Reset, addressing, and what each family leaves alone -/

/-- What the spec says of the device right after reset: the internal reset asserted and FAULT_N low, phase RESET with no
slot tried, every Dunlin counter at zero and the nominal increment, the image, the fault log and the corrected-error
total empty, FLOG's start value, HOSTLTR at zero, back-off 1 ms, device frames counting from 1, requests from above 0,
no subscriptions, level S0. -/
def Obligations.ResetState : Prop :=
  let s := State.reset
  s.pending = [] ∧ s.supply.inReset = true ∧ faultLow s = true ∧ s.boot.phase = .reset ∧
  s.boot.resultA = 0xE ∧ s.boot.resultB = 0xE ∧ s.boot.runSlot = none ∧
  s.dunlin.localCount = 0 ∧ s.dunlin.dom0.count = 0 ∧ s.dunlin.dom1.count = 0 ∧
  s.dunlin.dom0.inc = nominalInc ∧ s.dunlin.dom1.inc = nominalInc ∧
  (∀ a, readByte s a = 0) ∧ s.faults.made = 0 ∧ s.faults.corrected = 0 ∧ flogWord s = 0x3F ∧
  s.station.hostLtr = 0 ∧ (∀ k, (link s k).backoff = 1 ∧ (link s k).st = .off) ∧
  s.hid.txCount = 1 ∧ s.hid.rxHigh = 0 ∧ s.hid.subs = [] ∧ s.power.level = 0 ∧ s.freeze.latched = false ∧
  (∀ cls i n, readCtr s cls i n = 0)

/-- In 16-bit mode the 32-bit word at word address n occupies PA address 2n for bits [15:0] and 2n + 1 for bits [31:16],
for reads and for writes; word addresses are the same in both modes. -/
def Obligations.HalvesOfAWord : Prop :=
  ∀ (s : State) (n : Nat) (d : Word) (be : BitVec 4) (lo hi pa : BitVec 17), n < 65536 →
    lo = BitVec.ofNat 17 (2 * n) → hi = BitVec.ofNat 17 (2 * n + 1) → pa = BitVec.ofNat 17 n →
    (s.straps.pipW16 = true → accessWord s lo = n ∧ accessWord s hi = n ∧
      (∀ i : Fin 16, (accessData s lo d).getLsbD i.val = d.getLsbD i.val ∧
        (accessData s hi d).getLsbD (16 + i.val) = d.getLsbD i.val) ∧
      (∀ j : Fin 2, (accessBytes s lo be).getLsbD j.val = be.getLsbD j.val ∧
        (accessBytes s lo be).getLsbD (2 + j.val) = false ∧
        (accessBytes s hi be).getLsbD (2 + j.val) = be.getLsbD j.val ∧
        (accessBytes s hi be).getLsbD j.val = false) ∧
      (s.supply.inReset = false → s.power.level ≠ 4 → s.supply.bankP.brown = false → s.halfLatch = none →
        (∃ t, exec (.halfReadLatch lo) s = .next t ∧
          .pd s.now lo ((lowHalf (hostWord s n)).setWidth 32) ∈ t.out) ∧
        (∃ t, exec (.halfReadLatch hi) s = .next t ∧
          .pd s.now hi ((highHalf (hostWord s n)).setWidth 32) ∈ t.out))) ∧
    (s.straps.pipW16 = false → accessWord s pa = n ∧ accessData s pa d = d ∧ accessBytes s pa be = be ∧
      (s.supply.inReset = false → s.power.level ≠ 4 → s.supply.bankP.brown = false →
        ∃ t, exec (.halfReadLatch pa) s = .next t ∧ .pd s.now pa (hostWord s n) ∈ t.out))

/-- The commands of the supplies, of start-up, of power and of Turnstone change no part of the state but those that
`writes` lists for each, and no byte of the image unless memory is listed. -/
def Obligations.SupplyAndPowerFrames : Prop :=
  ∀ (c : Instr) (s t : State), familyOf c ∈ [.supply, .boot, .power, .turnstone] → exec c s = .next t →
    SameBut (writes c) s t ∧ (.mem ∉ writes c → ∀ a, readByte t a = readByte s a)

/-- The commands of Dunlin, of Heron, of the wheel and of the Ethernet ports change no part of the state but those that
`writes` lists for each, and no byte of the image unless memory is listed. -/
def Obligations.TimeAndEthernetFrames : Prop :=
  ∀ (c : Instr) (s t : State), familyOf c ∈ [.time, .heron, .wheel, .ethernet] → exec c s = .next t →
    SameBut (writes c) s t ∧ (.mem ∉ writes c → ∀ a, readByte t a = readByte s a)

/-- The commands of the Dziak links and of their training change no part of the state but those that `writes` lists for
each, and no byte of the image. -/
def Obligations.LinkFrames : Prop :=
  ∀ (c : Instr) (s t : State), familyOf c ∈ [.dziak, .training] → exec c s = .next t →
    SameBut (writes c) s t ∧ ∀ a, readByte t a = readByte s a

/-- The commands of the process image port, of Avocet and of Hidiquel change no part of the state but those that `writes`
lists for each, and no byte of the image unless memory is listed. -/
def Obligations.HostAndManagementFrames : Prop :=
  ∀ (c : Instr) (s t : State), familyOf c ∈ [.pip, .avocet, .hidiquel] → exec c s = .next t →
    SameBut (writes c) s t ∧ (.mem ∉ writes c → ∀ a, readByte t a = readByte s a)
end

