-- ==== Sys2Proof/Laws/Maps.lean ====
section
/-!
SUPPORT. Laws of the keyed tables and of the process image's bytes: reading back what was written, leaving every
other key alone, and keeping the canonical form.
-/
namespace Sys2Proof.Machine

variable {α : Type} {m : SMap α} {j k : Nat} {v d : α}

/-- The keys of a table lie above a bound. -/
def keysAbove (b : Nat) (m : SMap α) : Prop := ∀ x ∈ m, b < x.1

theorem mSorted_cons {x : Nat × α} : mSorted (x :: m) = true ↔ keysAbove x.1 m ∧ mSorted m = true := by
  induction m generalizing x with
  | nil => simp [mSorted, keysAbove]
  | cons y r ih =>
    obtain ⟨i, a⟩ := x
    obtain ⟨n, b⟩ := y
    simp only [mSorted, Bool.and_eq_true, decide_eq_true_eq, ih]
    constructor
    · rintro ⟨h, h', h''⟩
      refine ⟨fun z hz => ?_, h', h''⟩
      rcases List.mem_cons.1 hz with rfl | hz
      · exact h
      · exact Nat.lt_trans h (h' z hz)
    · rintro ⟨h, h', h''⟩
      exact ⟨h _ (List.mem_cons_self ..), h', h''⟩

theorem mFind_mSet : mFind (mSet m j v) k = if k = j then some v else mFind m k := by
  induction m with
  | nil => simp [mSet, mFind]
  | cons x r ih =>
    obtain ⟨i, a⟩ := x
    simp only [mSet]
    split
    · simp [mFind]
    · split
      · subst_vars; simp only [mFind]; split <;> simp_all
      · simp only [mFind, ih]; split
        · subst_vars; exact (if_neg (Ne.symm ‹_›)).symm
        · rfl

@[simp] theorem mGetD_mSet_self : mGetD (mSet m j v) j d = v := by simp [mGetD, mFind_mSet]

theorem mGetD_mSet (h : k ≠ j) : mGetD (mSet m j v) k d = mGetD m k d := by simp [mGetD, mFind_mSet, h]

theorem mFind_none_of_keysAbove (h : keysAbove j m) : mFind m j = none := by
  induction m with
  | nil => rfl
  | cons x r ih =>
    obtain ⟨i, a⟩ := x
    have hi : j < i := h _ (List.mem_cons_self ..)
    simp only [mFind]
    rw [if_neg (by omega)]
    exact ih fun y hy => h y (List.mem_cons_of_mem _ hy)

theorem mFind_mErase : mFind (mErase m j) k = if k = j then none else mFind m k := by
  induction m with
  | nil => simp [mErase, mFind]
  | cons x r ih =>
    obtain ⟨i, a⟩ := x
    simp only [mErase]
    split
    · subst_vars
      simp only [mFind, ih]
      split <;> rfl
    · simp only [mFind, ih]
      split
      · subst_vars; exact (if_neg (Ne.symm ‹_›)).symm
      · rfl

theorem keysAbove_mSet {b : Nat} (h : keysAbove b m) (hb : b < j) : keysAbove b (mSet m j v) := by
  induction m with
  | nil => simpa [mSet, keysAbove] using hb
  | cons x r ih =>
    obtain ⟨i, a⟩ := x
    simp only [mSet]
    intro y hy
    have hi := h _ (List.mem_cons_self ..)
    have hr : keysAbove b r := fun z hz => h z (List.mem_cons_of_mem _ hz)
    split at hy
    · rcases List.mem_cons.1 hy with rfl | hy
      · exact hb
      · exact h y hy
    · split at hy
      · rcases List.mem_cons.1 hy with rfl | hy
        · exact hb
        · exact hr y hy
      · rcases List.mem_cons.1 hy with rfl | hy
        · exact hi
        · exact ih hr y hy

theorem mSorted_mSet (h : mSorted m = true) : mSorted (mSet m j v) = true := by
  induction m with
  | nil => rfl
  | cons x r ih =>
    obtain ⟨i, a⟩ := x
    obtain ⟨ha, hr⟩ := mSorted_cons.1 h
    simp only [mSet]
    split
    · refine mSorted_cons.2 ⟨fun y hy => ?_, h⟩
      rcases List.mem_cons.1 hy with rfl | hy
      · assumption
      · exact Nat.lt_trans ‹j < i› (ha y hy)
    · split
      · subst_vars; exact mSorted_cons.2 ⟨ha, hr⟩
      · exact mSorted_cons.2 ⟨keysAbove_mSet ha (show i < j by omega), ih hr⟩

theorem mErase_subset {x : Nat × α} (h : x ∈ mErase m j) : x ∈ m := by
  induction m with
  | nil => exact h
  | cons y r ih =>
    obtain ⟨i, a⟩ := y
    simp only [mErase] at h
    split at h
    · exact List.mem_cons_of_mem _ (ih h)
    · rcases List.mem_cons.1 h with rfl | h
      · exact List.mem_cons_self ..
      · exact List.mem_cons_of_mem _ (ih h)

theorem mSorted_mErase (h : mSorted m = true) : mSorted (mErase m j) = true := by
  induction m with
  | nil => rfl
  | cons x r ih =>
    obtain ⟨i, a⟩ := x
    obtain ⟨ha, hr⟩ := mSorted_cons.1 h
    simp only [mErase]
    split
    · exact ih hr
    · exact mSorted_cons.2 ⟨fun y hy => ha y (mErase_subset hy), ih hr⟩

theorem mem_mSet {x : Nat × α} (h : x ∈ mSet m j v) : x = (j, v) ∨ x ∈ m := by
  induction m with
  | nil => simpa [mSet] using h
  | cons y r ih =>
    obtain ⟨i, a⟩ := y
    simp only [mSet] at h
    split at h
    · simpa using h
    · split at h
      · rcases List.mem_cons.1 h with rfl | h
        · exact .inl rfl
        · exact .inr (List.mem_cons_of_mem _ h)
      · rcases List.mem_cons.1 h with rfl | h
        · exact .inr (List.mem_cons_self ..)
        · exact (ih h).imp id (List.mem_cons_of_mem _)

/-! ### The process image's bytes -/

theorem memWf_nil : memWf [] = true := rfl

/-- Writing a byte keeps the canonical form. -/
theorem memWf_putByte {m : List Host.Cell} {a : Nat} {b : Byte} (h : memWf m = true) :
    memWf (putByte m a b) = true := by
  simp only [memWf, Bool.and_eq_true, List.all_eq_true] at h ⊢
  unfold putByte
  split
  · exact ⟨mSorted_mErase h.1, fun x hx => h.2 x (mErase_subset hx)⟩
  · refine ⟨mSorted_mSet h.1, fun x hx => ?_⟩
    rcases mem_mSet hx with rfl | hx
    · simpa using ‹¬b = memDefault›
    · exact h.2 x hx

/-- A byte reads as what was written to it, and every other byte as before. -/
theorem mGetD_putByte {m : List Host.Cell} {a x : Nat} {b : Byte} :
    mGetD (putByte m a b) x memDefault = if x = a then b else mGetD m x memDefault := by
  unfold putByte
  split
  · simp only [mGetD, mFind_mErase]
    split <;> simp_all
  · simp only [mGetD, mFind_mSet]
    split <;> simp_all

theorem memWf_putWord {m : List Host.Cell} {w : Nat} {v : Word} {be : BitVec 4} (h : memWf m = true) :
    memWf (putWord m w v be) = true := by
  have step : ∀ (l : List Nat) (m : List Host.Cell), memWf m = true →
      memWf (l.foldl (fun m i => if be.getLsbD i then putByte m (4 * w + i) (byteOf v i) else m) m) = true := by
    intro l
    induction l with
    | nil => exact fun _ h => h
    | cons i r ih =>
      intro m hm
      refine ih _ ?_
      dsimp only
      split
      · exact memWf_putByte hm
      · exact hm
  exact step _ _ h

theorem memWf_writeBytes {l : List Byte} {a : Nat} {s : State} (h : memWf s.mem = true) :
    memWf (writeBytes a l s).mem = true := by
  induction l generalizing a s with
  | nil => exact h
  | cons b r ih => exact ih (memWf_putByte h)

end Sys2Proof.Machine
end

