-- ==== Sys2Proof/Laws/Frame.lean ====
section
/-!
SUPPORT. Frames: their laws, and for a record update and the operations that follow every command
(publish) which parts they may change.
-/
namespace Sys2Proof.Machine

/-! ### Parts -/

theorem Part.same_refl (p : Part) (s : State) : p.same s s := by
  cases p <;> first | rfl | exact ⟨rfl, rfl⟩ | exact fun _ => rfl | exact fun _ _ => rfl

theorem Part.same_symm {p : Part} {s t : State} (h : p.same s t) : p.same t s := by
  cases p <;> first | exact Eq.symm h | exact ⟨h.1.symm, h.2.symm⟩ | exact fun a => (h a).symm | exact fun a b => (h a b).symm

theorem Part.same_trans {p : Part} {s t u : State} (h : p.same s t) (h' : p.same t u) : p.same s u := by
  cases p <;> first | exact Eq.trans h h' | exact ⟨h.1.trans h'.1, h.2.trans h'.2⟩ | exact fun a => (h a).trans (h' a) | exact fun a b => (h a b).trans (h' a b)

/-! ### Frames -/

variable {w v : List Part} {s t u : State}

@[simp] theorem SameBut.refl : SameBut w s s := fun p _ => p.same_refl s

theorem SameBut.trans (h : SameBut w s t) (h' : SameBut w t u) : SameBut w s u :=
  fun p hp => Part.same_trans (h p hp) (h' p hp)

theorem SameBut.symm (h : SameBut w s t) : SameBut w t s := fun p hp => Part.same_symm (h p hp)

theorem SameBut.mono (h : SameBut w s t) (hw : w ⊆ v) : SameBut v s t := fun p hp => h p fun hm => hp (hw hm)

/-- What changes only parts of a list leaves a frame over the list as it was. -/
theorem SameBut.congr (h : SameBut w t u) : SameBut w s u ↔ SameBut w s t :=
  ⟨fun h' => h'.trans h.symm, fun h' => h'.trans h⟩

theorem pick {p : Part} {a b : Prop} (h : p ∈ w ∨ a) (hp : p ∉ w) (f : a → b) : b :=
  f (h.resolve_left hp)

/-- A record update changes the parts of the fields it gives. -/
@[simp] theorem same_update {w : List Part} {s t : State}
    {x1 x2 x3 x4 x5 x6 x7 x8 x9 x10 x11 x12 x13 x14 x15 x16 x17 x18 x19 x20 x21 x22 x23 x24 x25 x26 x27 x28 x29 x30 x31 x32 x33 x34 x35 x36 x37 x38 x39 x40 x41 x42 x43 x44 x45 x46 x47}
    (hnow : Part.now ∈ w ∨ x1 = t.now)
    (hsupply : Part.supply ∈ w ∨ x5 = t.supply)
    (hstraps : Part.straps ∈ w ∨ x6 = t.straps)
    (hladder : Part.ladder ∈ w ∨ x7 = t.ladder)
    (hboot : Part.boot ∈ w ∨ x8 = t.boot)
    (hotp : Part.otp ∈ w ∨ (x9 = t.otp ∧ x10 = t.fuses))
    (htables : Part.tables ∈ w ∨ x11 = t.tables)
    (hlost : Part.lost ∈ w ∨ x12 = t.lost)
    (hstaged : Part.staged ∈ w ∨ x13 = t.staged)
    (hcommit : Part.commit ∈ w ∨ x14 = t.commit)
    (hmem : Part.mem ∈ w ∨ x15 = t.mem)
    (hupsets : Part.upsets ∈ w ∨ x16 = t.upsets)
    (hhalfLatch : Part.halfLatch ∈ w ∨ x17 = t.halfLatch)
    (hhwWrote : Part.hwWrote ∈ w ∨ x18 = t.hwWrote)
    (hhostWords : Part.hostWords ∈ w ∨ hostWordsOf x19 = hostWordsOf t.station)
    (hdoorbell : Part.doorbell ∈ w ∨ doorbellOf x19 = doorbellOf t.station)
    (hignWr : Part.ignWr ∈ w ∨ x19.ignWr = t.station.ignWr)
    (hrearm : Part.rearm ∈ w ∨ x19.rearmEnd = t.station.rearmEnd)
    (hstatus : Part.status ∈ w ∨ statusOf x19 = statusOf t.station)
    (hregions : Part.regions ∈ w ∨ x20 = t.regions)
    (hdunlin : Part.dunlin ∈ w ∨ x21 = t.dunlin)
    (hinputs : Part.inputs ∈ w ∨ x22 = t.inputs)
    (hheronClock : Part.heronClock ∈ w ∨ clockOf x23 = clockOf t.heron)
    (hheronCopies : Part.heronCopies ∈ w ∨ copiesOf x23 = copiesOf t.heron)
    (hstreams : Part.streams ∈ w ∨ x24 = t.streams)
    (hmeters : Part.meters ∈ w ∨ x25 = t.meters)
    (hcoarse : Part.coarse ∈ w ∨ x26 = t.coarse)
    (hreleased : Part.released ∈ w ∨ x27 = t.released)
    (hports : Part.ports ∈ w ∨ x28 = t.ports)
    (hmdio : Part.mdio ∈ w ∨ x29 = t.mdio)
    (hclassQ : Part.queues ∈ w ∨ x30 = t.classQ)
    (hrxCells : Part.rxCells ∈ w ∨ x31 = t.rxCells)
    (hhighWater : Part.highWater ∈ w ∨ x32 = t.highWater)
    (hlisteners : Part.listeners ∈ w ∨ x33 = t.listeners)
    (hlinks : Part.links ∈ w ∨ x34 = t.links)
    (hvcs : Part.vcs ∈ w ∨ x35 = t.vcs)
    (hpairs : Part.pairs ∈ w ∨ x36 = t.pairs)
    (hlanes : Part.lanes ∈ w ∨ x37 = t.lanes)
    (hquiet : Part.quiet ∈ w ∨ x38 = t.quiet)
    (hchans : Part.chans ∈ w ∨ x39 = t.chans)
    (havocet : Part.avocet ∈ w ∨ x40 = t.avocet)
    (hmgmtRx : Part.mgmtRx ∈ w ∨ x41.rx = t.hid.rx)
    (hmgmtKey : Part.mgmtKey ∈ w ∨ x41.key = t.hid.key)
    (hsubs : Part.subs ∈ w ∨ x41.subs = t.hid.subs)
    (hxfer : Part.xfer ∈ w ∨ x41.xfer = t.hid.xfer)
    (hswitch : Part.switch ∈ w ∨ x41.switch = t.hid.switch)
    (hraise : Part.raise ∈ w ∨ x41.raise = t.hid.raise)
    (hsnaps : Part.snaps ∈ w ∨ x41.snaps = t.hid.snaps)
    (hcounters : Part.counters ∈ w ∨ x42 = t.counters)
    (hpower : Part.power ∈ w ∨ x43 = t.power)
    (hfaults : Part.faults ∈ w ∨ x44 = t.faults)
    (hscrubs : Part.scrubs ∈ w ∨ x45 = t.scrubs)
    (hfreeze : Part.freeze ∈ w ∨ x46 = t.freeze)
    (hreadout : Part.readout ∈ w ∨ x47 = t.readout) :
    SameBut w s (State.mk t.pending x1 x2 x3 x4 x5 x6 x7 x8 x9 x10 x11 x12 x13 x14 x15 x16 x17 x18 x19 x20 x21 x22 x23 x24 x25 x26 x27 x28 x29 x30 x31 x32 x33 x34 x35 x36 x37 x38 x39 x40 x41 x42 x43 x44 x45 x46 x47) ↔ SameBut w s t := by
  refine SameBut.congr fun p hp => ?_
  cases p
  case now => exact pick hnow hp fun h => h.symm
  case supply => exact pick hsupply hp fun h => h.symm
  case straps => exact pick hstraps hp fun h => h.symm
  case ladder => exact pick hladder hp fun h => h.symm
  case boot => exact pick hboot hp fun h => h.symm
  case otp => exact pick hotp hp fun h => ⟨h.1.symm, h.2.symm⟩
  case tables => exact pick htables hp fun h => h.symm
  case lost => exact pick hlost hp fun h => h.symm
  case staged => exact pick hstaged hp fun h => h.symm
  case commit => exact pick hcommit hp fun h => h.symm
  case mem => exact pick hmem hp fun h => h.symm
  case upsets => exact pick hupsets hp fun h => h.symm
  case halfLatch => exact pick hhalfLatch hp fun h => h.symm
  case hwWrote => exact pick hhwWrote hp fun h => h.symm
  case hostWords => exact pick hhostWords hp fun h => h.symm
  case doorbell => exact pick hdoorbell hp fun h => h.symm
  case ignWr => exact pick hignWr hp fun h => h.symm
  case rearm => exact pick hrearm hp fun h => h.symm
  case status => exact pick hstatus hp fun h => h.symm
  case regions => exact pick hregions hp fun h => h.symm
  case dunlin => exact pick hdunlin hp fun h => h.symm
  case inputs => exact pick hinputs hp fun h => h.symm
  case heronClock => exact pick hheronClock hp fun h => h.symm
  case heronCopies => exact pick hheronCopies hp fun h => h.symm
  case streams => exact pick hstreams hp fun h => h.symm
  case meters => exact pick hmeters hp fun h => h.symm
  case coarse => exact pick hcoarse hp fun h => h.symm
  case released => exact pick hreleased hp fun h => h.symm
  case ports => exact pick hports hp fun h p => by simp [port, h]
  case mdio => exact pick hmdio hp fun h => h.symm
  case queues => exact pick hclassQ hp fun h i => by simp [h]
  case rxCells => exact pick hrxCells hp fun h => h.symm
  case highWater => exact pick hhighWater hp fun h => h.symm
  case listeners => exact pick hlisteners hp fun h => h.symm
  case links => exact pick hlinks hp fun h => h.symm
  case vcs => exact pick hvcs hp fun h => h.symm
  case pairs => exact pick hpairs hp fun h => h.symm
  case lanes => exact pick hlanes hp fun h => h.symm
  case quiet => exact pick hquiet hp fun h => h.symm
  case chans => exact pick hchans hp fun h => h.symm
  case avocet => exact pick havocet hp fun h => h.symm
  case mgmtRx => exact pick hmgmtRx hp fun h => h.symm
  case mgmtKey => exact pick hmgmtKey hp fun h => h.symm
  case subs => exact pick hsubs hp fun h => h.symm
  case xfer => exact pick hxfer hp fun h => h.symm
  case switch => exact pick hswitch hp fun h => h.symm
  case raise => exact pick hraise hp fun h => h.symm
  case snaps => exact pick hsnaps hp fun h => h.symm
  case counters => exact pick hcounters hp fun h id _ => by simp [h]
  case power => exact pick hpower hp fun h => h.symm
  case faults => exact pick hfaults hp fun h => h.symm
  case scrubs => exact pick hscrubs hp fun h => h.symm
  case freeze => exact pick hfreeze hp fun h => h.symm
  case readout => exact pick hreadout hp fun h => h.symm
  case pending => rfl

/-! ### Combinators -/

@[simp] theorem same_ite {c : Prop} [Decidable c] :
    SameBut w s (if c then t else u) ↔ if c then SameBut w s t else SameBut w s u := by split <;> rfl

@[simp] theorem same_each {α : Type} {l : List α} {f : α → State → State}
    (h : ∀ a t, SameBut w t (f a t)) : SameBut w s (each l f t) ↔ SameBut w s t := by
  refine SameBut.congr ?_
  unfold each
  induction l generalizing t with
  | nil => exact SameBut.refl
  | cons a r ih => exact (h a t).trans ih

@[simp] theorem same_whenB {b : Bool} {f : State → State} (h : ∀ t, SameBut w t (f t)) :
    SameBut w s (whenB b f t) ↔ SameBut w s t := by
  refine SameBut.congr ?_
  unfold whenB
  split
  · exact h t
  · exact SameBut.refl

end Sys2Proof.Machine
end

