-- ==== Sys2Proof/Laws/Publish.lean ====
section
/-!
SUPPORT. What follows every command (publish): the event flags, the device's own frames, the pins. No part of
the state changes by it.
-/
namespace Sys2Proof.Machine

variable {w : List Part} {s t o : State}

@[simp] theorem same_emit {e : Emission} : SameBut w s (emit e t) ↔ SameBut w s t := by simp [emit]

@[simp] theorem same_drawFree : SameBut w s (drawFree t) ↔ SameBut w s t := by simp [drawFree]

@[simp] theorem same_raiseFlags {e : Word} {a b : BitVec 64} {c : BitVec 256} :
    SameBut w s (raiseFlags e a b c t) ↔ SameBut w s t := by simp [raiseFlags]

@[simp] theorem same_drivePins : SameBut w s (drivePins o t) ↔ SameBut w s t := by
  simp only [drivePins]
  (repeat' split) <;> simp

@[simp] theorem same_drawSession : SameBut w s (drawSession t) ↔ SameBut w s t := by
  simp [drawSession]

/-- A counter that the device's own frames move. -/
theorem same_bump_frameCounter {c i n k : Nat} (h : frameCounter (ctrId c i n) = true) :
    SameBut w s (bumpBy c i n k t) ↔ SameBut w s t := by
  refine SameBut.congr fun p _ => ?_
  cases p
  case counters =>
    intro id hid
    have : id ≠ ctrId c i n := by rintro rfl; simp [h] at hid
    exact (mGetD_mSet this).symm
  all_goals first | rfl | exact ⟨rfl, rfl⟩ | exact fun _ => rfl

@[simp] theorem same_bumpDev_own {n : Nat} (h : n = 29 ∨ n = 40 ∨ n = 41) :
    SameBut w s (bumpDev n t) ↔ SameBut w s t := by
  refine same_bump_frameCounter ?_
  rcases h with rfl | rfl | rfl <;> rfl

theorem same_bumpClass_full {p c : Nat} (hp : p < 4) (hc : c < 8) :
    SameBut w s (bumpClass p c 4 t) ↔ SameBut w s t := by
  refine same_bump_frameCounter ?_
  simp only [frameCounter, ctrId, Bool.or_eq_true, Bool.and_eq_true, beq_iff_eq]
  omega

/-- A frame of the device joins a class queue, or is dropped: no other frame moves. -/
theorem same_enqueue_own {p c : Nat} {f : Frame} (hp : p < 4) (hc : c < 8) (hf : f.hid = true)
    (ha : f.account = none) : SameBut w s (enqueueFrame p c f t) ↔ SameBut w s t := by
  simp only [enqueueFrame]
  split
  · have : ∀ u, releaseFrame f u = u := fun u => by simp [releaseFrame, whenB, freeCells, ha]
    rw [this]
    exact same_bumpClass_full hp hc
  · refine SameBut.congr fun q _ => ?_
    cases q
    case queues =>
      intro i
      by_cases h : i = 8 * p + c
      · subst h; simp [setClassQueue, otherFrames, classQueue, hf]
      · simp [setClassQueue, mGetD_mSet h]
    all_goals first | rfl | exact ⟨rfl, rfl⟩ | exact fun _ => rfl | exact fun _ _ => rfl

theorem same_each_mem {α : Type} {l : List α} {f : α → State → State}
    (h : ∀ a ∈ l, ∀ t, SameBut w t (f a t)) : SameBut w s (each l f t) ↔ SameBut w s t := by
  refine SameBut.congr ?_
  unfold each
  induction l generalizing t with
  | nil => exact SameBut.refl
  | cons a r ih => exact (h a (List.mem_cons_self ..) t).trans (ih fun b hb => h b (List.mem_cons_of_mem _ hb))

theorem same_queueDevice {ports : List Nat} {f : Frame} (hp : ∀ p ∈ ports, p < 4) (hf : f.hid = true)
    (ha : f.account = none) : SameBut w s (queueDevice ports f t) ↔ SameBut w s t := by
  simp only [queueDevice]
  split
  · exact same_bumpDev_own (.inl rfl)
  · exact same_each_mem fun p h u => (same_enqueue_own (hp p h) (by decide) hf ha).2 SameBut.refl

theorem same_sendEventOn {ports : List Nat} {c a : Nat} {d : List Byte} (hp : ∀ p ∈ ports, p < 4) :
    SameBut w s (sendEventOn ports c a d t) ↔ SameBut w s t := by
  simp only [sendEventOn]
  rw [same_queueDevice hp rfl rfl]
  simp

theorem same_setPort_announced {p : Nat} {b : Bool} :
    SameBut w s (setPort t p { port t p with announced := b }) ↔ SameBut w s t := by
  refine SameBut.congr fun q _ => ?_
  cases q
  case ports =>
    intro i
    by_cases h : i = p
    · subst h; simp [setPort, port, portOf]
    · simp [setPort, port, mGetD_mSet h]
  all_goals first | rfl | exact ⟨rfl, rfl⟩ | exact fun _ => rfl | exact fun _ _ => rfl

theorem mem_below_four {f : Nat → Bool} {p : Nat} (h : p ∈ (List.range 4).filter f) : p < 4 :=
  List.mem_range.1 (List.mem_filter.1 h).1

theorem same_announce {ports : List Nat} (hp : ∀ p ∈ ports, p < 4) :
    SameBut w s (announce ports t) ↔ SameBut w s t := by
  simp only [announce]
  split
  · rfl
  · rw [same_each fun a t => same_setPort_announced.2 SameBut.refl]
    exact same_sendEventOn hp

theorem announcePorts_lt {p : Nat} (h : p ∈ announcePorts t) : p < 4 := mem_below_four h

@[simp] theorem same_announce_ports : SameBut w s (announce (announcePorts o) t) ↔ SameBut w s t :=
  same_announce fun _ => announcePorts_lt

@[simp] theorem same_renewSession : SameBut w s (renewSession t) ↔ SameBut w s t := by
  simp only [renewSession]
  split
  · rw [same_bumpDev_own (.inr (.inr rfl))]; simp
  · rfl

theorem eventPorts_lt {p : Nat} (h : p ∈ eventPorts t) : p < 4 := by
  simp only [eventPorts] at h
  split at h
  · exact mem_below_four h
  · exact mem_below_four (List.mem_filter.1 h).1

theorem mFind_map {α : Type} {m : SMap α} {f : α → α} {i : Nat} :
    mFind (m.map fun x => (x.1, f x.2)) i = (mFind m i).map f := by
  induction m with
  | nil => rfl
  | cons x r ih =>
    simp only [List.map_cons, mFind, ih]
    split <;> rfl

@[simp] theorem same_mergeEvent {id : Nat} {e : EventInfo} : SameBut w s (mergeEvent id e t) ↔ SameBut w s t := by
  refine SameBut.congr fun q _ => ?_
  cases q
  case queues =>
    intro i
    have keep : ∀ l : List Frame, otherFrames (l.map fun f =>
        if f.id = id then { f with event := some e, bytes := eventBytes t e } else f) = otherFrames l := by
      intro l
      induction l with
      | nil => rfl
      | cons f r ih =>
        simp only [otherFrames, List.map_cons, List.filter_cons] at ih ⊢
        split <;> (try split) <;> simp_all
    simp only [mergeEvent, mGetD, mFind_map]
    cases mFind t.classQ i with
    | none => rfl
    | some l => exact (keep l).symm
  all_goals first | rfl | exact ⟨rfl, rfl⟩ | exact fun _ => rfl | exact fun _ _ => rfl

@[simp] theorem same_sendEvent {c a : Nat} {d : List Byte} : SameBut w s (sendEvent c a d t) ↔ SameBut w s t := by
  simp only [sendEvent]
  split
  · split
    · rw [same_bumpDev_own (.inr (.inl rfl))]; simp
    · rfl
  · rw [same_renewSession, same_sendEventOn fun _ => eventPorts_lt]

@[simp] theorem same_notify {c a : Nat} {d : List Byte} : SameBut w s (notify c a d t) ↔ SameBut w s t := by
  simp only [notify]
  split <;> simp

@[simp] theorem same_changeFrames {n : State} : SameBut w s (changeFrames o n t) ↔ SameBut w s t := by
  simp [changeFrames]

/-- What follows a command changes no part. -/
@[simp] theorem same_publish : SameBut w s (publish o t) ↔ SameBut w s t := by
  simp only [publish]
  split <;> simp

end Sys2Proof.Machine
end

