-- ==== Sys2Proof/Laws/Frames.lean ====
section
/-!
SUPPORT. Frames of the shared operations: which parts of the state each may change, said once, in the order in
which they call one another. A meaning's frame follows from these by simp.
-/
namespace Sys2Proof.Machine

variable {w : List Part} {s t : State}

@[simp] theorem same_setPort {p x} (h : .ports ∈ w) : SameBut w s (setPort t p x) ↔ SameBut w s t := by
  simp [setPort, h]

@[simp] theorem same_setLink {k x} (h : .links ∈ w) : SameBut w s (setLink t k x) ↔ SameBut w s t := by
  simp [setLink, h]

@[simp] theorem same_setVc {k v x} (h : .vcs ∈ w) : SameBut w s (setVc t k v x) ↔ SameBut w s t := by simp [setVc, h]

@[simp] theorem same_setLane {n x} (h : .lanes ∈ w) : SameBut w s (setLane t n x) ↔ SameBut w s t := by
  simp [setLane, h]

@[simp] theorem same_setChan {c x} (h : .chans ∈ w) : SameBut w s (setChan t c x) ↔ SameBut w s t := by
  simp [setChan, h]

@[simp] theorem same_setStream {q x} (h : .streams ∈ w) : SameBut w s (setStream t q x) ↔ SameBut w s t := by
  simp [setStream, h]

@[simp] theorem same_setMeter {m x} (h : .meters ∈ w) : SameBut w s (setMeter t m x) ↔ SameBut w s t := by
  simp [setMeter, h]

@[simp] theorem same_setListener {l x} (h : .listeners ∈ w) : SameBut w s (setListener t l x) ↔ SameBut w s t := by
  simp [setListener, h]

@[simp] theorem same_setRegion {r x} (h : .regions ∈ w) : SameBut w s (setRegion t r x) ↔ SameBut w s t := by
  simp [setRegion, h]

@[simp] theorem same_setPair {j v x} (h : .pairs ∈ w) : SameBut w s (setPair t j v x) ↔ SameBut w s t := by
  simp [setPair, h]

@[simp] theorem same_setInput {i x} (h : .inputs ∈ w) : SameBut w s (setInput t i x) ↔ SameBut w s t := by
  simp [setInput, h]

@[simp] theorem same_setClassQueue {p c q} (h : .queues ∈ w) :
    SameBut w s (setClassQueue t p c q) ↔ SameBut w s t := by simp [setClassQueue, h]

@[simp] theorem same_bumpBy {cls inst num n} (h : .counters ∈ w) :
    SameBut w s (bumpBy cls inst num n t) ↔ SameBut w s t := by simp [bumpBy, h]

@[simp] theorem same_bump {cls inst num} (h : .counters ∈ w) : SameBut w s (bump cls inst num t) ↔ SameBut w s t := by
  simp [bump, h]

@[simp] theorem same_bumpDev {n} (h : .counters ∈ w) : SameBut w s (bumpDev n t) ↔ SameBut w s t := by
  simp [bumpDev, h]

@[simp] theorem same_bumpPort {p n} (h : .counters ∈ w) : SameBut w s (bumpPort p n t) ↔ SameBut w s t := by
  simp [bumpPort, h]

@[simp] theorem same_bumpClass {p c n} (h : .counters ∈ w) : SameBut w s (bumpClass p c n t) ↔ SameBut w s t := by
  simp [bumpClass, h]

@[simp] theorem same_bumpLane {l n} (h : .counters ∈ w) : SameBut w s (bumpLane l n t) ↔ SameBut w s t := by
  simp [bumpLane, h]

@[simp] theorem same_bumpLink {k n} (h : .counters ∈ w) : SameBut w s (bumpLink k n t) ↔ SameBut w s t := by
  simp [bumpLink, h]

@[simp] theorem same_bumpVc {k v n} (h : .counters ∈ w) : SameBut w s (bumpVc k v n t) ↔ SameBut w s t := by
  simp [bumpVc, h]

@[simp] theorem same_bumpPair {j v n} (h : .counters ∈ w) : SameBut w s (bumpPair j v n t) ↔ SameBut w s t := by
  simp [bumpPair, h]

@[simp] theorem same_bumpChan {c n} (h : .counters ∈ w) : SameBut w s (bumpChan c n t) ↔ SameBut w s t := by
  simp [bumpChan, h]

@[simp] theorem same_bumpStream {q n} (h : .counters ∈ w) : SameBut w s (bumpStream q n t) ↔ SameBut w s t := by
  simp [bumpStream, h]

@[simp] theorem same_bumpCopy {q p n} (h : .counters ∈ w) : SameBut w s (bumpCopy q p n t) ↔ SameBut w s t := by
  simp [bumpCopy, h]

@[simp] theorem same_bumpListen {l n} (h : .counters ∈ w) : SameBut w s (bumpListen l n t) ↔ SameBut w s t := by
  simp [bumpListen, h]

@[simp] theorem same_writeByte {a b} (h : .mem ∈ w) : SameBut w s (writeByte a b t) ↔ SameBut w s t := by
  simp [writeByte, h]

@[simp] theorem same_writeWord {w' v be} (h : .mem ∈ w) : SameBut w s (writeWord w' v be t) ↔ SameBut w s t := by
  simp [writeWord, h]

@[simp] theorem same_setHostWord {n v} (h : .hostWords ∈ w) : SameBut w s (setHostWord n v t) ↔ SameBut w s t := by
  simp only [setHostWord]
  (repeat' split) <;> simp [h]

@[simp] theorem same_setSram {w' v} (h : .mem ∈ w ∧ .hostWords ∈ w) :
    SameBut w s (setSram w' v t) ↔ SameBut w s t := by simp [setSram, h]

@[simp] theorem same_writeBytes {a : Nat} {l : List Byte} (h : .mem ∈ w) :
    SameBut w s (writeBytes a l t) ↔ SameBut w s t := by
  induction l generalizing a t with
  | nil => rfl
  | cons b r ih => simp only [writeBytes, ih]; simp [writeByte, h]

@[simp] theorem same_setDom {d x} (h : .dunlin ∈ w) : SameBut w s (setDom d x t) ↔ SameBut w s t := by
  simp [setDom, h]

@[simp] theorem same_rebase {first} (h : .dunlin ∈ w ∧ .heronClock ∈ w ∧ .counters ∈ w) :
    SameBut w s (rebase first t) ↔ SameBut w s t := by simp [rebase, h]

@[simp] theorem same_tick (h : .now ∈ w ∧ .dunlin ∈ w ∧ .heronClock ∈ w ∧ .heronCopies ∈ w) :
    SameBut w s (tick t) ↔ SameBut w s t := by simp [tick, h]

@[simp] theorem same_setCopies {f} (h : .heronCopies ∈ w) : SameBut w s (setCopies f t) ↔ SameBut w s t := by
  simp [setCopies, h]

@[simp] theorem same_endPauses (h : .ports ∈ w) : SameBut w s (endPauses t) ↔ SameBut w s t := by simp [endPauses, h]

@[simp] theorem same_takeCells {p c n} (h : .rxCells ∈ w ∧ .highWater ∈ w) :
    SameBut w s (takeCells p c n t) ↔ SameBut w s t := by simp [takeCells, h]

@[simp] theorem same_freeCells {account n} (h : .rxCells ∈ w) :
    SameBut w s (freeCells account n t) ↔ SameBut w s t := by
  simp only [freeCells]
  (repeat' split) <;> simp [h]

@[simp] theorem same_releaseFrame {f} (h : .rxCells ∈ w) : SameBut w s (releaseFrame f t) ↔ SameBut w s t := by
  simp [releaseFrame, h]

@[simp] theorem same_enqueueFrame {p c f} (h : .queues ∈ w ∧ .rxCells ∈ w ∧ .counters ∈ w) :
    SameBut w s (enqueueFrame p c f t) ↔ SameBut w s t := by simp [enqueueFrame, h]

@[simp] theorem same_driveQ {ck p v} : SameBut w s (driveQ ck p v t) ↔ SameBut w s t := by simp [driveQ]

@[simp] theorem same_wakeS3 (h : .power ∈ w) : SameBut w s (wakeS3 t) ↔ SameBut w s t := by simp [wakeS3, h]

@[simp] theorem same_latchFreeze {held stampL stampW} (h : .freeze ∈ w) :
    SameBut w s (latchFreeze held stampL stampW t) ↔ SameBut w s t := by simp [latchFreeze, h]

@[simp] theorem same_blowOtp {o} (h : .otp ∈ w) : SameBut w s (blowOtp o t) ↔ SameBut w s t := by simp [blowOtp, h]

@[simp] theorem same_cutRaise (h : .otp ∈ w) : SameBut w s (cutRaise t) ↔ SameBut w s t := by
  simp only [cutRaise]
  (repeat' split) <;> simp [h]

@[simp] theorem same_resetPins : SameBut w s (resetPins t) ↔ SameBut w s t := by simp [resetPins]

@[simp] theorem same_logFault {code subject detail} (h : .faults ∈ w) :
    SameBut w s (logFault code subject detail t) ↔ SameBut w s t := by simp [logFault, h]

@[simp] theorem same_makeEntry {w'} (h : .faults ∈ w) : SameBut w s (makeEntry w' t) ↔ SameBut w s t := by
  simp [makeEntry, h]

@[simp] theorem same_faultDuty (h : .faults ∈ w) : SameBut w s (faultDuty t) ↔ SameBut w s t := by simp [faultDuty, h]

@[simp] theorem same_loadChannel {c} (h : .chans ∈ w) : SameBut w s (loadChannel c t) ↔ SameBut w s t := by
  simp [loadChannel, h]

@[simp] theorem same_fireChan {f c} (h : .chans ∈ w ∧ .counters ∈ w) :
    SameBut w s (fireChan f c t) ↔ SameBut w s t := by
  simp only [fireChan]
  (repeat' split) <;> simp [h]

@[simp] theorem same_fire {f} (h : .chans ∈ w ∧ .counters ∈ w) : SameBut w s (fire f t) ↔ SameBut w s t := by
  simp [fire, h]

@[simp] theorem same_staleFromLink {k} (h : .regions ∈ w) : SameBut w s (staleFromLink k t) ↔ SameBut w s t := by
  simp [staleFromLink, h]

@[simp] theorem same_startAvocet (h : .chans ∈ w ∧ .avocet ∈ w ∧ .counters ∈ w) :
    SameBut w s (startAvocet t) ↔ SameBut w s t := by simp [startAvocet, h]

@[simp] theorem same_placeStream {q} (h : .streams ∈ w) : SameBut w s (placeStream q t) ↔ SameBut w s t := by
  simp only [placeStream]
  (repeat' split) <;> simp [h]

@[simp] theorem same_arriveFrame {q f} (h : .streams ∈ w ∧ .counters ∈ w) :
    SameBut w s (arriveFrame q f t) ↔ SameBut w s t := by
  simp only [arriveFrame]
  (repeat' split) <;> simp [h]

@[simp] theorem same_updateFrame {id q g} (h : .streams ∈ w ∧ .ports ∈ w ∧ .queues ∈ w) :
    SameBut w s (updateFrame id q g t) ↔ SameBut w s t := by simp [updateFrame, h]

@[simp] theorem same_skipRest {key} (h : .vcs ∈ w) : SameBut w s (skipRest key t) ↔ SameBut w s t := by
  simp [skipRest, h]

@[simp] theorem same_orphanTunnel {key} (h : .streams ∈ w) : SameBut w s (orphanTunnel key t) ↔ SameBut w s t := by
  simp [orphanTunnel, h]

@[simp] theorem same_dropUnstarted {id q} (h : .streams ∈ w ∧ .queues ∈ w) :
    SameBut w s (dropUnstarted id q t) ↔ SameBut w s t := by simp [dropUnstarted, h]

@[simp] theorem same_memberCopy {q r f p} (h : .queues ∈ w ∧ .counters ∈ w) :
    SameBut w s (memberCopy q r f p t) ↔ SameBut w s t := by simp [memberCopy, h]

@[simp] theorem same_releaseHead {q} (h : .streams ∈ w ∧ .queues ∈ w ∧ .counters ∈ w) :
    SameBut w s (releaseHead q t) ↔ SameBut w s t := by
  simp only [releaseHead]
  (repeat' split) <;> simp [h]

@[simp] theorem same_deadlineCounts {q r} (h : .counters ∈ w) :
    SameBut w s (deadlineCounts q r t) ↔ SameBut w s t := by simp [deadlineCounts, h]

@[simp] theorem same_expireStream {q f} (h : .streams ∈ w ∧ .rxCells ∈ w ∧ .counters ∈ w) :
    SameBut w s (expireStream q f t) ↔ SameBut w s t := by
  simp only [expireStream]
  (repeat' split) <;> simp [h]

@[simp] theorem same_dropLate {q} (h : .streams ∈ w ∧ .rxCells ∈ w ∧ .counters ∈ w) :
    SameBut w s (dropLate q t) ↔ SameBut w s t := by simp [dropLate, h]

@[simp] theorem same_freeUnits {k v n} (h : .vcs ∈ w) : SameBut w s (freeUnits k v n t) ↔ SameBut w s t := by
  simp [freeUnits, h]

@[simp] theorem same_freeMsg {k v m} (h : .vcs ∈ w) : SameBut w s (freeMsg k v m t) ↔ SameBut w s t := by
  simp [freeMsg, h]

@[simp] theorem same_noteReturn {k v} (h : .links ∈ w ∧ .vcs ∈ w) :
    SameBut w s (noteReturn k v t) ↔ SameBut w s t := by simp [noteReturn, h]

@[simp] theorem same_noteS {k} (h : .links ∈ w) : SameBut w s (noteS k t) ↔ SameBut w s t := by simp [noteS, h]

@[simp] theorem same_wakeLink {k} (h : .links ∈ w) : SameBut w s (wakeLink k t) ↔ SameBut w s t := by
  simp [wakeLink, h]

@[simp] theorem same_queueControl {k b} (h : .links ∈ w) : SameBut w s (queueControl k b t) ↔ SameBut w s t := by
  simp [queueControl, h]

@[simp] theorem same_buildAck {type k v} (h : .links ∈ w ∧ .vcs ∈ w) :
    SameBut w s (buildAck type k v t) ↔ SameBut w s t := by
  simp only [buildAck]
  (repeat' split) <;> simp [h]

@[simp] theorem same_sendAckFor {k v} (h : .links ∈ w ∧ .vcs ∈ w) :
    SameBut w s (sendAckFor k v t) ↔ SameBut w s t := by simp [sendAckFor, h]

@[simp] theorem same_sendAck {k} (h : .links ∈ w ∧ .vcs ∈ w) : SameBut w s (sendAck k t) ↔ SameBut w s t := by
  simp [sendAck, h]

@[simp] theorem same_sendNak {k} (h : .links ∈ w ∧ .vcs ∈ w ∧ .counters ∈ w) :
    SameBut w s (sendNak k t) ↔ SameBut w s t := by simp [sendNak, h]

@[simp] theorem same_resetPair {j v} (h : .pairs ∈ w ∧ .counters ∈ w) :
    SameBut w s (resetPair j v t) ↔ SameBut w s t := by simp [resetPair, h]

@[simp] theorem same_excludeLanes {k m cause} (h : .links ∈ w ∧ .counters ∈ w ∧ .faults ∈ w) :
    SameBut w s (excludeLanes k m cause t) ↔ SameBut w s t := by simp [excludeLanes, h]

@[simp] theorem same_queueLane {k n b} (h : .lanes ∈ w) : SameBut w s (queueLane k n b t) ↔ SameBut w s t := by
  simp [queueLane, h]

@[simp] theorem same_sendWord {n sync b} (h : .lanes ∈ w) : SameBut w s (sendWord n sync b t).2 ↔ SameBut w s t := by
  simp [sendWord, h]

@[simp] theorem same_enterState {k st} (h : .links ∈ w) : SameBut w s (enterState k st t) ↔ SameBut w s t := by
  simp [enterState, h]

@[simp] theorem same_enterSync {k again} (h : .links ∈ w ∧ .lanes ∈ w) :
    SameBut w s (enterSync k again t) ↔ SameBut w s t := by simp [enterSync, h]

@[simp] theorem same_startRetrain {k cause failing byCommit} (h : .regions ∈ w ∧ .links ∈ w ∧ .lanes ∈ w ∧ .counters ∈ w ∧ .faults ∈ w) :
    SameBut w s (startRetrain k cause failing byCommit t) ↔ SameBut w s t := by simp [startRetrain, h]

@[simp] theorem same_forgetRx {k h' v} (h : .streams ∈ w ∧ .vcs ∈ w) :
    SameBut w s (forgetRx k h' v t) ↔ SameBut w s t := by
  simp only [forgetRx]
  (repeat' split) <;> simp [h]

@[simp] theorem same_toDetect {k timedOut down} (h : .streams ∈ w ∧ .links ∈ w ∧ .vcs ∈ w ∧ .lanes ∈ w ∧ .counters ∈ w) :
    SameBut w s (toDetect k timedOut down t) ↔ SameBut w s t := by simp [toDetect, h]

@[simp] theorem same_declareDown {k cause timedOut} (h : .regions ∈ w ∧ .streams ∈ w ∧ .links ∈ w ∧ .vcs ∈ w ∧ .lanes ∈ w ∧ .counters ∈ w ∧ .faults ∈ w) :
    SameBut w s (declareDown k cause timedOut t) ↔ SameBut w s t := by simp [declareDown, h]

@[simp] theorem same_chargeRelease {k p} (h : .vcs ∈ w) : SameBut w s (chargeRelease k p t) ↔ SameBut w s t := by
  simp [chargeRelease, h]

@[simp] theorem same_releaseUpTo {k sNum} (h : .links ∈ w ∧ .vcs ∈ w ∧ .counters ∈ w) :
    SameBut w s (releaseUpTo k sNum t) ↔ SameBut w s t := by simp [releaseUpTo, h]

@[simp] theorem same_startEpisode {k counted} (h : .regions ∈ w ∧ .streams ∈ w ∧ .links ∈ w ∧ .vcs ∈ w ∧ .lanes ∈ w ∧ .counters ∈ w ∧ .faults ∈ w) :
    SameBut w s (startEpisode k counted t) ↔ SameBut w s t := by
  simp only [startEpisode]
  (repeat' split) <;> simp [h]

@[simp] theorem same_takeCredit {k v cl empty} (h : .regions ∈ w ∧ .links ∈ w ∧ .vcs ∈ w ∧ .lanes ∈ w ∧ .counters ∈ w ∧ .faults ∈ w) :
    SameBut w s (takeCredit k v cl empty t) ↔ SameBut w s t := by simp [takeCredit, h]

@[simp] theorem same_queueOn {k v m} {full : Nat → State → State} (hf : ∀ k u, SameBut w u (full k u))
    (h : .vcs ∈ w ∧ .counters ∈ w) : SameBut w s (queueOn k v m full t) ↔ SameBut w s t := by
  refine SameBut.congr ?_
  simp only [queueOn]
  (repeat' split) <;> simp [h, hf]

@[simp] theorem same_queueMessage {k v kind bytes deadline} {full : Nat → State → State}
    (hf : ∀ k u, SameBut w u (full k u)) (h : .vcs ∈ w ∧ .pairs ∈ w ∧ .counters ∈ w) :
    SameBut w s (queueMessage k v kind bytes deadline full t) ↔ SameBut w s t := by
  simp [queueMessage, h, hf]

@[simp] theorem same_phaseMove {n} (h : .lanes ∈ w ∧ .counters ∈ w) :
    SameBut w s (phaseMove n t) ↔ SameBut w s t := by simp [phaseMove, h]

@[simp] theorem same_thresholdMove {n} (h : .lanes ∈ w ∧ .counters ∈ w) :
    SameBut w s (thresholdMove n t) ↔ SameBut w s t := by simp [thresholdMove, h]

@[simp] theorem same_samplerMove {n} (h : .lanes ∈ w ∧ .counters ∈ w) :
    SameBut w s (samplerMove n t) ↔ SameBut w s t := by simp [samplerMove, h]

@[simp] theorem same_catchUp {n} (h : .lanes ∈ w ∧ .counters ∈ w) : SameBut w s (catchUp n t) ↔ SameBut w s t := by
  simp [catchUp, h]

@[simp] theorem same_curlewDuty (h : .lanes ∈ w ∧ .counters ∈ w) : SameBut w s (curlewDuty t) ↔ SameBut w s t := by
  simp [curlewDuty, h]

@[simp] theorem same_setQuiet {open'} (h : .quiet ∈ w) : SameBut w s (setQuiet open' t) ↔ SameBut w s t := by
  simp [setQuiet, h]

@[simp] theorem same_quietEvent {id} (h : .quiet ∈ w) : SameBut w s (quietEvent id t) ↔ SameBut w s t := by
  simp only [quietEvent]
  (repeat' split) <;> simp [h]

@[simp] theorem same_gateEvent {id} (h : .meters ∈ w) : SameBut w s (gateEvent id t) ↔ SameBut w s t := by
  simp [gateEvent, h]

@[simp] theorem same_swapRegion {i r offset} (h : .status ∈ w ∧ .regions ∈ w ∧ .counters ∈ w) :
    SameBut w s (swapRegion i r offset t) ↔ SameBut w s t := by simp [swapRegion, h]

@[simp] theorem same_swapEvent {id offset} (h : .status ∈ w ∧ .regions ∈ w ∧ .counters ∈ w) :
    SameBut w s (swapEvent id offset t) ↔ SameBut w s t := by simp [swapEvent, h]

@[simp] theorem same_evtActions {r} (h : .dunlin ∈ w) : SameBut w s (evtActions r t) ↔ SameBut w s t := by
  simp [evtActions, h]

@[simp] theorem same_fireRecord {r} (h : .status ∈ w ∧ .regions ∈ w ∧ .dunlin ∈ w ∧ .meters ∈ w ∧ .quiet ∈ w ∧ .chans ∈ w ∧ .counters ∈ w) :
    SameBut w s (fireRecord r t) ↔ SameBut w s t := by simp [fireRecord, h]

@[simp] theorem same_fireRecords {l} (h : .status ∈ w ∧ .regions ∈ w ∧ .dunlin ∈ w ∧ .meters ∈ w ∧ .quiet ∈ w ∧ .chans ∈ w ∧ .counters ∈ w) :
    SameBut w s (fireRecords l t) ↔ SameBut w s t := by simp [fireRecords, h]

@[simp] theorem same_showEvtOut (h : .dunlin ∈ w) : SameBut w s (showEvtOut t) ↔ SameBut w s t := by
  simp [showEvtOut, h]

@[simp] theorem same_enterSafe {mask detail} (h : .heronCopies ∈ w ∧ .ports ∈ w ∧ .counters ∈ w ∧ .faults ∈ w) :
    SameBut w s (enterSafe mask detail t) ↔ SameBut w s t := by simp [enterSafe, h]

@[simp] theorem same_fireDue {go : Bool} {n : Nat} (h : .status ∈ w ∧ .regions ∈ w ∧ .dunlin ∈ w ∧ .heronCopies ∈ w ∧ .meters ∈ w ∧ .ports ∈ w ∧ .quiet ∈ w ∧ .chans ∈ w ∧ .counters ∈ w ∧ .faults ∈ w) :
    SameBut w s (fireDue go n t) ↔ SameBut w s t := by
  simp only [fireDue]
  rw [same_fireRecords, same_setCopies, same_whenB fun u => (same_whenB fun v => by simp [h]).2 (by simp [h])]
  all_goals simp [h]

@[simp] theorem same_inOneCk {f : Bool → State → State} (hf : ∀ g u, SameBut w u (f g u)) (h : .counters ∈ w) :
    SameBut w s (inOneCk f t) ↔ SameBut w s t := by
  refine SameBut.congr ?_
  simp only [inOneCk]
  split <;> simp [h, hf]

@[simp] theorem same_takeGates {p off} (h : .heronCopies ∈ w) : SameBut w s (takeGates p off t) ↔ SameBut w s t := by
  simp [takeGates, h]

@[simp] theorem fenced_clock {x : Heron} {i : Nat} : (fenced x i).started = x.started ∧
    (fenced x i).cycle = x.cycle ∧ (fenced x i).acc = x.acc ∧ (fenced x i).boundary = x.boundary ∧
    (fenced x i).len = x.len := by
  simp only [fenced]
  split <;> exact ⟨rfl, rfl, rfl, rfl, rfl⟩

@[simp] theorem same_fenceCopy {m i d} (h : .heronCopies ∈ w ∧ .counters ∈ w ∧ .faults ∈ w) : SameBut w s (fenceCopy m i d t) ↔ SameBut w s t := by
  simp only [fenceCopy]
  split <;> simp [h]

@[simp] theorem same_vote (h : .heronCopies ∈ w ∧ .ports ∈ w ∧ .counters ∈ w ∧ .faults ∈ w) :
    SameBut w s (vote t) ↔ SameBut w s t := by
  simp only [vote]
  (repeat' split) <;> simp [h]

@[simp] theorem same_staleOutbound {v} (h : .regions ∈ w) : SameBut w s (staleOutbound v t) ↔ SameBut w s t := by
  simp [staleOutbound, h]

@[simp] theorem same_clearOutbound (h : .regions ∈ w) : SameBut w s (clearOutbound t) ↔ SameBut w s t := by
  simp [clearOutbound, h]

@[simp] theorem same_settleRegions (h : .regions ∈ w) : SameBut w s (settleRegions t) ↔ SameBut w s t := by
  simp [settleRegions, h]

@[simp] theorem same_watchdog (h : .status ∈ w ∧ .regions ∈ w ∧ .counters ∈ w ∧ .faults ∈ w) :
    SameBut w s (watchdog t) ↔ SameBut w s t := by simp [watchdog, h]

@[simp] theorem same_settleWatchdog (h : .status ∈ w ∧ .regions ∈ w ∧ .counters ∈ w ∧ .faults ∈ w) :
    SameBut w s (settleWatchdog t) ↔ SameBut w s t := by simp [settleWatchdog, h]

@[simp] theorem same_unbankedStale (h : .regions ∈ w) : SameBut w s (unbankedStale t) ↔ SameBut w s t := by
  simp [unbankedStale, h]

@[simp] theorem same_haltDiscard (h : .vcs ∈ w ∧ .counters ∈ w) : SameBut w s (haltDiscard t) ↔ SameBut w s t := by
  simp only [haltDiscard]
  refine same_each fun a u => ?_
  refine (same_each fun b r => ?_).2 SameBut.refl
  exact (same_each fun c q => by simp [h]).2 (by simp [h])

@[simp] theorem same_scrubWords (h : .mem ∈ w ∧ .upsets ∈ w ∧ .hostWords ∈ w) :
    SameBut w s (scrubWords t) ↔ SameBut w s t := by simp [scrubWords, h]

@[simp] theorem same_forgetTaken (h : .vcs ∈ w) : SameBut w s (forgetTaken t) ↔ SameBut w s t := by
  simp [forgetTaken, h]

@[simp] theorem same_avocetBoundary {due} (h : .mem ∈ w ∧ .upsets ∈ w ∧ .hostWords ∈ w ∧ .vcs ∈ w ∧ .chans ∈ w ∧ .avocet ∈ w ∧ .counters ∈ w ∧ .faults ∈ w) :
    SameBut w s (avocetBoundary due t) ↔ SameBut w s t := by simp [avocetBoundary, h]

@[simp] theorem same_discardCovered {p c} (h : .queues ∈ w ∧ .rxCells ∈ w ∧ .counters ∈ w) :
    SameBut w s (discardCovered p c t) ↔ SameBut w s t := by simp [discardCovered, h]

@[simp] theorem same_dropReasm {p n} (h : .ports ∈ w ∧ .rxCells ∈ w ∧ .counters ∈ w) :
    SameBut w s (dropReasm p n t) ↔ SameBut w s t := by
  simp only [dropReasm]
  (repeat' split) <;> simp [h]

@[simp] theorem same_portGoesDown {p} (h : .ports ∈ w ∧ .queues ∈ w ∧ .rxCells ∈ w ∧ .counters ∈ w) :
    SameBut w s (portGoesDown p t) ↔ SameBut w s t := by simp [portGoesDown, h]

@[simp] theorem same_portComesUp {p} (h : .ports ∈ w ∧ .counters ∈ w) :
    SameBut w s (portComesUp p t) ↔ SameBut w s t := by simp [portComesUp, h]

@[simp] theorem same_startVerify {p} (h : .ports ∈ w) : SameBut w s (startVerify p t) ↔ SameBut w s t := by
  simp only [startVerify]
  (repeat' split) <;> simp [h]

@[simp] theorem same_mdioWrite {p reg val} (h : .mdio ∈ w) : SameBut w s (mdioWrite p reg val t) ↔ SameBut w s t := by
  simp only [mdioWrite]
  (repeat' split) <;> simp [h]

@[simp] theorem same_mdioAccess {addr reg val} (h : .mdio ∈ w) :
    SameBut w s (mdioAccess addr reg val t) ↔ SameBut w s t := by simp [mdioAccess, h]

@[simp] theorem same_mdioDuty (h : .mdio ∈ w) : SameBut w s (mdioDuty t) ↔ SameBut w s t := by
  simp only [mdioDuty]
  (repeat' split) <;> simp [h]

@[simp] theorem same_phyBringUp {p} (h : .ports ∈ w ∧ .mdio ∈ w) : SameBut w s (phyBringUp p t) ↔ SameBut w s t := by
  simp [phyBringUp, h]

@[simp] theorem same_startPcs {p} : SameBut w s (startPcs p t) ↔ SameBut w s t := by simp [startPcs]

@[simp] theorem same_startPort {p} (h : .ports ∈ w ∧ .mdio ∈ w) : SameBut w s (startPort p t) ↔ SameBut w s t := by
  simp [startPort, h]

@[simp] theorem same_countRaise {p} (h : .counters ∈ w) : SameBut w s (countRaise p t) ↔ SameBut w s t := by
  simp only [countRaise]
  (repeat' split) <;> simp [h]

@[simp] theorem same_stompCopy {p n t'} (h : .ports ∈ w) : SameBut w s (stompCopy p n t' t) ↔ SameBut w s t := by
  simp [stompCopy, h]

@[simp] theorem same_stompAll {n : Nat} (h : .ports ∈ w) : SameBut w s (stompAll n t) ↔ SameBut w s t := by
  simp only [stompAll]
  refine same_each fun a u => ?_
  (repeat' split) <;> simp [h]

@[simp] theorem same_writeShadows {t'} (h : .heronCopies ∈ w) : SameBut w s (writeShadows t' t) ↔ SameBut w s t := by
  simp [writeShadows, h]

@[simp] theorem same_clearShadows (h : .heronCopies ∈ w) : SameBut w s (clearShadows t) ↔ SameBut w s t := by
  simp [clearShadows, h]

@[simp] theorem same_hotSwitch (h : .dunlin ∈ w ∧ .heronClock ∈ w ∧ .counters ∈ w) :
    SameBut w s (hotSwitch t) ↔ SameBut w s t := by simp [hotSwitch, h]

@[simp] theorem same_idleRate {d} (h : .dunlin ∈ w) : SameBut w s (idleRate d t) ↔ SameBut w s t := by
  simp [idleRate, h]

@[simp] theorem same_callSwitch {d} (h : .dunlin ∈ w) : SameBut w s (callSwitch d t) ↔ SameBut w s t := by
  simp [callSwitch, h]

@[simp] theorem same_switchDuty (h : .dunlin ∈ w ∧ .heronClock ∈ w ∧ .counters ∈ w) :
    SameBut w s (switchDuty t) ↔ SameBut w s t := by
  simp only [switchDuty]
  (repeat' split) <;> simp [h]

@[simp] theorem same_commitDomain {d was now'} (h : .dunlin ∈ w) :
    SameBut w s (commitDomain d was now' t) ↔ SameBut w s t := by simp [commitDomain, h]

@[simp] theorem same_commitGrid {o n} (h : .dunlin ∈ w) : SameBut w s (commitGrid o n t) ↔ SameBut w s t := by
  simp [commitGrid, h]

@[simp] theorem same_commitStream {o portsMoved q} (h : .streams ∈ w ∧ .rxCells ∈ w ∧ .counters ∈ w) :
    SameBut w s (commitStream o portsMoved q t) ↔ SameBut w s t := by
  simp only [commitStream]
  (repeat' split) <;> simp [h]

@[simp] theorem same_commitMeter {o m} (h : .meters ∈ w) : SameBut w s (commitMeter o m t) ↔ SameBut w s t := by
  simp only [commitMeter]
  (repeat' split) <;> simp [h]

@[simp] theorem same_commitListener {o l} (h : .rxCells ∈ w ∧ .listeners ∈ w) :
    SameBut w s (commitListener o l t) ↔ SameBut w s t := by
  simp only [commitListener]
  (repeat' split) <;> simp [h]

@[simp] theorem same_commitLink {oS k} (h : .regions ∈ w ∧ .links ∈ w ∧ .lanes ∈ w ∧ .counters ∈ w ∧ .faults ∈ w) :
    SameBut w s (commitLink oS k t) ↔ SameBut w s t := by
  simp only [commitLink]
  (repeat' split) <;> simp [h]

@[simp] theorem same_commitPair {oS j} (h : .pairs ∈ w ∧ .counters ∈ w) :
    SameBut w s (commitPair oS j t) ↔ SameBut w s t := by simp [commitPair, h]

@[simp] theorem same_commitVc {o i} (h : .streams ∈ w ∧ .vcs ∈ w ∧ .counters ∈ w) :
    SameBut w s (commitVc o i t) ↔ SameBut w s t := by
  simp only [commitVc]
  (repeat' split) <;> simp [h]

@[simp] theorem same_commitRegion {o i} (h : .regions ∈ w) : SameBut w s (commitRegion o i t) ↔ SameBut w s t := by
  simp only [commitRegion]
  (repeat' split) <;> simp [h]

@[simp] theorem same_commitChannel {o c} (h : .chans ∈ w) : SameBut w s (commitChannel o c t) ↔ SameBut w s t := by
  simp only [commitChannel]
  (repeat' split) <;> simp [h]

@[simp] theorem same_commitPort {oS p staged} (h : .ports ∈ w ∧ .mdio ∈ w ∧ .queues ∈ w ∧ .rxCells ∈ w ∧ .counters ∈ w) :
    SameBut w s (commitPort oS p staged t) ↔ SameBut w s t := by simp [commitPort, h]

@[simp] theorem same_commitCal {o} (h : .lanes ∈ w ∧ .quiet ∈ w) : SameBut w s (commitCal o t) ↔ SameBut w s t := by
  simp [commitCal, h]

@[simp] theorem same_commitMgmt (h : .mgmtRx ∈ w) : SameBut w s (commitMgmt t) ↔ SameBut w s t := by
  simp [commitMgmt, h]

@[simp] theorem same_countAbsent {x} (h : .counters ∈ w) : SameBut w s (countAbsent x t) ↔ SameBut w s t := by
  simp [countAbsent, h]

@[simp] theorem same_putInForce {x} (h : .tables ∈ w ∧ .regions ∈ w ∧ .dunlin ∈ w ∧ .streams ∈ w ∧ .meters ∈ w ∧ .ports ∈ w ∧ .mdio ∈ w ∧ .queues ∈ w ∧ .rxCells ∈ w ∧ .listeners ∈ w ∧ .links ∈ w ∧ .vcs ∈ w ∧ .pairs ∈ w ∧ .lanes ∈ w ∧ .quiet ∈ w ∧ .chans ∈ w ∧ .mgmtRx ∈ w ∧ .counters ∈ w ∧ .faults ∈ w) :
    SameBut w s (putInForce x t) ↔ SameBut w s t := by simp [putInForce, h]

@[simp] theorem same_takeShadows (h : .heronCopies ∈ w) : SameBut w s (takeShadows t) ↔ SameBut w s t := by
  simp [takeShadows, h]

@[simp] theorem same_applySet {x} (h : .tables ∈ w ∧ .staged ∈ w ∧ .regions ∈ w ∧ .dunlin ∈ w ∧ .heronCopies ∈ w ∧ .streams ∈ w ∧ .meters ∈ w ∧ .ports ∈ w ∧ .mdio ∈ w ∧ .queues ∈ w ∧ .rxCells ∈ w ∧ .listeners ∈ w ∧ .links ∈ w ∧ .vcs ∈ w ∧ .pairs ∈ w ∧ .lanes ∈ w ∧ .quiet ∈ w ∧ .chans ∈ w ∧ .avocet ∈ w ∧ .mgmtRx ∈ w ∧ .counters ∈ w ∧ .faults ∈ w) :
    SameBut w s (applySet x t) ↔ SameBut w s t := by simp [applySet, h]

@[simp] theorem same_commitStep (h : .tables ∈ w ∧ .staged ∈ w ∧ .commit ∈ w ∧ .regions ∈ w ∧ .dunlin ∈ w ∧ .heronCopies ∈ w ∧ .streams ∈ w ∧ .meters ∈ w ∧ .ports ∈ w ∧ .mdio ∈ w ∧ .queues ∈ w ∧ .rxCells ∈ w ∧ .listeners ∈ w ∧ .links ∈ w ∧ .vcs ∈ w ∧ .pairs ∈ w ∧ .lanes ∈ w ∧ .quiet ∈ w ∧ .chans ∈ w ∧ .avocet ∈ w ∧ .mgmtRx ∈ w ∧ .counters ∈ w ∧ .faults ∈ w) :
    SameBut w s (commitStep t) ↔ SameBut w s t := by
  simp only [commitStep]
  (repeat' split) <;> simp [h]

@[simp] theorem same_latchCause {c} (h : .supply ∈ w) : SameBut w s (latchCause c t) ↔ SameBut w s t := by
  simp [latchCause, h]

@[simp] theorem same_setPgood {v} (h : .supply ∈ w) : SameBut w s (setPgood v t) ↔ SameBut w s t := by
  simp [setPgood, h]

@[simp] theorem same_readExtpwr {vinMv extpwr} (h : .supply ∈ w) :
    SameBut w s (readExtpwr vinMv extpwr t) ↔ SameBut w s t := by simp [readExtpwr, h]

@[simp] theorem same_enterOvertemp (h : .supply ∈ w ∧ .counters ∈ w ∧ .power ∈ w ∧ .faults ∈ w) :
    SameBut w s (enterOvertemp t) ↔ SameBut w s t := by simp [enterOvertemp, h]

@[simp] theorem same_release {x} (h : .now ∈ w ∧ .supply ∈ w ∧ .straps ∈ w ∧ .ladder ∈ w ∧ .counters ∈ w ∧ .power ∈ w ∧ .faults ∈ w ∧ .freeze ∈ w) :
    SameBut w s (release x t) ↔ SameBut w s t := by simp [release, h]

@[simp] theorem same_clockRetrain (h : .regions ∈ w ∧ .links ∈ w ∧ .lanes ∈ w ∧ .counters ∈ w ∧ .faults ∈ w) :
    SameBut w s (clockRetrain t) ↔ SameBut w s t := by simp [clockRetrain, h]

@[simp] theorem same_setBank {b x} (h : .supply ∈ w) : SameBut w s (setBank b x t) ↔ SameBut w s t := by
  simp only [setBank]
  (repeat' split) <;> simp [h]

@[simp] theorem same_unpowerBank {b} (h : .supply ∈ w) : SameBut w s (unpowerBank b t) ↔ SameBut w s t := by
  simp [unpowerBank, h]

@[simp] theorem same_enterBrownOut {b} (h : .supply ∈ w ∧ .counters ∈ w ∧ .power ∈ w ∧ .faults ∈ w) :
    SameBut w s (enterBrownOut b t) ↔ SameBut w s t := by simp [enterBrownOut, h]

@[simp] theorem same_passedOver {go} (h : .status ∈ w ∧ .regions ∈ w ∧ .dunlin ∈ w ∧ .heronCopies ∈ w ∧ .meters ∈ w ∧ .ports ∈ w ∧ .quiet ∈ w ∧ .chans ∈ w ∧ .counters ∈ w ∧ .faults ∈ w) :
    SameBut w s (passedOver go t) ↔ SameBut w s t := by simp [passedOver, h]

@[simp] theorem same_endStep (h : .dunlin ∈ w) : SameBut w s (endStep t) ↔ SameBut w s t := by simp [endStep, h]

@[simp] theorem same_beginCycle (h : .dunlin ∈ w ∧ .heronClock ∈ w ∧ .counters ∈ w) :
    SameBut w s (beginCycle t) ↔ SameBut w s t := by simp [beginCycle, h]

@[simp] theorem same_openCycle {go} (h : .status ∈ w ∧ .regions ∈ w ∧ .dunlin ∈ w ∧ .heronCopies ∈ w ∧ .meters ∈ w ∧ .ports ∈ w ∧ .quiet ∈ w ∧ .chans ∈ w ∧ .counters ∈ w ∧ .faults ∈ w) :
    SameBut w s (openCycle go t) ↔ SameBut w s t := by simp [openCycle, h]

@[simp] theorem same_countCycle (h : .heronClock ∈ w ∧ .counters ∈ w) :
    SameBut w s (countCycle t) ↔ SameBut w s t := by simp [countCycle, h]

@[simp] theorem same_boundaryDuties {due} (h : .mem ∈ w ∧ .upsets ∈ w ∧ .hostWords ∈ w ∧ .status ∈ w ∧ .regions ∈ w ∧ .vcs ∈ w ∧ .chans ∈ w ∧ .avocet ∈ w ∧ .counters ∈ w ∧ .faults ∈ w) :
    SameBut w s (boundaryDuties due t) ↔ SameBut w s t := by simp [boundaryDuties, h]

@[simp] theorem same_boundaryOf {go} (h : .tables ∈ w ∧ .staged ∈ w ∧ .commit ∈ w ∧ .mem ∈ w ∧ .upsets ∈ w ∧ .hostWords ∈ w ∧ .status ∈ w ∧ .regions ∈ w ∧ .dunlin ∈ w ∧ .heronClock ∈ w ∧ .heronCopies ∈ w ∧ .streams ∈ w ∧ .meters ∈ w ∧ .ports ∈ w ∧ .mdio ∈ w ∧ .queues ∈ w ∧ .rxCells ∈ w ∧ .listeners ∈ w ∧ .links ∈ w ∧ .vcs ∈ w ∧ .pairs ∈ w ∧ .lanes ∈ w ∧ .quiet ∈ w ∧ .chans ∈ w ∧ .avocet ∈ w ∧ .mgmtRx ∈ w ∧ .counters ∈ w ∧ .faults ∈ w) :
    SameBut w s (boundaryOf go t) ↔ SameBut w s t := by simp [boundaryOf, h]

@[simp] theorem same_boundary (h : .tables ∈ w ∧ .staged ∈ w ∧ .commit ∈ w ∧ .mem ∈ w ∧ .upsets ∈ w ∧ .hostWords ∈ w ∧ .status ∈ w ∧ .regions ∈ w ∧ .dunlin ∈ w ∧ .heronClock ∈ w ∧ .heronCopies ∈ w ∧ .streams ∈ w ∧ .meters ∈ w ∧ .ports ∈ w ∧ .mdio ∈ w ∧ .queues ∈ w ∧ .rxCells ∈ w ∧ .listeners ∈ w ∧ .links ∈ w ∧ .vcs ∈ w ∧ .pairs ∈ w ∧ .lanes ∈ w ∧ .quiet ∈ w ∧ .chans ∈ w ∧ .avocet ∈ w ∧ .mgmtRx ∈ w ∧ .counters ∈ w ∧ .faults ∈ w) :
    SameBut w s (boundary t) ↔ SameBut w s t := by simp [boundary, h]

@[simp] theorem same_takeDue {go} (h : .status ∈ w ∧ .regions ∈ w ∧ .dunlin ∈ w ∧ .heronCopies ∈ w ∧ .meters ∈ w ∧ .ports ∈ w ∧ .quiet ∈ w ∧ .chans ∈ w ∧ .counters ∈ w ∧ .faults ∈ w) :
    SameBut w s (takeDue go t) ↔ SameBut w s t := by simp [takeDue, h]

@[simp] theorem same_heronWork (h : .tables ∈ w ∧ .staged ∈ w ∧ .commit ∈ w ∧ .mem ∈ w ∧ .upsets ∈ w ∧ .hostWords ∈ w ∧ .status ∈ w ∧ .regions ∈ w ∧ .dunlin ∈ w ∧ .heronClock ∈ w ∧ .heronCopies ∈ w ∧ .streams ∈ w ∧ .meters ∈ w ∧ .ports ∈ w ∧ .mdio ∈ w ∧ .queues ∈ w ∧ .rxCells ∈ w ∧ .listeners ∈ w ∧ .links ∈ w ∧ .vcs ∈ w ∧ .pairs ∈ w ∧ .lanes ∈ w ∧ .quiet ∈ w ∧ .chans ∈ w ∧ .avocet ∈ w ∧ .mgmtRx ∈ w ∧ .counters ∈ w ∧ .faults ∈ w) :
    SameBut w s (heronWork t) ↔ SameBut w s t := by simp [heronWork, h]

@[simp] theorem same_changeCopy {i f} (h : .heronCopies ∈ w) : SameBut w s (changeCopy i f t) ↔ SameBut w s t := by
  simp only [changeCopy]
  (repeat' split) <;> simp [h]

@[simp] theorem same_heronUpset {u} (h : .heronCopies ∈ w) : SameBut w s (heronUpset u t) ↔ SameBut w s t := by
  simp only [heronUpset]
  (repeat' split) <;> simp [h]

@[simp] theorem same_voteUnder {u} (h : .tables ∈ w ∧ .staged ∈ w ∧ .commit ∈ w ∧ .mem ∈ w ∧ .upsets ∈ w ∧ .hostWords ∈ w ∧ .status ∈ w ∧ .regions ∈ w ∧ .dunlin ∈ w ∧ .heronClock ∈ w ∧ .heronCopies ∈ w ∧ .streams ∈ w ∧ .meters ∈ w ∧ .ports ∈ w ∧ .mdio ∈ w ∧ .queues ∈ w ∧ .rxCells ∈ w ∧ .listeners ∈ w ∧ .links ∈ w ∧ .vcs ∈ w ∧ .pairs ∈ w ∧ .lanes ∈ w ∧ .quiet ∈ w ∧ .chans ∈ w ∧ .avocet ∈ w ∧ .mgmtRx ∈ w ∧ .counters ∈ w ∧ .faults ∈ w) :
    SameBut w s (voteUnder u t) ↔ SameBut w s t := by simp [voteUnder, h]

@[simp] theorem same_heronDuty (h : .tables ∈ w ∧ .staged ∈ w ∧ .commit ∈ w ∧ .mem ∈ w ∧ .upsets ∈ w ∧ .hostWords ∈ w ∧ .status ∈ w ∧ .regions ∈ w ∧ .dunlin ∈ w ∧ .heronClock ∈ w ∧ .heronCopies ∈ w ∧ .streams ∈ w ∧ .meters ∈ w ∧ .ports ∈ w ∧ .mdio ∈ w ∧ .queues ∈ w ∧ .rxCells ∈ w ∧ .listeners ∈ w ∧ .links ∈ w ∧ .vcs ∈ w ∧ .pairs ∈ w ∧ .lanes ∈ w ∧ .quiet ∈ w ∧ .chans ∈ w ∧ .avocet ∈ w ∧ .mgmtRx ∈ w ∧ .counters ∈ w ∧ .faults ∈ w) :
    SameBut w s (heronDuty t) ↔ SameBut w s t := by simp [heronDuty, h]

@[simp] theorem same_startPorts (h : .ports ∈ w ∧ .mdio ∈ w) : SameBut w s (startPorts t) ↔ SameBut w s t := by
  simp [startPorts, h]

@[simp] theorem same_startLinks (h : .links ∈ w ∧ .lanes ∈ w) : SameBut w s (startLinks t) ↔ SameBut w s t := by
  simp [startLinks, h]

@[simp] theorem same_ladderEnds (h : .ladder ∈ w ∧ .ports ∈ w ∧ .mdio ∈ w ∧ .links ∈ w ∧ .lanes ∈ w ∧ .counters ∈ w ∧ .freeze ∈ w) :
    SameBut w s (ladderEnds t) ↔ SameBut w s t := by simp [ladderEnds, h]

@[simp] theorem same_startScrubs (h : .scrubs ∈ w) : SameBut w s (startScrubs t) ↔ SameBut w s t := by
  simp [startScrubs, h]

@[simp] theorem same_announcePhase : SameBut w s (announcePhase t) ↔ SameBut w s t := by
  simp only [announcePhase, same_announce_ports]
  exact same_each fun _ _ => same_setPort_announced.2 SameBut.refl

@[simp] theorem same_logCause (h : .supply ∈ w ∧ .counters ∈ w ∧ .faults ∈ w) :
    SameBut w s (logCause t) ↔ SameBut w s t := by
  simp only [logCause]
  (repeat' split) <;> simp [h]

@[simp] theorem same_enterBare (h : .supply ∈ w ∧ .boot ∈ w ∧ .tables ∈ w ∧ .dunlin ∈ w ∧ .ports ∈ w ∧ .mdio ∈ w ∧ .links ∈ w ∧ .lanes ∈ w ∧ .mgmtKey ∈ w ∧ .counters ∈ w ∧ .faults ∈ w) :
    SameBut w s (enterBare t) ↔ SameBut w s t := by
  simp only [enterBare]
  (repeat' split) <;> simp [h]

@[simp] theorem same_flashCommand {chip cmd addr dummies} :
    SameBut w s (flashCommand chip cmd addr dummies t) ↔ SameBut w s t := by simp [flashCommand]

@[simp] theorem same_clearWords {lo n} (h : .mem ∈ w ∧ .upsets ∈ w) :
    SameBut w s (clearWords lo n t) ↔ SameBut w s t := by simp [clearWords, h]

@[simp] theorem same_setResult {x code} (h : .boot ∈ w) : SameBut w s (setResult x code t) ↔ SameBut w s t := by
  simp only [setResult]
  (repeat' split) <;> simp [h]

@[simp] theorem same_recordFail {x r} (h : .boot ∈ w ∧ .faults ∈ w) :
    SameBut w s (recordFail x r t) ↔ SameBut w s t := by simp [recordFail, h]

@[simp] theorem same_readSlot {x} : SameBut w s (readSlot x t) ↔ SameBut w s t := by simp [readSlot]

@[simp] theorem same_trySlots {n : Nat} {x : Option Slot} (h : .supply ∈ w ∧ .boot ∈ w ∧ .tables ∈ w ∧ .dunlin ∈ w ∧ .ports ∈ w ∧ .mdio ∈ w ∧ .links ∈ w ∧ .lanes ∈ w ∧ .mgmtKey ∈ w ∧ .counters ∈ w ∧ .faults ∈ w) :
    SameBut w s (trySlots n x t) ↔ SameBut w s t := by
  induction n generalizing x t with
  | zero => simp [trySlots, h]
  | succ n ih =>
    cases x with
    | none => simp [trySlots, h]
    | some x => simp only [trySlots]; split <;> simp [h, ih]

@[simp] theorem same_installKey {i} (h : .mgmtKey ∈ w ∧ .counters ∈ w ∧ .faults ∈ w) :
    SameBut w s (installKey i t) ↔ SameBut w s t := by
  simp only [installKey]
  (repeat' split) <;> simp [h]

@[simp] theorem same_startDomains {t'} (h : .dunlin ∈ w) : SameBut w s (startDomains t' t) ↔ SameBut w s t := by
  simp [startDomains, h]

@[simp] theorem same_startMeters (h : .meters ∈ w) : SameBut w s (startMeters t) ↔ SameBut w s t := by
  simp [startMeters, h]

@[simp] theorem same_startVcs (h : .vcs ∈ w) : SameBut w s (startVcs t) ↔ SameBut w s t := by simp [startVcs, h]

@[simp] theorem same_startPairs (h : .pairs ∈ w ∧ .counters ∈ w) : SameBut w s (startPairs t) ↔ SameBut w s t := by
  simp only [startPairs]
  exact same_each fun a u => (same_each fun b r => by simp [h]).2 SameBut.refl

@[simp] theorem same_startStreams {tat} (h : .streams ∈ w) : SameBut w s (startStreams tat t) ↔ SameBut w s t := by
  simp [startStreams, h]

@[simp] theorem same_loadTables {i} (h : .tables ∈ w ∧ .heronCopies ∈ w) :
    SameBut w s (loadTables i t) ↔ SameBut w s t := by simp [loadTables, h]

@[simp] theorem same_configBegins {i} (h : .tables ∈ w ∧ .dunlin ∈ w ∧ .heronCopies ∈ w ∧ .streams ∈ w ∧ .meters ∈ w ∧ .ports ∈ w ∧ .mdio ∈ w ∧ .links ∈ w ∧ .vcs ∈ w ∧ .pairs ∈ w ∧ .lanes ∈ w ∧ .counters ∈ w) :
    SameBut w s (configBegins i t) ↔ SameBut w s t := by simp [configBegins, h]

@[simp] theorem same_acceptSlot {x i} (h : .boot ∈ w ∧ .tables ∈ w ∧ .dunlin ∈ w ∧ .heronCopies ∈ w ∧ .streams ∈ w ∧ .meters ∈ w ∧ .ports ∈ w ∧ .mdio ∈ w ∧ .links ∈ w ∧ .vcs ∈ w ∧ .pairs ∈ w ∧ .lanes ∈ w ∧ .counters ∈ w) :
    SameBut w s (acceptSlot x i t) ↔ SameBut w s t := by simp [acceptSlot, h]

@[simp] theorem same_configEnds {i} (h : .boot ∈ w ∧ .mgmtKey ∈ w ∧ .counters ∈ w ∧ .faults ∈ w) :
    SameBut w s (configEnds i t) ↔ SameBut w s t := by
  simp only [configEnds]
  simp [h]

@[simp] theorem same_setHeronClock (h : .heronClock ∈ w ∧ .meters ∈ w ∧ .coarse ∈ w ∧ .queues ∈ w) :
    SameBut w s (setHeronClock t) ↔ SameBut w s t := by simp [setHeronClock, h]

@[simp] theorem same_enterRegions (h : .mem ∈ w ∧ .upsets ∈ w ∧ .regions ∈ w) : SameBut w s (enterRegions t) ↔ SameBut w s t := by
  simp only [enterRegions]
  refine same_each fun a u => ?_
  split
  · rw [same_each fun b v => by simp [h]]; simp [h]
  · simp [h]

@[simp] theorem same_revokeKeys (h : .otp ∈ w) : SameBut w s (revokeKeys t) ↔ SameBut w s t := by
  simp only [revokeKeys]
  (repeat' split) <;> simp [h]

@[simp] theorem same_enterService (h : .supply ∈ w ∧ .boot ∈ w ∧ .otp ∈ w ∧ .mem ∈ w ∧ .upsets ∈ w ∧ .status ∈ w ∧ .regions ∈ w ∧ .dunlin ∈ w ∧ .chans ∈ w ∧ .avocet ∈ w ∧ .counters ∈ w ∧ .faults ∈ w) :
    SameBut w s (enterService t) ↔ SameBut w s t := by
  simp only [enterService]
  simp [h]

@[simp] theorem same_startHeron (h : .supply ∈ w ∧ .boot ∈ w ∧ .otp ∈ w ∧ .mem ∈ w ∧ .upsets ∈ w ∧ .status ∈ w ∧ .regions ∈ w ∧ .dunlin ∈ w ∧ .heronClock ∈ w ∧ .heronCopies ∈ w ∧ .streams ∈ w ∧ .meters ∈ w ∧ .coarse ∈ w ∧ .ports ∈ w ∧ .queues ∈ w ∧ .quiet ∈ w ∧ .chans ∈ w ∧ .avocet ∈ w ∧ .counters ∈ w ∧ .faults ∈ w) :
    SameBut w s (startHeron t) ↔ SameBut w s t := by simp [startHeron, h]

@[simp] theorem same_chooseWorking {d} (h : .dunlin ∈ w ∧ .heronClock ∈ w ∧ .counters ∈ w) :
    SameBut w s (chooseWorking d t) ↔ SameBut w s t := by
  simp only [chooseWorking]
  (repeat' split) <;> simp [h]

@[simp] theorem same_enterDom {d st} (h : .dunlin ∈ w ∧ .heronClock ∈ w ∧ .counters ∈ w ∧ .faults ∈ w) :
    SameBut w s (enterDom d st t) ↔ SameBut w s t := by simp [enterDom, h]

@[simp] theorem same_takeGm {d gm} (h : .dunlin ∈ w ∧ .heronClock ∈ w ∧ .counters ∈ w ∧ .faults ∈ w) :
    SameBut w s (takeGm d gm t) ↔ SameBut w s t := by
  simp only [takeGm]
  (repeat' split) <;> simp [h]

@[simp] theorem same_stepDom {d off} (h : .dunlin ∈ w ∧ .heronClock ∈ w ∧ .counters ∈ w) :
    SameBut w s (stepDom d off t) ↔ SameBut w s t := by simp [stepDom, h]

@[simp] theorem same_trimDom {d off} (h : .dunlin ∈ w ∧ .heronClock ∈ w ∧ .counters ∈ w ∧ .faults ∈ w) :
    SameBut w s (trimDom d off t) ↔ SameBut w s t := by
  simp only [trimDom]
  (repeat' split) <;> simp [h]

@[simp] theorem same_servo {d off} (h : .dunlin ∈ w ∧ .heronClock ∈ w ∧ .counters ∈ w ∧ .faults ∈ w) :
    SameBut w s (servo d off t) ↔ SameBut w s t := by simp [servo, h]

@[simp] theorem same_takeSync {d x} (h : .dunlin ∈ w ∧ .heronClock ∈ w ∧ .counters ∈ w ∧ .faults ∈ w) :
    SameBut w s (takeSync d x t) ↔ SameBut w s t := by simp [takeSync, h]

@[simp] theorem same_chooseMaster {d} (h : .dunlin ∈ w ∧ .heronClock ∈ w ∧ .counters ∈ w ∧ .faults ∈ w) :
    SameBut w s (chooseMaster d t) ↔ SameBut w s t := by
  simp only [chooseMaster]
  (repeat' split) <;> simp [h]

@[simp] theorem same_takeAnnounce {d x} (h : .dunlin ∈ w ∧ .heronClock ∈ w ∧ .counters ∈ w ∧ .faults ∈ w) :
    SameBut w s (takeAnnounce d x t) ↔ SameBut w s t := by simp [takeAnnounce, h]

@[simp] theorem same_masterDuty (h : .dunlin ∈ w ∧ .heronClock ∈ w ∧ .counters ∈ w ∧ .faults ∈ w) :
    SameBut w s (masterDuty t) ↔ SameBut w s t := by simp [masterDuty, h]

@[simp] theorem same_takePdelay {p m phase} (h : .ports ∈ w) :
    SameBut w s (takePdelay p m phase t) ↔ SameBut w s t := by
  simp only [takePdelay]
  (repeat' split) <;> simp [h]

@[simp] theorem same_takeLatency {p tx rx} (h : .ports ∈ w) :
    SameBut w s (takeLatency p tx rx t) ↔ SameBut w s t := by simp [takeLatency, h]

@[simp] theorem same_queueCapture {i c} (h : .inputs ∈ w ∧ .counters ∈ w) :
    SameBut w s (queueCapture i c t) ↔ SameBut w s t := by simp [queueCapture, h]

@[simp] theorem same_edgeTrigger {i rising} (h : .avocet ∈ w) :
    SameBut w s (edgeTrigger i rising t) ↔ SameBut w s t := by simp [edgeTrigger, h]

@[simp] theorem same_takeEdge {i rising phase} (h : .inputs ∈ w ∧ .avocet ∈ w ∧ .counters ∈ w ∧ .power ∈ w) :
    SameBut w s (takeEdge i rising phase t) ↔ SameBut w s t := by simp [takeEdge, h]

@[simp] theorem same_noteTime {k} (h : .links ∈ w) : SameBut w s (noteTime k t) ↔ SameBut w s t := by
  simp [noteTime, h]

@[simp] theorem same_oweTime {k} (h : .links ∈ w) : SameBut w s (oweTime k t) ↔ SameBut w s t := by simp [oweTime, h]

@[simp] theorem same_takeRtt {k rtt} (h : .links ∈ w ∧ .counters ∈ w) :
    SameBut w s (takeRtt k rtt t) ↔ SameBut w s t := by simp [takeRtt, h]

@[simp] theorem same_setCounter {c v} (h : .dunlin ∈ w) : SameBut w s (setCounter c v t) ↔ SameBut w s t := by
  simp only [setCounter]
  (repeat' split) <;> simp [h]

@[simp] theorem same_addUpset {u} (h : .upsets ∈ w) : SameBut w s (addUpset u t) ↔ SameBut w s t := by
  simp [addUpset, h]

@[simp] theorem same_clearUpset {m copy a} (h : .upsets ∈ w) :
    SameBut w s (clearUpset m copy a t) ↔ SameBut w s t := by simp [clearUpset, h]

@[simp] theorem same_noteCorrected (h : .faults ∈ w) : SameBut w s (noteCorrected t) ↔ SameBut w s t := by
  simp [noteCorrected, h]

@[simp] theorem same_correctWord {m copy a} (h : .upsets ∈ w ∧ .faults ∈ w) :
    SameBut w s (correctWord m copy a t) ↔ SameBut w s t := by simp [correctWord, h]

@[simp] theorem same_noteImageError {w'} (h : .counters ∈ w ∧ .faults ∈ w) :
    SameBut w s (noteImageError w' t) ↔ SameBut w s t := by simp [noteImageError, h]

@[simp] theorem same_judgeImage {w'} (h : .mem ∈ w ∧ .upsets ∈ w ∧ .hostWords ∈ w ∧ .counters ∈ w ∧ .faults ∈ w) :
    SameBut w s (judgeImage w' t) ↔ SameBut w s t := by simp [judgeImage, h]

@[simp] theorem same_judgeMerge {w'} (h : .mem ∈ w ∧ .upsets ∈ w ∧ .hostWords ∈ w ∧ .counters ∈ w ∧ .faults ∈ w) :
    SameBut w s (judgeMerge w' t) ↔ SameBut w s t := by simp [judgeMerge, h]

@[simp] theorem same_storeWord {w' v be} (h : .mem ∈ w ∧ .upsets ∈ w ∧ .hostWords ∈ w ∧ .counters ∈ w ∧ .faults ∈ w) :
    SameBut w s (storeWord w' v be t) ↔ SameBut w s t := by simp [storeWord, h]

@[simp] theorem same_storeHostWord {n v be} (h : .upsets ∈ w ∧ .hostWords ∈ w ∧ .counters ∈ w ∧ .faults ∈ w) :
    SameBut w s (storeHostWord n v be t) ↔ SameBut w s t := by
  simp only [storeHostWord, judgeMerge, setSram, Nat.le_add_right, if_true]
  (repeat' split) <;> simp [h]

@[simp] theorem same_discardFrame {f} (h : .streams ∈ w ∧ .ports ∈ w ∧ .queues ∈ w ∧ .rxCells ∈ w ∧ .listeners ∈ w ∧ .vcs ∈ w) :
    SameBut w s (discardFrame f t) ↔ SameBut w s t := by simp [discardFrame, h]

@[simp] theorem same_discardQueued {w' key} (h : .vcs ∈ w) :
    SameBut w s (discardQueued w' key t) ↔ SameBut w s t := by simp [discardQueued, h]

@[simp] theorem same_bufferLost {w'} (h : .upsets ∈ w ∧ .streams ∈ w ∧ .ports ∈ w ∧ .queues ∈ w ∧ .rxCells ∈ w ∧ .listeners ∈ w ∧ .vcs ∈ w ∧ .mgmtRx ∈ w ∧ .faults ∈ w) :
    SameBut w s (bufferLost w' t) ↔ SameBut w s t := by simp [bufferLost, h]

@[simp] theorem same_transmitRead {f} (h : .upsets ∈ w ∧ .streams ∈ w ∧ .ports ∈ w ∧ .queues ∈ w ∧ .rxCells ∈ w ∧ .listeners ∈ w ∧ .vcs ∈ w ∧ .faults ∈ w) :
    SameBut w s (transmitRead f t) ↔ SameBut w s t := by simp [transmitRead, h]

@[simp] theorem same_discardMsg {k v i} (h : .streams ∈ w ∧ .vcs ∈ w) :
    SameBut w s (discardMsg k v i t) ↔ SameBut w s t := by
  simp only [discardMsg]
  (repeat' split) <;> simp [h]

@[simp] theorem same_poolLost {w'} (h : .upsets ∈ w ∧ .streams ∈ w ∧ .vcs ∈ w ∧ .faults ∈ w) :
    SameBut w s (poolLost w' t) ↔ SameBut w s t := by simp [poolLost, h]

@[simp] theorem same_storeLost {w'} (h : .upsets ∈ w ∧ .links ∈ w ∧ .faults ∈ w) :
    SameBut w s (storeLost w' t) ↔ SameBut w s t := by simp [storeLost, h]

@[simp] theorem same_loseRecord {id} (h : .tables ∈ w ∧ .lost ∈ w ∧ .regions ∈ w ∧ .dunlin ∈ w ∧ .heronCopies ∈ w ∧ .streams ∈ w ∧ .meters ∈ w ∧ .ports ∈ w ∧ .mdio ∈ w ∧ .queues ∈ w ∧ .rxCells ∈ w ∧ .listeners ∈ w ∧ .links ∈ w ∧ .vcs ∈ w ∧ .pairs ∈ w ∧ .lanes ∈ w ∧ .quiet ∈ w ∧ .chans ∈ w ∧ .mgmtRx ∈ w ∧ .counters ∈ w ∧ .faults ∈ w) :
    SameBut w s (loseRecord id t) ↔ SameBut w s t := by simp [loseRecord, h]

@[simp] theorem same_repairCopy {id copy} (h : .upsets ∈ w ∧ .faults ∈ w) :
    SameBut w s (repairCopy id copy t) ↔ SameBut w s t := by simp [repairCopy, h]

@[simp] theorem same_judgeRecord {id} (h : .tables ∈ w ∧ .lost ∈ w ∧ .upsets ∈ w ∧ .regions ∈ w ∧ .dunlin ∈ w ∧ .heronCopies ∈ w ∧ .streams ∈ w ∧ .meters ∈ w ∧ .ports ∈ w ∧ .mdio ∈ w ∧ .queues ∈ w ∧ .rxCells ∈ w ∧ .listeners ∈ w ∧ .links ∈ w ∧ .vcs ∈ w ∧ .pairs ∈ w ∧ .lanes ∈ w ∧ .quiet ∈ w ∧ .chans ∈ w ∧ .mgmtRx ∈ w ∧ .counters ∈ w ∧ .faults ∈ w) :
    SameBut w s (judgeRecord id t) ↔ SameBut w s t := by simp [judgeRecord, h]

@[simp] theorem same_judgeSingle {id} (h : .tables ∈ w ∧ .upsets ∈ w ∧ .faults ∈ w) :
    SameBut w s (judgeSingle id t) ↔ SameBut w s t := by
  simp only [judgeSingle]
  (repeat' split) <;> simp [h]

@[simp] theorem same_judgeWord {m w'} (h : .tables ∈ w ∧ .lost ∈ w ∧ .mem ∈ w ∧ .upsets ∈ w ∧ .hostWords ∈ w ∧ .regions ∈ w ∧ .dunlin ∈ w ∧ .heronCopies ∈ w ∧ .streams ∈ w ∧ .meters ∈ w ∧ .ports ∈ w ∧ .mdio ∈ w ∧ .queues ∈ w ∧ .rxCells ∈ w ∧ .listeners ∈ w ∧ .links ∈ w ∧ .vcs ∈ w ∧ .pairs ∈ w ∧ .lanes ∈ w ∧ .quiet ∈ w ∧ .chans ∈ w ∧ .mgmtRx ∈ w ∧ .counters ∈ w ∧ .faults ∈ w) :
    SameBut w s (judgeWord m w' t) ↔ SameBut w s t := by
  simp only [judgeWord]
  (repeat' split) <;> simp [h]

@[simp] theorem same_noteRelease (h : .released ∈ w) : SameBut w s (noteRelease t) ↔ SameBut w s t := by
  simp [noteRelease, h]

@[simp] theorem same_releaseNext (h : .streams ∈ w ∧ .released ∈ w ∧ .queues ∈ w ∧ .rxCells ∈ w ∧ .counters ∈ w) :
    SameBut w s (releaseNext t) ↔ SameBut w s t := by
  simp only [releaseNext]
  (repeat' split) <;> simp [h]

@[simp] theorem same_coarseToFine {now' q} (h : .streams ∈ w) :
    SameBut w s (coarseToFine now' q t) ↔ SameBut w s t := by
  simp only [coarseToFine]
  (repeat' split) <;> simp [h]

@[simp] theorem same_revolution (h : .streams ∈ w ∧ .meters ∈ w) : SameBut w s (revolution t) ↔ SameBut w s t := by
  simp [revolution, h]

@[simp] theorem same_expireHead {q f} (h : .streams ∈ w ∧ .queues ∈ w ∧ .rxCells ∈ w ∧ .counters ∈ w) :
    SameBut w s (expireHead q f t) ↔ SameBut w s t := by
  simp only [expireHead]
  (repeat' split) <;> simp [h]

@[simp] theorem same_deferClass {p c} (h : .ports ∈ w ∧ .counters ∈ w) :
    SameBut w s (deferClass p c t) ↔ SameBut w s t := by
  simp only [deferClass]
  (repeat' split) <;> simp [h]

@[simp] theorem same_startFrame {p c f} (h : .upsets ∈ w ∧ .streams ∈ w ∧ .ports ∈ w ∧ .queues ∈ w ∧ .rxCells ∈ w ∧ .listeners ∈ w ∧ .vcs ∈ w ∧ .faults ∈ w) :
    SameBut w s (startFrame p c f t) ↔ SameBut w s t := by simp [startFrame, h]

@[simp] theorem same_cutFragment {p t'} (h : .ports ∈ w) : SameBut w s (cutFragment p t' t) ↔ SameBut w s t := by
  simp [cutFragment, h]

@[simp] theorem same_startControl {p b} (h : .ports ∈ w) : SameBut w s (startControl p b t) ↔ SameBut w s t := by
  simp [startControl, h]

@[simp] theorem same_selectFrame {p} (h : .upsets ∈ w ∧ .streams ∈ w ∧ .ports ∈ w ∧ .queues ∈ w ∧ .rxCells ∈ w ∧ .listeners ∈ w ∧ .vcs ∈ w ∧ .counters ∈ w ∧ .faults ∈ w) :
    SameBut w s (selectFrame p t) ↔ SameBut w s t := by
  simp only [selectFrame]
  (repeat' split) <;> simp [h]

@[simp] theorem same_noteSent {id} (h : .switch ∈ w) : SameBut w s (noteSent id t) ↔ SameBut w s t := by
  simp only [noteSent]
  (repeat' split) <;> simp [h]

@[simp] theorem same_frameSent {p t'} (h : .rxCells ∈ w ∧ .switch ∈ w ∧ .counters ∈ w) :
    SameBut w s (frameSent p t' t) ↔ SameBut w s t := by
  simp only [frameSent]
  (repeat' split) <;> simp [h]

@[simp] theorem same_nextSmd {p t'} (h : .ports ∈ w) : SameBut w s (nextSmd p t' t) ↔ SameBut w s t := by
  simp [nextSmd, h]

@[simp] theorem same_dropRx {x} (h : .rxCells ∈ w) : SameBut w s (dropRx x t) ↔ SameBut w s t := by simp [dropRx, h]

@[simp] theorem same_pauseClass {p r c quanta} (h : .ports ∈ w ∧ .counters ∈ w) :
    SameBut w s (pauseClass p r c quanta t) ↔ SameBut w s t := by simp [pauseClass, h]

@[simp] theorem same_takePfc {p x} (h : .ports ∈ w ∧ .counters ∈ w) :
    SameBut w s (takePfc p x t) ↔ SameBut w s t := by
  simp only [takePfc]
  (repeat' split) <;> simp [h]

@[simp] theorem same_takeControl {p b} (h : .ports ∈ w ∧ .counters ∈ w) :
    SameBut w s (takeControl p b t) ↔ SameBut w s t := by simp [takeControl, h]

@[simp] theorem same_toHidiquel {x} (h : .rxCells ∈ w ∧ .mgmtRx ∈ w ∧ .counters ∈ w) :
    SameBut w s (toHidiquel x t) ↔ SameBut w s t := by simp [toHidiquel, h]

@[simp] theorem same_toLink {k v bytes x} (h : .rxCells ∈ w ∧ .vcs ∈ w ∧ .pairs ∈ w ∧ .counters ∈ w) :
    SameBut w s (toLink k v bytes x t) ↔ SameBut w s t := by simp [toLink, h]

@[simp] theorem same_toClass {p c x} (h : .queues ∈ w ∧ .rxCells ∈ w ∧ .counters ∈ w) :
    SameBut w s (toClass p c x t) ↔ SameBut w s t := by simp [toClass, h]

@[simp] theorem same_holdFrame {l r bytes x} (h : .rxCells ∈ w ∧ .listeners ∈ w ∧ .counters ∈ w) :
    SameBut w s (holdFrame l r bytes x t) ↔ SameBut w s t := by simp [holdFrame, h]

@[simp] theorem same_deliver {l r x} (h : .rxCells ∈ w ∧ .listeners ∈ w ∧ .vcs ∈ w ∧ .pairs ∈ w ∧ .counters ∈ w) :
    SameBut w s (deliver l r x t) ↔ SameBut w s t := by simp [deliver, h]

@[simp] theorem same_resetRecovery {l} (h : .listeners ∈ w) : SameBut w s (resetRecovery l t) ↔ SameBut w s t := by
  simp [resetRecovery, h]

@[simp] theorem same_recover {l r x} (h : .rxCells ∈ w ∧ .listeners ∈ w ∧ .vcs ∈ w ∧ .pairs ∈ w ∧ .counters ∈ w) :
    SameBut w s (recover l r x t) ↔ SameBut w s t := by
  simp only [recover]
  (repeat' split) <;> simp [h]

@[simp] theorem same_police {l r x} (h : .meters ∈ w ∧ .rxCells ∈ w ∧ .listeners ∈ w ∧ .vcs ∈ w ∧ .pairs ∈ w ∧ .counters ∈ w) :
    SameBut w s (police l r x t) ↔ SameBut w s t := by
  simp only [police]
  (repeat' split) <;> simp [h]

@[simp] theorem same_toListener {l x} (h : .meters ∈ w ∧ .rxCells ∈ w ∧ .listeners ∈ w ∧ .vcs ∈ w ∧ .pairs ∈ w ∧ .counters ∈ w) :
    SameBut w s (toListener l x t) ↔ SameBut w s t := by
  simp only [toListener]
  (repeat' split) <;> simp [h]

@[simp] theorem same_filterAction {i r x} (h : .meters ∈ w ∧ .queues ∈ w ∧ .rxCells ∈ w ∧ .listeners ∈ w ∧ .vcs ∈ w ∧ .pairs ∈ w ∧ .mgmtRx ∈ w ∧ .counters ∈ w) :
    SameBut w s (filterAction i r x t) ↔ SameBut w s t := by
  simp only [filterAction]
  (repeat' split) <;> simp [h]

@[simp] theorem same_spoonbill {x} (h : .meters ∈ w ∧ .queues ∈ w ∧ .rxCells ∈ w ∧ .listeners ∈ w ∧ .vcs ∈ w ∧ .pairs ∈ w ∧ .mgmtRx ∈ w ∧ .counters ∈ w) :
    SameBut w s (spoonbill x t) ↔ SameBut w s t := by
  simp only [spoonbill]
  (repeat' split) <;> simp [h]

@[simp] theorem same_receiveHeld {x codeError} (h : .meters ∈ w ∧ .ports ∈ w ∧ .queues ∈ w ∧ .rxCells ∈ w ∧ .listeners ∈ w ∧ .vcs ∈ w ∧ .pairs ∈ w ∧ .mgmtRx ∈ w ∧ .counters ∈ w) :
    SameBut w s (receiveHeld x codeError t) ↔ SameBut w s t := by
  simp only [receiveHeld]
  (repeat' split) <;> simp [h]

@[simp] theorem same_receiveFrame {p bytes codeError} (h : .meters ∈ w ∧ .ports ∈ w ∧ .queues ∈ w ∧ .rxCells ∈ w ∧ .highWater ∈ w ∧ .listeners ∈ w ∧ .vcs ∈ w ∧ .pairs ∈ w ∧ .mgmtRx ∈ w ∧ .counters ∈ w) :
    SameBut w s (receiveFrame p bytes codeError t) ↔ SameBut w s t := by simp [receiveFrame, h]

@[simp] theorem same_sendPfc {p c quanta} (h : .ports ∈ w) : SameBut w s (sendPfc p c quanta t) ↔ SameBut w s t := by
  simp [sendPfc, h]

@[simp] theorem same_setReasm {p r} (h : .ports ∈ w) : SameBut w s (setReasm p r t) ↔ SameBut w s t := by
  simp [setReasm, h]

@[simp] theorem same_reasmError {p} (h : .ports ∈ w ∧ .rxCells ∈ w ∧ .counters ∈ w) :
    SameBut w s (reasmError p t) ↔ SameBut w s t := by simp [reasmError, h]

@[simp] theorem same_growReasm {p r bytes} (h : .ports ∈ w ∧ .rxCells ∈ w ∧ .highWater ∈ w ∧ .counters ∈ w) :
    SameBut w s (growReasm p r bytes t) ↔ SameBut w s t := by simp [growReasm, h]

@[simp] theorem same_closeReasm {p} (h : .meters ∈ w ∧ .ports ∈ w ∧ .queues ∈ w ∧ .rxCells ∈ w ∧ .listeners ∈ w ∧ .vcs ∈ w ∧ .pairs ∈ w ∧ .mgmtRx ∈ w ∧ .counters ∈ w) :
    SameBut w s (closeReasm p t) ↔ SameBut w s t := by
  simp only [closeReasm]
  (repeat' split) <;> simp [h]

@[simp] theorem same_takeFragment {p m} (h : .meters ∈ w ∧ .ports ∈ w ∧ .queues ∈ w ∧ .rxCells ∈ w ∧ .highWater ∈ w ∧ .listeners ∈ w ∧ .vcs ∈ w ∧ .pairs ∈ w ∧ .mgmtRx ∈ w ∧ .counters ∈ w) :
    SameBut w s (takeFragment p m t) ↔ SameBut w s t := by
  simp only [takeFragment]
  (repeat' split) <;> simp [h]

@[simp] theorem same_loseLink {p} (h : .ports ∈ w ∧ .queues ∈ w ∧ .rxCells ∈ w ∧ .counters ∈ w) :
    SameBut w s (loseLink p t) ↔ SameBut w s t := by simp [loseLink, h]

@[simp] theorem same_readPage {p page} (h : .ports ∈ w) : SameBut w s (readPage p page t) ↔ SameBut w s t := by
  simp [readPage, h]

@[simp] theorem same_speedDuty (h : .ports ∈ w ∧ .counters ∈ w) : SameBut w s (speedDuty t) ↔ SameBut w s t := by
  simp [speedDuty, h]

@[simp] theorem same_firstLive {p : Nat} (h : p < 4) : SameBut w s (firstLive p t) ↔ SameBut w s t := by
  simp only [firstLive]
  split
  · rw [same_renewSession, same_announce (by simpa using h)]
  · rfl

@[simp] theorem same_inbandUp {p speed} (h : .ports ∈ w ∧ .queues ∈ w ∧ .rxCells ∈ w ∧ .counters ∈ w) :
    SameBut w s (inbandUp p speed t) ↔ SameBut w s t := by simp [inbandUp, h]

@[simp] theorem same_phyAbsent {p} (h : .ports ∈ w ∧ .queues ∈ w ∧ .rxCells ∈ w ∧ .counters ∈ w) :
    SameBut w s (phyAbsent p t) ↔ SameBut w s t := by simp [phyAbsent, h]

@[simp] theorem same_readPhy {p value} (h : .ports ∈ w ∧ .mdio ∈ w ∧ .queues ∈ w ∧ .rxCells ∈ w ∧ .counters ∈ w) :
    SameBut w s (readPhy p value t) ↔ SameBut w s t := by
  simp only [readPhy]
  (repeat' split) <;> simp [h]

@[simp] theorem same_raiseThreshold {f q} (h : .streams ∈ w) :
    SameBut w s (raiseThreshold f q t) ↔ SameBut w s t := by simp [raiseThreshold, h]

@[simp] theorem same_underrun {p t'} (h : .streams ∈ w ∧ .ports ∈ w ∧ .queues ∈ w ∧ .counters ∈ w) :
    SameBut w s (underrun p t' t) ↔ SameBut w s t := by simp [underrun, h]

@[simp] theorem same_giveUpTunnel {q key f} (h : .streams ∈ w ∧ .ports ∈ w ∧ .queues ∈ w ∧ .vcs ∈ w) :
    SameBut w s (giveUpTunnel q key f t) ↔ SameBut w s t := by simp [giveUpTunnel, h]

@[simp] theorem same_openTunnel {key q} (h : .streams ∈ w) : SameBut w s (openTunnel key q t) ↔ SameBut w s t := by
  simp [openTunnel, h]

@[simp] theorem same_tunnelArrives {key q f} (h : .streams ∈ w ∧ .counters ∈ w) :
    SameBut w s (tunnelArrives key q f t) ↔ SameBut w s t := by simp [tunnelArrives, h]

@[simp] theorem same_appendTunnel {key q bytes} (h : .streams ∈ w ∧ .ports ∈ w ∧ .queues ∈ w ∧ .counters ∈ w) :
    SameBut w s (appendTunnel key q bytes t) ↔ SameBut w s t := by
  simp only [appendTunnel]
  (repeat' split) <;> simp [h]

@[simp] theorem same_closeTunnel {key q} (h : .streams ∈ w ∧ .ports ∈ w ∧ .queues ∈ w ∧ .counters ∈ w) :
    SameBut w s (closeTunnel key q t) ↔ SameBut w s t := by
  simp only [closeTunnel]
  (repeat' split) <;> simp [h]

@[simp] theorem same_pourOne {h' v} (h : .streams ∈ w ∧ .ports ∈ w ∧ .queues ∈ w ∧ .vcs ∈ w ∧ .counters ∈ w) :
    SameBut w s (pourOne h' v t) ↔ SameBut w s t := by
  simp only [pourOne]
  (repeat' split) <;> simp [h]

@[simp] theorem same_pour {h' v} (h : .streams ∈ w ∧ .ports ∈ w ∧ .queues ∈ w ∧ .vcs ∈ w ∧ .counters ∈ w) :
    SameBut w s (pour h' v t) ↔ SameBut w s t := by simp [pour, h]

@[simp] theorem same_joinMsg {k h' v m eom payload cost} (h : .streams ∈ w ∧ .ports ∈ w ∧ .queues ∈ w ∧ .vcs ∈ w ∧ .counters ∈ w) :
    SameBut w s (joinMsg k h' v m eom payload cost t) ↔ SameBut w s t := by simp [joinMsg, h]

@[simp] theorem same_dropOpen {k h' v} (h : .streams ∈ w ∧ .vcs ∈ w ∧ .counters ∈ w) :
    SameBut w s (dropOpen k h' v t) ↔ SameBut w s t := by
  simp only [dropOpen]
  (repeat' split) <;> simp [h]

/-- What discards a packet by its action only counts. -/
theorem same_actionDrop {o : State} {k v a q n : Nat} {c : State → State} (hc : actionDrop o k v a q n = some c)
    (h : .counters ∈ w) : SameBut w s (c t) ↔ SameBut w s t := by
  simp only [actionDrop] at hc
  (repeat' split at hc) <;> simp_all
  all_goals subst hc; simp [h]

@[simp] theorem same_deliverPacket {k v r hdr payload cost} (h : .streams ∈ w ∧ .ports ∈ w ∧ .queues ∈ w ∧ .vcs ∈ w ∧ .counters ∈ w) :
    SameBut w s (deliverPacket k v r hdr payload cost t) ↔ SameBut w s t := by
  simp only [deliverPacket]
  (repeat' split) <;> first
    | (simp [h]; done)
    | (have e := fun u : State => same_actionDrop (t := u) (s := s)
        ‹actionDrop _ _ _ _ _ _ = some _› (show .counters ∈ w by simp [h])
       simp [h, e])

@[simp] theorem same_pairPacket {k v r hdr payload cost} (h : .streams ∈ w ∧ .ports ∈ w ∧ .queues ∈ w ∧ .vcs ∈ w ∧ .pairs ∈ w ∧ .counters ∈ w) :
    SameBut w s (pairPacket k v r hdr payload cost t) ↔ SameBut w s t := by
  simp only [pairPacket]
  (repeat' split) <;> simp [h]

@[simp] theorem same_takePacket {k v hdr payload cost} (h : .streams ∈ w ∧ .ports ∈ w ∧ .queues ∈ w ∧ .vcs ∈ w ∧ .pairs ∈ w ∧ .counters ∈ w) :
    SameBut w s (takePacket k v hdr payload cost t) ↔ SameBut w s t := by
  simp only [takePacket]
  (repeat' split) <;> simp [h]

@[simp] theorem same_failPacket {k counter} (h : .links ∈ w ∧ .vcs ∈ w ∧ .counters ∈ w) :
    SameBut w s (failPacket k counter t) ↔ SameBut w s t := by simp [failPacket, h]

@[simp] theorem same_countAccepted {k} (h : .links ∈ w ∧ .vcs ∈ w) :
    SameBut w s (countAccepted k t) ↔ SameBut w s t := by simp [countAccepted, h]

@[simp] theorem same_acceptPacket {k hdr payload} (h : .streams ∈ w ∧ .ports ∈ w ∧ .queues ∈ w ∧ .links ∈ w ∧ .vcs ∈ w ∧ .pairs ∈ w ∧ .counters ∈ w) :
    SameBut w s (acceptPacket k hdr payload t) ↔ SameBut w s t := by simp [acceptPacket, h]

@[simp] theorem same_sortPacket {k hdr payload} (h : .streams ∈ w ∧ .ports ∈ w ∧ .queues ∈ w ∧ .links ∈ w ∧ .vcs ∈ w ∧ .pairs ∈ w ∧ .counters ∈ w) :
    SameBut w s (sortPacket k hdr payload t) ↔ SameBut w s t := by simp [sortPacket, h]

@[simp] theorem same_applyReturn {k sNum crv v cl empty} (h : .regions ∈ w ∧ .links ∈ w ∧ .vcs ∈ w ∧ .lanes ∈ w ∧ .counters ∈ w ∧ .faults ∈ w) :
    SameBut w s (applyReturn k sNum crv v cl empty t) ↔ SameBut w s t := by simp [applyReturn, h]

@[simp] theorem same_receivePacket {k hdr data tail} (h : .regions ∈ w ∧ .streams ∈ w ∧ .ports ∈ w ∧ .queues ∈ w ∧ .links ∈ w ∧ .vcs ∈ w ∧ .pairs ∈ w ∧ .lanes ∈ w ∧ .counters ∈ w ∧ .faults ∈ w) :
    SameBut w s (receivePacket k hdr data tail t) ↔ SameBut w s t := by
  simp only [receivePacket]
  (repeat' split) <;> simp [h]

@[simp] theorem same_receiveEvent {k e} (h : .regions ∈ w ∧ .streams ∈ w ∧ .ports ∈ w ∧ .queues ∈ w ∧ .links ∈ w ∧ .vcs ∈ w ∧ .pairs ∈ w ∧ .lanes ∈ w ∧ .counters ∈ w ∧ .faults ∈ w) :
    SameBut w s (receiveEvent k e t) ↔ SameBut w s t := by
  simp only [receiveEvent]
  (repeat' split) <;> simp [h]

@[simp] theorem same_readLane {n w'} (h : .lanes ∈ w ∧ .counters ∈ w) :
    SameBut w s (readLane n w' t).2 ↔ SameBut w s t := by simp [readLane, h]

@[simp] theorem same_readLanes {l : List (Nat × LaneWord)} (h : .lanes ∈ w ∧ .counters ∈ w) :
    SameBut w s (readLanes l t).2 ↔ SameBut w s t := by
  induction l generalizing t with
  | nil => rfl
  | cons x r ih => obtain ⟨n, v⟩ := x; simp only [readLanes, ih]; simp [h]

@[simp] theorem same_readRow {k row} (h : .links ∈ w ∧ .lanes ∈ w ∧ .counters ∈ w) :
    SameBut w s (readRow k row t).2 ↔ SameBut w s t := by
  refine SameBut.congr ?_
  simp only [readRow]
  simp [h]

@[simp] theorem same_readRows {k : Nat} {l : List (List LaneWord)} (h : .links ∈ w ∧ .lanes ∈ w ∧ .counters ∈ w) :
    SameBut w s (readRows k l t).2 ↔ SameBut w s t := by
  induction l generalizing t with
  | nil => rfl
  | cons x r ih => simp only [readRows, ih]; simp [h]

@[simp] theorem same_undoTimer {k} (h : .links ∈ w) : SameBut w s (undoTimer k t) ↔ SameBut w s t := by
  simp only [undoTimer]
  (repeat' split) <;> simp [h]

@[simp] theorem same_emitPacket {k seq hdr payload} (h : .links ∈ w ∧ .vcs ∈ w) :
    SameBut w s (emitPacket k seq hdr payload t) ↔ SameBut w s t := by simp [emitPacket, h]

@[simp] theorem same_resend {k e} (h : .regions ∈ w ∧ .streams ∈ w ∧ .links ∈ w ∧ .vcs ∈ w ∧ .lanes ∈ w ∧ .counters ∈ w ∧ .faults ∈ w) :
    SameBut w s (resend k e t) ↔ SameBut w s t := by
  simp only [resend]
  (repeat' split) <;> simp [h]

@[simp] theorem same_sendNew {k v m rest} (h : .links ∈ w ∧ .vcs ∈ w) :
    SameBut w s (sendNew k v m rest t) ↔ SameBut w s t := by simp [sendNew, h]

@[simp] theorem same_auditVc {k v} (h : .links ∈ w) : SameBut w s (auditVc k v t) ↔ SameBut w s t := by
  simp [auditVc, h]

@[simp] theorem same_applyAudit {k v ac} (h : .regions ∈ w ∧ .links ∈ w ∧ .vcs ∈ w ∧ .lanes ∈ w ∧ .counters ∈ w ∧ .faults ∈ w) :
    SameBut w s (applyAudit k v ac t) ↔ SameBut w s t := by simp [applyAudit, h]

@[simp] theorem same_takeStriped {k} (h : .links ∈ w) : SameBut w s (takeStriped k t).2 ↔ SameBut w s t := by
  simp only [takeStriped]
  (repeat' split) <;> simp [h]

@[simp] theorem same_placeCal {n} (h : .lanes ∈ w) : SameBut w s (placeCal n t).2 ↔ SameBut w s t := by
  simp [placeCal, h]

@[simp] theorem same_waitCal {n} (h : .lanes ∈ w) : SameBut w s (waitCal n t) ↔ SameBut w s t := by simp [waitCal, h]

@[simp] theorem same_activeLane {k n : Nat} (h : .links ∈ w ∧ .lanes ∈ w) : SameBut w s (activeLane k n t).2 ↔ SameBut w s t := by
  simp only [activeLane]
  have e : SameBut w s (takeStriped k t).2 ↔ SameBut w s t := by simp [h]
  (repeat' split) <;> simp_all

@[simp] theorem same_spareLane {k n} (h : .lanes ∈ w) : SameBut w s (spareLane k n t).2 ↔ SameBut w s t := by
  simp only [spareLane]
  (repeat' split) <;> simp [h]

@[simp] theorem same_trainingLane {k i n} (h : .lanes ∈ w) :
    SameBut w s (trainingLane k i n t).2 ↔ SameBut w s t := by
  simp only [trainingLane]
  (repeat' split) <;> simp [h]

@[simp] theorem same_countRow {k} (h : .links ∈ w) : SameBut w s (countRow k t) ↔ SameBut w s t := by
  simp [countRow, h]

@[simp] theorem same_rowLane {k i n idleRow} (h : .links ∈ w ∧ .lanes ∈ w) :
    SameBut w s (rowLane k i n idleRow t).2 ↔ SameBut w s t := by
  simp only [rowLane]
  (repeat' split) <;> simp [h]

@[simp] theorem same_rowWords {k : Nat} {b : Bool} {l : List (Nat × Nat)} (h : .links ∈ w ∧ .lanes ∈ w) :
    SameBut w s (rowWords k b l t).2 ↔ SameBut w s t := by
  induction l generalizing t with
  | nil => rfl
  | cons x r ih => obtain ⟨i, n⟩ := x; simp only [rowWords, ih]; simp [h]

@[simp] theorem same_sendRow {k} (h : .links ∈ w ∧ .lanes ∈ w) : SameBut w s (sendRow k t) ↔ SameBut w s t := by
  refine SameBut.congr ?_
  simp only [sendRow]
  (repeat' split) <;> simp [h]

@[simp] theorem same_rowDuty (h : .links ∈ w ∧ .lanes ∈ w) : SameBut w s (rowDuty t) ↔ SameBut w s t := by
  simp [rowDuty, h]

@[simp] theorem same_sleepTime {k} (h : .links ∈ w ∧ .lanes ∈ w) : SameBut w s (sleepTime k t) ↔ SameBut w s t := by
  simp [sleepTime, h]

@[simp] theorem same_onLanes {k b} (h : .lanes ∈ w) : SameBut w s (onLanes k b t) ↔ SameBut w s t := by
  simp [onLanes, h]

@[simp] theorem same_enterAlign {k} (h : .links ∈ w) : SameBut w s (enterAlign k t) ↔ SameBut w s t := by
  simp [enterAlign, h]

@[simp] theorem same_enterParam {k} (h : .links ∈ w) : SameBut w s (enterParam k t) ↔ SameBut w s t := by
  simp [enterParam, h]

@[simp] theorem same_enterEqualize {k : Nat} (h : .links ∈ w ∧ .lanes ∈ w) : SameBut w s (enterEqualize k t) ↔ SameBut w s t := by
  simp only [enterEqualize]
  rw [same_each]
  · simp [h]
  · intro a u
    (repeat' split) <;> simp [h]

@[simp] theorem same_noneFinished {k} (h : .regions ∈ w ∧ .streams ∈ w ∧ .links ∈ w ∧ .vcs ∈ w ∧ .lanes ∈ w ∧ .counters ∈ w ∧ .faults ∈ w) :
    SameBut w s (noneFinished k t) ↔ SameBut w s t := by simp [noneFinished, h]

@[simp] theorem same_sendReady {k m} (h : .links ∈ w ∧ .lanes ∈ w) :
    SameBut w s (sendReady k m t) ↔ SameBut w s t := by simp [sendReady, h]

@[simp] theorem same_beginReady {k} (h : .links ∈ w ∧ .lanes ∈ w) : SameBut w s (beginReady k t) ↔ SameBut w s t := by
  simp [beginReady, h]

@[simp] theorem same_calibrateLane {n} (h : .lanes ∈ w) : SameBut w s (calibrateLane n t) ↔ SameBut w s t := by
  simp [calibrateLane, h]

@[simp] theorem same_startLane {k n} (h : .lanes ∈ w) : SameBut w s (startLane k n t) ↔ SameBut w s t := by
  simp [startLane, h]

@[simp] theorem same_startCredit {k again v} (h : .vcs ∈ w) :
    SameBut w s (startCredit k again v t) ↔ SameBut w s t := by simp [startCredit, h]

@[simp] theorem same_resumeReplay {k} (h : .links ∈ w ∧ .vcs ∈ w ∧ .counters ∈ w) :
    SameBut w s (resumeReplay k t) ↔ SameBut w s t := by simp [resumeReplay, h]

@[simp] theorem same_startPseq {k} (h : .pairs ∈ w) : SameBut w s (startPseq k t) ↔ SameBut w s t := by
  simp [startPseq, h]

@[simp] theorem same_enterActive {k mask} (h : .links ∈ w ∧ .vcs ∈ w ∧ .pairs ∈ w ∧ .lanes ∈ w ∧ .counters ∈ w) :
    SameBut w s (enterActive k mask t) ↔ SameBut w s t := by simp [enterActive, h]

@[simp] theorem same_tryActive {k} (h : .links ∈ w ∧ .vcs ∈ w ∧ .pairs ∈ w ∧ .lanes ∈ w ∧ .counters ∈ w) :
    SameBut w s (tryActive k t) ↔ SameBut w s t := by simp [tryActive, h]

@[simp] theorem same_tryReady {k} (h : .links ∈ w ∧ .lanes ∈ w) : SameBut w s (tryReady k t) ↔ SameBut w s t := by
  simp [tryReady, h]

@[simp] theorem same_tryLocked {k} (h : .links ∈ w ∧ .lanes ∈ w) : SameBut w s (tryLocked k t) ↔ SameBut w s t := by
  simp [tryLocked, h]

@[simp] theorem same_finishParam {k} (h : .regions ∈ w ∧ .streams ∈ w ∧ .links ∈ w ∧ .vcs ∈ w ∧ .lanes ∈ w ∧ .counters ∈ w ∧ .faults ∈ w) :
    SameBut w s (finishParam k t) ↔ SameBut w s t := by simp [finishParam, h]

@[simp] theorem same_tryParam {k} (h : .regions ∈ w ∧ .streams ∈ w ∧ .links ∈ w ∧ .vcs ∈ w ∧ .lanes ∈ w ∧ .counters ∈ w ∧ .faults ∈ w) :
    SameBut w s (tryParam k t) ↔ SameBut w s t := by simp [tryParam, h]

@[simp] theorem same_lockChanged {k} (h : .regions ∈ w ∧ .streams ∈ w ∧ .links ∈ w ∧ .vcs ∈ w ∧ .lanes ∈ w ∧ .counters ∈ w ∧ .faults ∈ w) :
    SameBut w s (lockChanged k t) ↔ SameBut w s t := by
  simp only [lockChanged]
  (repeat' split) <;> simp [h]

@[simp] theorem same_dropFromMask {k lost} (h : .links ∈ w ∧ .lanes ∈ w ∧ .counters ∈ w ∧ .faults ∈ w) :
    SameBut w s (dropFromMask k lost t) ↔ SameBut w s t := by simp [dropFromMask, h]

@[simp] theorem same_meetMask {k theirs} (h : .links ∈ w ∧ .lanes ∈ w ∧ .counters ∈ w ∧ .faults ∈ w) :
    SameBut w s (meetMask k theirs t) ↔ SameBut w s t := by simp [meetMask, h]

@[simp] theorem same_moveOn {k} (h : .regions ∈ w ∧ .streams ∈ w ∧ .links ∈ w ∧ .vcs ∈ w ∧ .pairs ∈ w ∧ .lanes ∈ w ∧ .counters ∈ w ∧ .faults ∈ w) :
    SameBut w s (moveOn k t) ↔ SameBut w s t := by
  simp only [moveOn]
  (repeat' split) <;> simp [h]

@[simp] theorem same_detectAgain {k} (h : .links ∈ w ∧ .counters ∈ w ∧ .faults ∈ w) :
    SameBut w s (detectAgain k t) ↔ SameBut w s t := by simp [detectAgain, h]

@[simp] theorem same_actOnMap {n} (h : .lanes ∈ w ∧ .counters ∈ w) : SameBut w s (actOnMap n t) ↔ SameBut w s t := by
  simp [actOnMap, h]

@[simp] theorem same_fullMap {n points} (h : .lanes ∈ w ∧ .counters ∈ w) :
    SameBut w s (fullMap n points t) ↔ SameBut w s t := by simp [fullMap, h]

@[simp] theorem same_chooseSetting {k i n} (h : .regions ∈ w ∧ .streams ∈ w ∧ .links ∈ w ∧ .vcs ∈ w ∧ .lanes ∈ w ∧ .counters ∈ w ∧ .faults ∈ w) :
    SameBut w s (chooseSetting k i n t) ↔ SameBut w s t := by simp [chooseSetting, h]

@[simp] theorem same_fastMap {k i n points} (h : .regions ∈ w ∧ .streams ∈ w ∧ .links ∈ w ∧ .vcs ∈ w ∧ .lanes ∈ w ∧ .counters ∈ w ∧ .faults ∈ w) :
    SameBut w s (fastMap k i n points t) ↔ SameBut w s t := by simp [fastMap, h]

@[simp] theorem same_ignoreWrite (h : .ignWr ∈ w ∧ .counters ∈ w) : SameBut w s (ignoreWrite t) ↔ SameBut w s t := by
  simp [ignoreWrite, h]

@[simp] theorem same_writeRegion {lag w' v be} (h : .mem ∈ w ∧ .upsets ∈ w ∧ .hostWords ∈ w ∧ .ignWr ∈ w ∧ .counters ∈ w ∧ .faults ∈ w) :
    SameBut w s (writeRegion lag w' v be t) ↔ SameBut w s t := by
  simp only [writeRegion]
  (repeat' split) <;> simp [h]

@[simp] theorem same_clearFlags {n bits} : SameBut w s (clearFlags n bits t) ↔ SameBut w s t := by
  simp only [clearFlags]
  (repeat' split) <;> simp

@[simp] theorem same_rearm {oS} (h : .rearm ∈ w) : SameBut w s (rearm oS t) ↔ SameBut w s t := by simp [rearm, h]

@[simp] theorem same_ringBit {b} (h : .doorbell ∈ w ∧ .chans ∈ w ∧ .counters ∈ w) :
    SameBut w s (ringBit b t) ↔ SameBut w s t := by simp [ringBit, h]

@[simp] theorem same_doorbellDuty (h : .doorbell ∈ w ∧ .counters ∈ w) :
    SameBut w s (doorbellDuty t) ↔ SameBut w s t := by simp [doorbellDuty, h]

@[simp] theorem same_ring {bits} (h : .doorbell ∈ w ∧ .chans ∈ w ∧ .counters ∈ w) :
    SameBut w s (ring bits t) ↔ SameBut w s t := by simp [ring, h]

@[simp] theorem same_writeStation {n v be} (h : .upsets ∈ w ∧ .hostWords ∈ w ∧ .doorbell ∈ w ∧ .ignWr ∈ w ∧ .rearm ∈ w ∧ .chans ∈ w ∧ .counters ∈ w ∧ .faults ∈ w) :
    SameBut w s (writeStation n v be t) ↔ SameBut w s t := by
  simp only [writeStation]
  (repeat' split) <;> simp [h]

@[simp] theorem same_landWrite {lag w' v be} (h : .mem ∈ w ∧ .upsets ∈ w ∧ .hostWords ∈ w ∧ .doorbell ∈ w ∧ .ignWr ∈ w ∧ .rearm ∈ w ∧ .chans ∈ w ∧ .counters ∈ w ∧ .power ∈ w ∧ .faults ∈ w) :
    SameBut w s (landWrite lag w' v be t) ↔ SameBut w s t := by simp [landWrite, h]

@[simp] theorem same_judgeRead {w'} (h : .mem ∈ w ∧ .upsets ∈ w ∧ .hostWords ∈ w ∧ .counters ∈ w ∧ .faults ∈ w) :
    SameBut w s (judgeRead w' t) ↔ SameBut w s t := by simp [judgeRead, h]

@[simp] theorem same_readHalf {pa} (h : .mem ∈ w ∧ .upsets ∈ w ∧ .halfLatch ∈ w ∧ .hostWords ∈ w ∧ .counters ∈ w ∧ .faults ∈ w) :
    SameBut w s (readHalf pa t) ↔ SameBut w s t := by simp [readHalf, h]

@[simp] theorem same_readWhole {pa} (h : .mem ∈ w ∧ .upsets ∈ w ∧ .halfLatch ∈ w ∧ .hostWords ∈ w ∧ .counters ∈ w ∧ .faults ∈ w) :
    SameBut w s (readWhole pa t) ↔ SameBut w s t := by simp [readWhole, h]

@[simp] theorem same_markReading {c k v i} (h : .vcs ∈ w) : SameBut w s (markReading c k v i t) ↔ SameBut w s t := by
  simp [markReading, h]

@[simp] theorem same_takeArrival {c r} (h : .vcs ∈ w) : SameBut w s (takeArrival c r t) ↔ SameBut w s t := by
  simp only [takeArrival]
  (repeat' split) <;> simp [h]

@[simp] theorem same_landWord {w' v be merge} (h : .mem ∈ w ∧ .upsets ∈ w ∧ .hwWrote ∈ w ∧ .hostWords ∈ w ∧ .counters ∈ w ∧ .faults ∈ w) :
    SameBut w s (landWord w' v be merge t) ↔ SameBut w s t := by simp [landWord, h]

@[simp] theorem same_landImage {a b merge} (h : .mem ∈ w ∧ .upsets ∈ w ∧ .hwWrote ∈ w ∧ .hostWords ∈ w ∧ .counters ∈ w ∧ .faults ∈ w) :
    SameBut w s (landImage a b merge t) ↔ SameBut w s t := by simp [landImage, h]

@[simp] theorem same_writePayload {q off b stale} (h : .streams ∈ w) :
    SameBut w s (writePayload q off b stale t) ↔ SameBut w s t := by
  simp only [writePayload]
  (repeat' split) <;> simp [h]

@[simp] theorem same_openBuffer {c q} (h : .streams ∈ w ∧ .rxCells ∈ w ∧ .chans ∈ w ∧ .counters ∈ w) :
    SameBut w s (openBuffer c q t) ↔ SameBut w s t := by
  simp only [openBuffer]
  (repeat' split) <;> simp [h]

@[simp] theorem same_commitFrame {q} (h : .streams ∈ w ∧ .counters ∈ w) :
    SameBut w s (commitFrame q t) ↔ SameBut w s t := by
  simp only [commitFrame]
  (repeat' split) <;> simp [h]

@[simp] theorem same_landStreams {c r a b stale} (h : .streams ∈ w ∧ .rxCells ∈ w ∧ .chans ∈ w ∧ .counters ∈ w) :
    SameBut w s (landStreams c r a b stale t) ↔ SameBut w s t := by simp [landStreams, h]

@[simp] theorem same_commitMessage {c k v b} (h : .vcs ∈ w ∧ .pairs ∈ w ∧ .counters ∈ w) :
    SameBut w s (commitMessage c k v b t) ↔ SameBut w s t := by simp [commitMessage, h]

@[simp] theorem same_landLinks {c r a hi all} (h : .vcs ∈ w ∧ .pairs ∈ w ∧ .counters ∈ w) :
    SameBut w s (landLinks c r a hi all t) ↔ SameBut w s t := by simp [landLinks, h]

@[simp] theorem same_openWhole {c r b id} (h : .chans ∈ w ∧ .counters ∈ w) :
    SameBut w s (openWhole c r b id t) ↔ SameBut w s t := by simp [openWhole, h]

@[simp] theorem same_openSource {c r} (h : .vcs ∈ w ∧ .chans ∈ w ∧ .counters ∈ w) :
    SameBut w s (openSource c r t) ↔ SameBut w s t := by
  simp only [openSource]
  (repeat' split) <;> simp [h]

@[simp] theorem same_readImageSpan {c r} (h : .upsets ∈ w ∧ .chans ∈ w ∧ .faults ∈ w) :
    SameBut w s (readImageSpan c r t) ↔ SameBut w s t := by simp [readImageSpan, h]

@[simp] theorem same_readWholeSpan {c r} (h : .upsets ∈ w ∧ .chans ∈ w ∧ .faults ∈ w) :
    SameBut w s (readWholeSpan c r t) ↔ SameBut w s t := by simp [readWholeSpan, h]

@[simp] theorem same_issueRead {c} (h : .upsets ∈ w ∧ .vcs ∈ w ∧ .chans ∈ w ∧ .counters ∈ w ∧ .faults ∈ w) :
    SameBut w s (issueRead c t) ↔ SameBut w s t := by
  simp only [issueRead]
  (repeat' split) <;> simp [h]

@[simp] theorem same_snapSource {c} (h : .chans ∈ w) : SameBut w s (snapSource c t) ↔ SameBut w s t := by
  simp only [snapSource]
  (repeat' split) <;> simp [h]

@[simp] theorem same_fillHold {c} (h : .chans ∈ w) : SameBut w s (fillHold c t) ↔ SameBut w s t := by
  simp only [fillHold]
  (repeat' split) <;> simp [h]

@[simp] theorem same_writeGroup {c} (h : .chans ∈ w) : SameBut w s (writeGroup c t) ↔ SameBut w s t := by
  simp only [writeGroup]
  (repeat' split) <;> simp [h]

@[simp] theorem same_landBytes {c r a hi} (h : .mem ∈ w ∧ .upsets ∈ w ∧ .hwWrote ∈ w ∧ .hostWords ∈ w ∧ .streams ∈ w ∧ .rxCells ∈ w ∧ .vcs ∈ w ∧ .pairs ∈ w ∧ .chans ∈ w ∧ .counters ∈ w ∧ .faults ∈ w) :
    SameBut w s (landBytes c r a hi t) ↔ SameBut w s t := by
  simp only [landBytes]
  (repeat' split) <;> simp [h]

@[simp] theorem same_landGroup {c} (h : .mem ∈ w ∧ .upsets ∈ w ∧ .hwWrote ∈ w ∧ .hostWords ∈ w ∧ .streams ∈ w ∧ .rxCells ∈ w ∧ .vcs ∈ w ∧ .pairs ∈ w ∧ .chans ∈ w ∧ .counters ∈ w ∧ .faults ∈ w) :
    SameBut w s (landGroup c t) ↔ SameBut w s t := by
  simp only [landGroup]
  (repeat' split) <;> simp [h]

@[simp] theorem same_begin' {c t'} (h : .chans ∈ w) : SameBut w s (begin' c t' t) ↔ SameBut w s t := by
  simp [begin', h]

@[simp] theorem same_skipTransfer {c r} (h : .vcs ∈ w ∧ .chans ∈ w ∧ .counters ∈ w) :
    SameBut w s (skipTransfer c r t) ↔ SameBut w s t := by simp [skipTransfer, h]

@[simp] theorem same_skipEmpty {c} (h : .vcs ∈ w ∧ .chans ∈ w ∧ .counters ∈ w) :
    SameBut w s (skipEmpty c t) ↔ SameBut w s t := by
  simp only [skipEmpty]
  (repeat' split) <;> simp [h]

@[simp] theorem same_takeTrigger {c} (h : .chans ∈ w) : SameBut w s (takeTrigger c t) ↔ SameBut w s t := by
  simp only [takeTrigger]
  (repeat' split) <;> simp [h]

@[simp] theorem same_consumeDoorbell {b} (h : .doorbell ∈ w) : SameBut w s (consumeDoorbell b t) ↔ SameBut w s t := by
  simp [consumeDoorbell, h]

@[simp] theorem same_recognise {c r} (h : .doorbell ∈ w ∧ .chans ∈ w ∧ .counters ∈ w) :
    SameBut w s (recognise c r t) ↔ SameBut w s t := by simp [recognise, h]

@[simp] theorem same_serveTriggers {c} (h : .doorbell ∈ w ∧ .chans ∈ w ∧ .counters ∈ w) :
    SameBut w s (serveTriggers c t) ↔ SameBut w s t := by
  simp only [serveTriggers]
  (repeat' split) <;> simp [h]

@[simp] theorem same_reportFrame {c half} (h : .counters ∈ w) :
    SameBut w s (reportFrame c half t) ↔ SameBut w s t := by simp [reportFrame, h]

@[simp] theorem same_completeHalf {c r} (h : .chans ∈ w ∧ .counters ∈ w) :
    SameBut w s (completeHalf c r t) ↔ SameBut w s t := by simp [completeHalf, h]

@[simp] theorem same_halfCompletion {c} (h : .chans ∈ w ∧ .counters ∈ w) :
    SameBut w s (halfCompletion c t) ↔ SameBut w s t := by
  simp only [halfCompletion]
  (repeat' split) <;> simp [h]

@[simp] theorem same_consumeSource {c r} (h : .inputs ∈ w ∧ .streams ∈ w ∧ .rxCells ∈ w ∧ .listeners ∈ w ∧ .vcs ∈ w) :
    SameBut w s (consumeSource c r t) ↔ SameBut w s t := by
  simp only [consumeSource]
  (repeat' split) <;> simp [h]

@[simp] theorem same_feedRegion {c r} (h : .regions ∈ w) : SameBut w s (feedRegion c r t) ↔ SameBut w s t := by
  simp only [feedRegion]
  (repeat' split) <;> simp [h]

@[simp] theorem same_completeFull {c r} (h : .chans ∈ w ∧ .counters ∈ w) :
    SameBut w s (completeFull c r t) ↔ SameBut w s t := by simp [completeFull, h]

@[simp] theorem same_nextTransfer {c} (h : .chans ∈ w) : SameBut w s (nextTransfer c t) ↔ SameBut w s t := by
  simp [nextTransfer, h]

@[simp] theorem same_fullCompletion {c} (h : .regions ∈ w ∧ .inputs ∈ w ∧ .streams ∈ w ∧ .rxCells ∈ w ∧ .listeners ∈ w ∧ .vcs ∈ w ∧ .chans ∈ w ∧ .counters ∈ w) :
    SameBut w s (fullCompletion c t) ↔ SameBut w s t := by
  simp only [fullCompletion]
  (repeat' split) <;> simp [h]

@[simp] theorem same_landChannel {c} (h : .mem ∈ w ∧ .upsets ∈ w ∧ .hwWrote ∈ w ∧ .hostWords ∈ w ∧ .regions ∈ w ∧ .inputs ∈ w ∧ .streams ∈ w ∧ .rxCells ∈ w ∧ .listeners ∈ w ∧ .vcs ∈ w ∧ .pairs ∈ w ∧ .chans ∈ w ∧ .counters ∈ w ∧ .faults ∈ w) :
    SameBut w s (landChannel c t) ↔ SameBut w s t := by simp [landChannel, h]

@[simp] theorem same_discardAssemblies (h : .streams ∈ w ∧ .counters ∈ w) :
    SameBut w s (discardAssemblies t) ↔ SameBut w s t := by simp [discardAssemblies, h]

@[simp] theorem same_containError {c} (h : .mem ∈ w ∧ .upsets ∈ w ∧ .hostWords ∈ w ∧ .inputs ∈ w ∧ .streams ∈ w ∧ .rxCells ∈ w ∧ .listeners ∈ w ∧ .vcs ∈ w ∧ .avocet ∈ w ∧ .counters ∈ w ∧ .faults ∈ w) :
    SameBut w s (containError c t) ↔ SameBut w s t := by
  simp only [containError]
  (repeat' split) <;> simp [h]

@[simp] theorem same_stopChannel {c} (h : .chans ∈ w ∧ .counters ∈ w) :
    SameBut w s (stopChannel c t) ↔ SameBut w s t := by simp [stopChannel, h]

@[simp] theorem same_stopAvocet (h : .mem ∈ w ∧ .upsets ∈ w ∧ .hostWords ∈ w ∧ .inputs ∈ w ∧ .streams ∈ w ∧ .rxCells ∈ w ∧ .listeners ∈ w ∧ .vcs ∈ w ∧ .chans ∈ w ∧ .avocet ∈ w ∧ .counters ∈ w ∧ .faults ∈ w) :
    SameBut w s (stopAvocet t) ↔ SameBut w s t := by simp [stopAvocet, h]

@[simp] theorem same_edgesDue (h : .chans ∈ w ∧ .avocet ∈ w ∧ .counters ∈ w) :
    SameBut w s (edgesDue t) ↔ SameBut w s t := by simp [edgesDue, h]

@[simp] theorem same_avocetDuty (h : .mem ∈ w ∧ .upsets ∈ w ∧ .hwWrote ∈ w ∧ .hostWords ∈ w ∧ .doorbell ∈ w ∧ .regions ∈ w ∧ .inputs ∈ w ∧ .streams ∈ w ∧ .rxCells ∈ w ∧ .listeners ∈ w ∧ .vcs ∈ w ∧ .pairs ∈ w ∧ .chans ∈ w ∧ .avocet ∈ w ∧ .counters ∈ w ∧ .faults ∈ w) :
    SameBut w s (avocetDuty t) ↔ SameBut w s t := by simp [avocetDuty, h]

@[simp] theorem same_grantDuty (h : .mem ∈ w ∧ .upsets ∈ w ∧ .hostWords ∈ w ∧ .inputs ∈ w ∧ .streams ∈ w ∧ .rxCells ∈ w ∧ .listeners ∈ w ∧ .vcs ∈ w ∧ .chans ∈ w ∧ .avocet ∈ w ∧ .counters ∈ w ∧ .faults ∈ w) :
    SameBut w s (grantDuty t) ↔ SameBut w s t := by simp [grantDuty, h]

@[simp] theorem same_listenAge {l} (h : .rxCells ∈ w ∧ .listeners ∈ w ∧ .counters ∈ w) :
    SameBut w s (listenAge l t) ↔ SameBut w s t := by
  simp only [listenAge]
  (repeat' split) <;> simp [h]

@[simp] theorem same_poolAge {k v} (h : .streams ∈ w ∧ .vcs ∈ w ∧ .counters ∈ w) :
    SameBut w s (poolAge k v t) ↔ SameBut w s t := by
  simp only [poolAge]
  (repeat' split) <;> simp [h]

@[simp] theorem same_ageDuty (h : .streams ∈ w ∧ .rxCells ∈ w ∧ .listeners ∈ w ∧ .vcs ∈ w ∧ .counters ∈ w) :
    SameBut w s (ageDuty t) ↔ SameBut w s t := by simp [ageDuty, h]

theorem responseClass_lt {a : Asker} : responseClass a < 8 := by
  unfold responseClass; split <;> omega

/-- A response joins a class queue of its port, or is dropped. -/
@[simp] theorem same_respond {a opcode status payload} (h : .counters ∈ w) :
    SameBut w s (respond a opcode status payload t) ↔ SameBut w s t := by
  have hc : responseClass a < 8 := responseClass_lt
  simp only [respond, same_renewSession, same_ite]
  rw [same_enqueue_own a.port.isLt hc rfl rfl]
  simp [h]

@[simp] theorem same_takeReceived {p opcode r} (h : .mgmtRx ∈ w) :
    SameBut w s (takeReceived p opcode r t) ↔ SameBut w s t := by
  simp only [takeReceived]
  (repeat' split) <;> simp [h]

@[simp] theorem same_refuse {status} : SameBut w s (refuse status t).1 ↔ SameBut w s t := by simp [refuse]

@[simp] theorem same_answer {payload} : SameBut w s (answer payload t).1 ↔ SameBut w s t := by simp [answer]

@[simp] theorem same_discoverWork {b} : SameBut w s (discoverWork b t).1 ↔ SameBut w s t := by
  simp only [discoverWork]
  (repeat' split) <;> simp

@[simp] theorem same_readWork {p staged b} : SameBut w s (readWork p staged b t).1 ↔ SameBut w s t := by
  simp only [readWork]
  (repeat' split) <;> simp

@[simp] theorem same_stageEntry {number e} (h : .staged ∈ w) :
    SameBut w s (stageEntry number e t) ↔ SameBut w s t := by simp [stageEntry, h]

@[simp] theorem same_stageWork {b} (h : .staged ∈ w) : SameBut w s (stageWork b t).1 ↔ SameBut w s t := by
  simp only [stageWork]
  (repeat' split) <;> simp [h]

@[simp] theorem same_commitWork {b} (h : .commit ∈ w ∧ .heronCopies ∈ w) :
    SameBut w s (commitWork b t).1 ↔ SameBut w s t := by
  simp only [commitWork]
  (repeat' split) <;> simp [h]

@[simp] theorem same_abortWork {b} (h : .staged ∈ w ∧ .commit ∈ w ∧ .heronCopies ∈ w) :
    SameBut w s (abortWork b t).1 ↔ SameBut w s t := by
  simp only [abortWork]
  (repeat' split) <;> simp [h]

@[simp] theorem same_clearCounters {l} (h : .counters ∈ w) : SameBut w s (clearCounters l t) ↔ SameBut w s t := by
  simp [clearCounters, h]

@[simp] theorem same_restartMarks (h : .highWater ∈ w) : SameBut w s (restartMarks t) ↔ SameBut w s t := by
  simp [restartMarks, h]

@[simp] theorem same_snapshotWork {a b} (h : .snaps ∈ w) : SameBut w s (snapshotWork a b t).1 ↔ SameBut w s t := by
  simp only [snapshotWork]
  (repeat' split) <;> simp [h]

@[simp] theorem same_snapDuty (h : .highWater ∈ w ∧ .snaps ∈ w ∧ .counters ∈ w) : SameBut w s (snapDuty t) ↔ SameBut w s t := by
  simp only [snapDuty]
  split
  · rfl
  · rw [same_each fun a u => by simp [h], same_each fun a u => (same_whenB fun v => by simp [h]).2 SameBut.refl]
    simp [h]

@[simp] theorem same_subscribeWork {b} (h : .subs ∈ w) : SameBut w s (subscribeWork b t).1 ↔ SameBut w s t := by
  simp only [subscribeWork]
  (repeat' split) <;> simp [h]

@[simp] theorem same_programChunk {a slot off len last data} (h : .xfer ∈ w) :
    SameBut w s (programChunk a slot off len last data t) ↔ SameBut w s t := by simp [programChunk, h]

@[simp] theorem same_transferWork {a b} (h : .xfer ∈ w) : SameBut w s (transferWork a b t).1 ↔ SameBut w s t := by
  simp only [transferWork]
  (repeat' split) <;> simp [h]

@[simp] theorem same_setStand {x w'} (h : .boot ∈ w) : SameBut w s (setStand x w' t) ↔ SameBut w s t := by
  simp only [setStand]
  (repeat' split) <;> simp [h]

@[simp] theorem same_writeStand {x w'} (h : .boot ∈ w) : SameBut w s (writeStand x w' t) ↔ SameBut w s t := by
  simp [writeStand, h]

@[simp] theorem same_standDown {x} (h : .boot ∈ w) : SameBut w s (standDown x t) ↔ SameBut w s t := by
  simp [standDown, h]

@[simp] theorem same_finishChunk {x a f} (h : .boot ∈ w ∧ .xfer ∈ w ∧ .counters ∈ w) :
    SameBut w s (finishChunk x a f t) ↔ SameBut w s t := by simp [finishChunk, h]

@[simp] theorem same_switchWork {a b} (h : .switch ∈ w) : SameBut w s (switchWork a b t).1 ↔ SameBut w s t := by
  simp only [switchWork]
  (repeat' split) <;> simp [h]

@[simp] theorem same_acceptSwitch {w'} (h : .switch ∈ w ∧ .counters ∈ w) :
    SameBut w s (acceptSwitch w' t) ↔ SameBut w s t := by simp [acceptSwitch, h]

@[simp] theorem same_finishSwitch {w' r} (h : .boot ∈ w ∧ .switch ∈ w ∧ .counters ∈ w) :
    SameBut w s (finishSwitch w' r t) ↔ SameBut w s t := by
  simp only [finishSwitch]
  (repeat' split) <;> simp [h]

@[simp] theorem same_raiseWork {a b} (h : .raise ∈ w) : SameBut w s (raiseWork a b t).1 ↔ SameBut w s t := by
  simp only [raiseWork]
  (repeat' split) <;> simp [h]

@[simp] theorem same_rewriteEfftol (h : .status ∈ w) : SameBut w s (rewriteEfftol t) ↔ SameBut w s t := by
  simp [rewriteEfftol, h]

@[simp] theorem same_beginPortWake {p} (h : .ports ∈ w) : SameBut w s (beginPortWake p t) ↔ SameBut w s t := by
  simp [beginPortWake, h]

@[simp] theorem same_endDeep {k} (h : .links ∈ w) : SameBut w s (endDeep k t) ↔ SameBut w s t := by simp [endDeep, h]

@[simp] theorem same_leaveLevel {n} (h : .ports ∈ w ∧ .links ∈ w) : SameBut w s (leaveLevel n t) ↔ SameBut w s t := by
  simp [leaveLevel, h]

@[simp] theorem same_goDeep {k} (h : .links ∈ w) : SameBut w s (goDeep k t) ↔ SameBut w s t := by simp [goDeep, h]

@[simp] theorem same_countEntry {o n} (h : .counters ∈ w) : SameBut w s (countEntry o n t) ↔ SameBut w s t := by
  simp [countEntry, h]

@[simp] theorem same_powerDuties (h : .ports ∈ w ∧ .power ∈ w) : SameBut w s (powerDuties t) ↔ SameBut w s t := by
  simp [powerDuties, h]

@[simp] theorem same_changeLevel (h : .status ∈ w ∧ .ports ∈ w ∧ .links ∈ w ∧ .counters ∈ w ∧ .power ∈ w) :
    SameBut w s (changeLevel t) ↔ SameBut w s t := by simp [changeLevel, h]

@[simp] theorem same_updateEfftol (h : .status ∈ w ∧ .power ∈ w) : SameBut w s (updateEfftol t) ↔ SameBut w s t := by
  simp [updateEfftol, h]

@[simp] theorem same_doze {k} (h : .links ∈ w) : SameBut w s (doze k t) ↔ SameBut w s t := by simp [doze, h]

@[simp] theorem same_keepalive {k} (h : .links ∈ w ∧ .lanes ∈ w) : SameBut w s (keepalive k t) ↔ SameBut w s t := by
  simp [keepalive, h]

@[simp] theorem same_rest {p} (h : .ports ∈ w) : SameBut w s (rest p t) ↔ SameBut w s t := by simp [rest, h]

@[simp] theorem same_returnPort {p} (h : .ports ∈ w) : SameBut w s (returnPort p t) ↔ SameBut w s t := by
  simp [returnPort, h]

@[simp] theorem same_enterS3 (h : .status ∈ w ∧ .links ∈ w ∧ .counters ∈ w ∧ .power ∈ w) :
    SameBut w s (enterS3 t) ↔ SameBut w s t := by simp [enterS3, h]

@[simp] theorem same_wakeEffect {w'} (h : .counters ∈ w) : SameBut w s (wakeEffect w' t) ↔ SameBut w s t := by
  simp only [wakeEffect]
  (repeat' split) <;> simp [h]

@[simp] theorem same_passBoundaries (h : .tables ∈ w ∧ .staged ∈ w ∧ .commit ∈ w ∧ .mem ∈ w ∧ .upsets ∈ w ∧ .hostWords ∈ w ∧ .status ∈ w ∧ .regions ∈ w ∧ .dunlin ∈ w ∧ .heronClock ∈ w ∧ .heronCopies ∈ w ∧ .streams ∈ w ∧ .meters ∈ w ∧ .ports ∈ w ∧ .mdio ∈ w ∧ .queues ∈ w ∧ .rxCells ∈ w ∧ .listeners ∈ w ∧ .links ∈ w ∧ .vcs ∈ w ∧ .pairs ∈ w ∧ .lanes ∈ w ∧ .quiet ∈ w ∧ .chans ∈ w ∧ .avocet ∈ w ∧ .mgmtRx ∈ w ∧ .counters ∈ w ∧ .faults ∈ w) :
    SameBut w s (passBoundaries t) ↔ SameBut w s t := by simp [passBoundaries, h]

@[simp] theorem same_leaveS3 (h : .tables ∈ w ∧ .staged ∈ w ∧ .commit ∈ w ∧ .mem ∈ w ∧ .upsets ∈ w ∧ .hostWords ∈ w ∧ .status ∈ w ∧ .regions ∈ w ∧ .dunlin ∈ w ∧ .heronClock ∈ w ∧ .heronCopies ∈ w ∧ .streams ∈ w ∧ .meters ∈ w ∧ .ports ∈ w ∧ .mdio ∈ w ∧ .queues ∈ w ∧ .rxCells ∈ w ∧ .listeners ∈ w ∧ .links ∈ w ∧ .vcs ∈ w ∧ .pairs ∈ w ∧ .lanes ∈ w ∧ .quiet ∈ w ∧ .chans ∈ w ∧ .avocet ∈ w ∧ .mgmtRx ∈ w ∧ .counters ∈ w ∧ .power ∈ w ∧ .faults ∈ w) :
    SameBut w s (leaveS3 t) ↔ SameBut w s t := by simp [leaveS3, h]

@[simp] theorem same_sleepDuty (h : .tables ∈ w ∧ .staged ∈ w ∧ .commit ∈ w ∧ .mem ∈ w ∧ .upsets ∈ w ∧ .hostWords ∈ w ∧ .status ∈ w ∧ .regions ∈ w ∧ .dunlin ∈ w ∧ .heronClock ∈ w ∧ .heronCopies ∈ w ∧ .streams ∈ w ∧ .meters ∈ w ∧ .ports ∈ w ∧ .mdio ∈ w ∧ .queues ∈ w ∧ .rxCells ∈ w ∧ .listeners ∈ w ∧ .links ∈ w ∧ .vcs ∈ w ∧ .pairs ∈ w ∧ .lanes ∈ w ∧ .quiet ∈ w ∧ .chans ∈ w ∧ .avocet ∈ w ∧ .mgmtRx ∈ w ∧ .counters ∈ w ∧ .power ∈ w ∧ .faults ∈ w) :
    SameBut w s (sleepDuty t) ↔ SameBut w s t := by simp [sleepDuty, h]

@[simp] theorem same_lowerPins : SameBut w s (lowerPins t) ↔ SameBut w s t := by simp [lowerPins]

@[simp] theorem same_bitternSends {p} : SameBut w s (bitternSends p t) ↔ SameBut w s t := by
  simp only [bitternSends]
  (repeat' split) <;> simp

@[simp] theorem same_dozeDuty {k} (h : .links ∈ w ∧ .lanes ∈ w) : SameBut w s (dozeDuty k t) ↔ SameBut w s t := by
  simp [dozeDuty, h]

@[simp] theorem same_restDuty {p} (h : .ports ∈ w) : SameBut w s (restDuty p t) ↔ SameBut w s t := by
  simp [restDuty, h]

@[simp] theorem same_levelDuty (h : .status ∈ w ∧ .ports ∈ w ∧ .links ∈ w ∧ .lanes ∈ w ∧ .counters ∈ w ∧ .power ∈ w) :
    SameBut w s (levelDuty t) ↔ SameBut w s t := by simp [levelDuty, h]

@[simp] theorem same_wakeBittern (h : .power ∈ w) : SameBut w s (wakeBittern t) ↔ SameBut w s t := by
  simp only [wakeBittern]
  (repeat' split) <;> simp [h]

@[simp] theorem same_scrubNext {m} (h : .tables ∈ w ∧ .lost ∈ w ∧ .mem ∈ w ∧ .upsets ∈ w ∧ .hostWords ∈ w ∧ .regions ∈ w ∧ .dunlin ∈ w ∧ .heronCopies ∈ w ∧ .streams ∈ w ∧ .meters ∈ w ∧ .ports ∈ w ∧ .mdio ∈ w ∧ .queues ∈ w ∧ .rxCells ∈ w ∧ .listeners ∈ w ∧ .links ∈ w ∧ .vcs ∈ w ∧ .pairs ∈ w ∧ .lanes ∈ w ∧ .quiet ∈ w ∧ .chans ∈ w ∧ .mgmtRx ∈ w ∧ .counters ∈ w ∧ .faults ∈ w ∧ .scrubs ∈ w) :
    SameBut w s (scrubNext m t) ↔ SameBut w s t := by simp [scrubNext, h]

@[simp] theorem same_freezeEdge {ps} (h : .counters ∈ w ∧ .freeze ∈ w) :
    SameBut w s (freezeEdge ps t) ↔ SameBut w s t := by simp [freezeEdge, h]

@[simp] theorem same_setTsDo {v} (h : .readout ∈ w) : SameBut w s (setTsDo v t) ↔ SameBut w s t := by
  simp [setTsDo, h]

@[simp] theorem same_pourWaiting (h : .streams ∈ w ∧ .ports ∈ w ∧ .queues ∈ w ∧ .vcs ∈ w ∧ .counters ∈ w) :
    SameBut w s (pourWaiting t) ↔ SameBut w s t := by simp [pourWaiting, h]

@[simp] theorem same_ckDuties (h : .tables ∈ w ∧ .staged ∈ w ∧ .commit ∈ w ∧ .mem ∈ w ∧ .upsets ∈ w ∧ .hwWrote ∈ w ∧ .hostWords ∈ w ∧ .doorbell ∈ w ∧ .status ∈ w ∧ .regions ∈ w ∧ .dunlin ∈ w ∧ .inputs ∈ w ∧ .heronClock ∈ w ∧ .heronCopies ∈ w ∧ .streams ∈ w ∧ .meters ∈ w ∧ .ports ∈ w ∧ .mdio ∈ w ∧ .queues ∈ w ∧ .rxCells ∈ w ∧ .listeners ∈ w ∧ .links ∈ w ∧ .vcs ∈ w ∧ .pairs ∈ w ∧ .lanes ∈ w ∧ .quiet ∈ w ∧ .chans ∈ w ∧ .avocet ∈ w ∧ .mgmtRx ∈ w ∧ .counters ∈ w ∧ .power ∈ w ∧ .faults ∈ w) :
    SameBut w s (ckDuties t) ↔ SameBut w s t := by simp [ckDuties, h]

@[simp] theorem same_ckEnds (h : .mem ∈ w ∧ .upsets ∈ w ∧ .hostWords ∈ w ∧ .status ∈ w ∧ .regions ∈ w ∧ .dunlin ∈ w ∧ .inputs ∈ w ∧ .streams ∈ w ∧ .rxCells ∈ w ∧ .highWater ∈ w ∧ .listeners ∈ w ∧ .vcs ∈ w ∧ .chans ∈ w ∧ .avocet ∈ w ∧ .snaps ∈ w ∧ .counters ∈ w ∧ .faults ∈ w) :
    SameBut w s (ckEnds t) ↔ SameBut w s t := by simp [ckEnds, h]

end Sys2Proof.Machine
end

