-- ==== Sys2Proof/Laws/State.lean ====
section
/-!
SUPPORT. The fields that each basic update leaves as they were, so that no proof unfolds a record update, and what
reads back after an update: a keyed sub-state, a counter, the newest fault-log entry.
-/
namespace Sys2Proof.Machine

variable {s : State}

/-! ### Fields that an update leaves -/

@[simp] theorem setPort_fields {p : Nat} {x : PortSt} :
    (setPort s p x).pending = s.pending ∧ (setPort s p x).now = s.now ∧ (setPort s p x).free = s.free ∧
    (setPort s p x).frameIds = s.frameIds ∧ (setPort s p x).out = s.out ∧ (setPort s p x).supply = s.supply ∧
    (setPort s p x).straps = s.straps ∧ (setPort s p x).ladder = s.ladder ∧ (setPort s p x).boot = s.boot ∧
    (setPort s p x).otp = s.otp ∧ (setPort s p x).fuses = s.fuses ∧ (setPort s p x).tables = s.tables ∧
    (setPort s p x).lost = s.lost ∧ (setPort s p x).staged = s.staged ∧ (setPort s p x).commit = s.commit ∧
    (setPort s p x).mem = s.mem ∧ (setPort s p x).upsets = s.upsets ∧ (setPort s p x).halfLatch = s.halfLatch ∧
    (setPort s p x).hwWrote = s.hwWrote ∧ (setPort s p x).station = s.station ∧
    (setPort s p x).regions = s.regions ∧ (setPort s p x).dunlin = s.dunlin ∧ (setPort s p x).inputs = s.inputs ∧
    (setPort s p x).heron = s.heron ∧ (setPort s p x).streams = s.streams ∧ (setPort s p x).meters = s.meters ∧
    (setPort s p x).coarse = s.coarse ∧ (setPort s p x).released = s.released ∧ (setPort s p x).mdio = s.mdio ∧
    (setPort s p x).classQ = s.classQ ∧ (setPort s p x).rxCells = s.rxCells ∧
    (setPort s p x).highWater = s.highWater ∧ (setPort s p x).listeners = s.listeners ∧
    (setPort s p x).links = s.links ∧ (setPort s p x).vcs = s.vcs ∧ (setPort s p x).pairs = s.pairs ∧
    (setPort s p x).lanes = s.lanes ∧ (setPort s p x).quiet = s.quiet ∧ (setPort s p x).chans = s.chans ∧
    (setPort s p x).avocet = s.avocet ∧ (setPort s p x).hid = s.hid ∧ (setPort s p x).counters = s.counters ∧
    (setPort s p x).power = s.power ∧ (setPort s p x).faults = s.faults ∧ (setPort s p x).scrubs = s.scrubs ∧
    (setPort s p x).freeze = s.freeze ∧ (setPort s p x).readout = s.readout :=
  ⟨rfl, rfl, rfl, rfl, rfl, rfl, rfl, rfl, rfl, rfl, rfl, rfl, rfl, rfl, rfl, rfl, rfl, rfl, rfl, rfl,
    rfl, rfl, rfl, rfl, rfl, rfl, rfl, rfl, rfl, rfl, rfl, rfl, rfl, rfl, rfl, rfl, rfl, rfl, rfl, rfl,
    rfl, rfl, rfl, rfl, rfl, rfl, rfl⟩

@[simp] theorem setLink_fields {k : Nat} {x : LinkSt} :
    (setLink s k x).pending = s.pending ∧ (setLink s k x).now = s.now ∧ (setLink s k x).free = s.free ∧
    (setLink s k x).frameIds = s.frameIds ∧ (setLink s k x).out = s.out ∧ (setLink s k x).supply = s.supply ∧
    (setLink s k x).straps = s.straps ∧ (setLink s k x).ladder = s.ladder ∧ (setLink s k x).boot = s.boot ∧
    (setLink s k x).otp = s.otp ∧ (setLink s k x).fuses = s.fuses ∧ (setLink s k x).tables = s.tables ∧
    (setLink s k x).lost = s.lost ∧ (setLink s k x).staged = s.staged ∧ (setLink s k x).commit = s.commit ∧
    (setLink s k x).mem = s.mem ∧ (setLink s k x).upsets = s.upsets ∧ (setLink s k x).halfLatch = s.halfLatch ∧
    (setLink s k x).hwWrote = s.hwWrote ∧ (setLink s k x).station = s.station ∧
    (setLink s k x).regions = s.regions ∧ (setLink s k x).dunlin = s.dunlin ∧ (setLink s k x).inputs = s.inputs ∧
    (setLink s k x).heron = s.heron ∧ (setLink s k x).streams = s.streams ∧ (setLink s k x).meters = s.meters ∧
    (setLink s k x).coarse = s.coarse ∧ (setLink s k x).released = s.released ∧ (setLink s k x).ports = s.ports ∧
    (setLink s k x).mdio = s.mdio ∧ (setLink s k x).classQ = s.classQ ∧ (setLink s k x).rxCells = s.rxCells ∧
    (setLink s k x).highWater = s.highWater ∧ (setLink s k x).listeners = s.listeners ∧
    (setLink s k x).vcs = s.vcs ∧ (setLink s k x).pairs = s.pairs ∧ (setLink s k x).lanes = s.lanes ∧
    (setLink s k x).quiet = s.quiet ∧ (setLink s k x).chans = s.chans ∧ (setLink s k x).avocet = s.avocet ∧
    (setLink s k x).hid = s.hid ∧ (setLink s k x).counters = s.counters ∧ (setLink s k x).power = s.power ∧
    (setLink s k x).faults = s.faults ∧ (setLink s k x).scrubs = s.scrubs ∧ (setLink s k x).freeze = s.freeze ∧
    (setLink s k x).readout = s.readout :=
  ⟨rfl, rfl, rfl, rfl, rfl, rfl, rfl, rfl, rfl, rfl, rfl, rfl, rfl, rfl, rfl, rfl, rfl, rfl, rfl, rfl,
    rfl, rfl, rfl, rfl, rfl, rfl, rfl, rfl, rfl, rfl, rfl, rfl, rfl, rfl, rfl, rfl, rfl, rfl, rfl, rfl,
    rfl, rfl, rfl, rfl, rfl, rfl, rfl⟩

@[simp] theorem setVc_fields {k v : Nat} {x : VcSt} :
    (setVc s k v x).pending = s.pending ∧ (setVc s k v x).now = s.now ∧ (setVc s k v x).free = s.free ∧
    (setVc s k v x).frameIds = s.frameIds ∧ (setVc s k v x).out = s.out ∧ (setVc s k v x).supply = s.supply ∧
    (setVc s k v x).straps = s.straps ∧ (setVc s k v x).ladder = s.ladder ∧ (setVc s k v x).boot = s.boot ∧
    (setVc s k v x).otp = s.otp ∧ (setVc s k v x).fuses = s.fuses ∧ (setVc s k v x).tables = s.tables ∧
    (setVc s k v x).lost = s.lost ∧ (setVc s k v x).staged = s.staged ∧ (setVc s k v x).commit = s.commit ∧
    (setVc s k v x).mem = s.mem ∧ (setVc s k v x).upsets = s.upsets ∧ (setVc s k v x).halfLatch = s.halfLatch ∧
    (setVc s k v x).hwWrote = s.hwWrote ∧ (setVc s k v x).station = s.station ∧
    (setVc s k v x).regions = s.regions ∧ (setVc s k v x).dunlin = s.dunlin ∧ (setVc s k v x).inputs = s.inputs ∧
    (setVc s k v x).heron = s.heron ∧ (setVc s k v x).streams = s.streams ∧ (setVc s k v x).meters = s.meters ∧
    (setVc s k v x).coarse = s.coarse ∧ (setVc s k v x).released = s.released ∧ (setVc s k v x).ports = s.ports ∧
    (setVc s k v x).mdio = s.mdio ∧ (setVc s k v x).classQ = s.classQ ∧ (setVc s k v x).rxCells = s.rxCells ∧
    (setVc s k v x).highWater = s.highWater ∧ (setVc s k v x).listeners = s.listeners ∧
    (setVc s k v x).links = s.links ∧ (setVc s k v x).pairs = s.pairs ∧ (setVc s k v x).lanes = s.lanes ∧
    (setVc s k v x).quiet = s.quiet ∧ (setVc s k v x).chans = s.chans ∧ (setVc s k v x).avocet = s.avocet ∧
    (setVc s k v x).hid = s.hid ∧ (setVc s k v x).counters = s.counters ∧ (setVc s k v x).power = s.power ∧
    (setVc s k v x).faults = s.faults ∧ (setVc s k v x).scrubs = s.scrubs ∧ (setVc s k v x).freeze = s.freeze ∧
    (setVc s k v x).readout = s.readout :=
  ⟨rfl, rfl, rfl, rfl, rfl, rfl, rfl, rfl, rfl, rfl, rfl, rfl, rfl, rfl, rfl, rfl, rfl, rfl, rfl, rfl,
    rfl, rfl, rfl, rfl, rfl, rfl, rfl, rfl, rfl, rfl, rfl, rfl, rfl, rfl, rfl, rfl, rfl, rfl, rfl, rfl,
    rfl, rfl, rfl, rfl, rfl, rfl, rfl⟩

@[simp] theorem setLane_fields {n : Nat} {x : LaneSt} :
    (setLane s n x).pending = s.pending ∧ (setLane s n x).now = s.now ∧ (setLane s n x).free = s.free ∧
    (setLane s n x).frameIds = s.frameIds ∧ (setLane s n x).out = s.out ∧ (setLane s n x).supply = s.supply ∧
    (setLane s n x).straps = s.straps ∧ (setLane s n x).ladder = s.ladder ∧ (setLane s n x).boot = s.boot ∧
    (setLane s n x).otp = s.otp ∧ (setLane s n x).fuses = s.fuses ∧ (setLane s n x).tables = s.tables ∧
    (setLane s n x).lost = s.lost ∧ (setLane s n x).staged = s.staged ∧ (setLane s n x).commit = s.commit ∧
    (setLane s n x).mem = s.mem ∧ (setLane s n x).upsets = s.upsets ∧ (setLane s n x).halfLatch = s.halfLatch ∧
    (setLane s n x).hwWrote = s.hwWrote ∧ (setLane s n x).station = s.station ∧
    (setLane s n x).regions = s.regions ∧ (setLane s n x).dunlin = s.dunlin ∧ (setLane s n x).inputs = s.inputs ∧
    (setLane s n x).heron = s.heron ∧ (setLane s n x).streams = s.streams ∧ (setLane s n x).meters = s.meters ∧
    (setLane s n x).coarse = s.coarse ∧ (setLane s n x).released = s.released ∧ (setLane s n x).ports = s.ports ∧
    (setLane s n x).mdio = s.mdio ∧ (setLane s n x).classQ = s.classQ ∧ (setLane s n x).rxCells = s.rxCells ∧
    (setLane s n x).highWater = s.highWater ∧ (setLane s n x).listeners = s.listeners ∧
    (setLane s n x).links = s.links ∧ (setLane s n x).vcs = s.vcs ∧ (setLane s n x).pairs = s.pairs ∧
    (setLane s n x).quiet = s.quiet ∧ (setLane s n x).chans = s.chans ∧ (setLane s n x).avocet = s.avocet ∧
    (setLane s n x).hid = s.hid ∧ (setLane s n x).counters = s.counters ∧ (setLane s n x).power = s.power ∧
    (setLane s n x).faults = s.faults ∧ (setLane s n x).scrubs = s.scrubs ∧ (setLane s n x).freeze = s.freeze ∧
    (setLane s n x).readout = s.readout :=
  ⟨rfl, rfl, rfl, rfl, rfl, rfl, rfl, rfl, rfl, rfl, rfl, rfl, rfl, rfl, rfl, rfl, rfl, rfl, rfl, rfl,
    rfl, rfl, rfl, rfl, rfl, rfl, rfl, rfl, rfl, rfl, rfl, rfl, rfl, rfl, rfl, rfl, rfl, rfl, rfl, rfl,
    rfl, rfl, rfl, rfl, rfl, rfl, rfl⟩

@[simp] theorem setChan_fields {c : Nat} {x : ChanSt} :
    (setChan s c x).pending = s.pending ∧ (setChan s c x).now = s.now ∧ (setChan s c x).free = s.free ∧
    (setChan s c x).frameIds = s.frameIds ∧ (setChan s c x).out = s.out ∧ (setChan s c x).supply = s.supply ∧
    (setChan s c x).straps = s.straps ∧ (setChan s c x).ladder = s.ladder ∧ (setChan s c x).boot = s.boot ∧
    (setChan s c x).otp = s.otp ∧ (setChan s c x).fuses = s.fuses ∧ (setChan s c x).tables = s.tables ∧
    (setChan s c x).lost = s.lost ∧ (setChan s c x).staged = s.staged ∧ (setChan s c x).commit = s.commit ∧
    (setChan s c x).mem = s.mem ∧ (setChan s c x).upsets = s.upsets ∧ (setChan s c x).halfLatch = s.halfLatch ∧
    (setChan s c x).hwWrote = s.hwWrote ∧ (setChan s c x).station = s.station ∧
    (setChan s c x).regions = s.regions ∧ (setChan s c x).dunlin = s.dunlin ∧ (setChan s c x).inputs = s.inputs ∧
    (setChan s c x).heron = s.heron ∧ (setChan s c x).streams = s.streams ∧ (setChan s c x).meters = s.meters ∧
    (setChan s c x).coarse = s.coarse ∧ (setChan s c x).released = s.released ∧ (setChan s c x).ports = s.ports ∧
    (setChan s c x).mdio = s.mdio ∧ (setChan s c x).classQ = s.classQ ∧ (setChan s c x).rxCells = s.rxCells ∧
    (setChan s c x).highWater = s.highWater ∧ (setChan s c x).listeners = s.listeners ∧
    (setChan s c x).links = s.links ∧ (setChan s c x).vcs = s.vcs ∧ (setChan s c x).pairs = s.pairs ∧
    (setChan s c x).lanes = s.lanes ∧ (setChan s c x).quiet = s.quiet ∧ (setChan s c x).avocet = s.avocet ∧
    (setChan s c x).hid = s.hid ∧ (setChan s c x).counters = s.counters ∧ (setChan s c x).power = s.power ∧
    (setChan s c x).faults = s.faults ∧ (setChan s c x).scrubs = s.scrubs ∧ (setChan s c x).freeze = s.freeze ∧
    (setChan s c x).readout = s.readout :=
  ⟨rfl, rfl, rfl, rfl, rfl, rfl, rfl, rfl, rfl, rfl, rfl, rfl, rfl, rfl, rfl, rfl, rfl, rfl, rfl, rfl,
    rfl, rfl, rfl, rfl, rfl, rfl, rfl, rfl, rfl, rfl, rfl, rfl, rfl, rfl, rfl, rfl, rfl, rfl, rfl, rfl,
    rfl, rfl, rfl, rfl, rfl, rfl, rfl⟩

@[simp] theorem setStream_fields {q : Nat} {x : StreamSt} :
    (setStream s q x).pending = s.pending ∧ (setStream s q x).now = s.now ∧ (setStream s q x).free = s.free ∧
    (setStream s q x).frameIds = s.frameIds ∧ (setStream s q x).out = s.out ∧
    (setStream s q x).supply = s.supply ∧ (setStream s q x).straps = s.straps ∧
    (setStream s q x).ladder = s.ladder ∧ (setStream s q x).boot = s.boot ∧ (setStream s q x).otp = s.otp ∧
    (setStream s q x).fuses = s.fuses ∧ (setStream s q x).tables = s.tables ∧ (setStream s q x).lost = s.lost ∧
    (setStream s q x).staged = s.staged ∧ (setStream s q x).commit = s.commit ∧ (setStream s q x).mem = s.mem ∧
    (setStream s q x).upsets = s.upsets ∧ (setStream s q x).halfLatch = s.halfLatch ∧
    (setStream s q x).hwWrote = s.hwWrote ∧ (setStream s q x).station = s.station ∧
    (setStream s q x).regions = s.regions ∧ (setStream s q x).dunlin = s.dunlin ∧
    (setStream s q x).inputs = s.inputs ∧ (setStream s q x).heron = s.heron ∧
    (setStream s q x).meters = s.meters ∧ (setStream s q x).coarse = s.coarse ∧
    (setStream s q x).released = s.released ∧ (setStream s q x).ports = s.ports ∧
    (setStream s q x).mdio = s.mdio ∧ (setStream s q x).classQ = s.classQ ∧
    (setStream s q x).rxCells = s.rxCells ∧ (setStream s q x).highWater = s.highWater ∧
    (setStream s q x).listeners = s.listeners ∧ (setStream s q x).links = s.links ∧
    (setStream s q x).vcs = s.vcs ∧ (setStream s q x).pairs = s.pairs ∧ (setStream s q x).lanes = s.lanes ∧
    (setStream s q x).quiet = s.quiet ∧ (setStream s q x).chans = s.chans ∧ (setStream s q x).avocet = s.avocet ∧
    (setStream s q x).hid = s.hid ∧ (setStream s q x).counters = s.counters ∧ (setStream s q x).power = s.power ∧
    (setStream s q x).faults = s.faults ∧ (setStream s q x).scrubs = s.scrubs ∧
    (setStream s q x).freeze = s.freeze ∧ (setStream s q x).readout = s.readout :=
  ⟨rfl, rfl, rfl, rfl, rfl, rfl, rfl, rfl, rfl, rfl, rfl, rfl, rfl, rfl, rfl, rfl, rfl, rfl, rfl, rfl,
    rfl, rfl, rfl, rfl, rfl, rfl, rfl, rfl, rfl, rfl, rfl, rfl, rfl, rfl, rfl, rfl, rfl, rfl, rfl, rfl,
    rfl, rfl, rfl, rfl, rfl, rfl, rfl⟩

@[simp] theorem setMeter_fields {m : Nat} {x : MeterSt} :
    (setMeter s m x).pending = s.pending ∧ (setMeter s m x).now = s.now ∧ (setMeter s m x).free = s.free ∧
    (setMeter s m x).frameIds = s.frameIds ∧ (setMeter s m x).out = s.out ∧ (setMeter s m x).supply = s.supply ∧
    (setMeter s m x).straps = s.straps ∧ (setMeter s m x).ladder = s.ladder ∧ (setMeter s m x).boot = s.boot ∧
    (setMeter s m x).otp = s.otp ∧ (setMeter s m x).fuses = s.fuses ∧ (setMeter s m x).tables = s.tables ∧
    (setMeter s m x).lost = s.lost ∧ (setMeter s m x).staged = s.staged ∧ (setMeter s m x).commit = s.commit ∧
    (setMeter s m x).mem = s.mem ∧ (setMeter s m x).upsets = s.upsets ∧
    (setMeter s m x).halfLatch = s.halfLatch ∧ (setMeter s m x).hwWrote = s.hwWrote ∧
    (setMeter s m x).station = s.station ∧ (setMeter s m x).regions = s.regions ∧
    (setMeter s m x).dunlin = s.dunlin ∧ (setMeter s m x).inputs = s.inputs ∧ (setMeter s m x).heron = s.heron ∧
    (setMeter s m x).streams = s.streams ∧ (setMeter s m x).coarse = s.coarse ∧
    (setMeter s m x).released = s.released ∧ (setMeter s m x).ports = s.ports ∧ (setMeter s m x).mdio = s.mdio ∧
    (setMeter s m x).classQ = s.classQ ∧ (setMeter s m x).rxCells = s.rxCells ∧
    (setMeter s m x).highWater = s.highWater ∧ (setMeter s m x).listeners = s.listeners ∧
    (setMeter s m x).links = s.links ∧ (setMeter s m x).vcs = s.vcs ∧ (setMeter s m x).pairs = s.pairs ∧
    (setMeter s m x).lanes = s.lanes ∧ (setMeter s m x).quiet = s.quiet ∧ (setMeter s m x).chans = s.chans ∧
    (setMeter s m x).avocet = s.avocet ∧ (setMeter s m x).hid = s.hid ∧ (setMeter s m x).counters = s.counters ∧
    (setMeter s m x).power = s.power ∧ (setMeter s m x).faults = s.faults ∧ (setMeter s m x).scrubs = s.scrubs ∧
    (setMeter s m x).freeze = s.freeze ∧ (setMeter s m x).readout = s.readout :=
  ⟨rfl, rfl, rfl, rfl, rfl, rfl, rfl, rfl, rfl, rfl, rfl, rfl, rfl, rfl, rfl, rfl, rfl, rfl, rfl, rfl,
    rfl, rfl, rfl, rfl, rfl, rfl, rfl, rfl, rfl, rfl, rfl, rfl, rfl, rfl, rfl, rfl, rfl, rfl, rfl, rfl,
    rfl, rfl, rfl, rfl, rfl, rfl, rfl⟩

@[simp] theorem setListener_fields {l : Nat} {x : ListenerSt} :
    (setListener s l x).pending = s.pending ∧ (setListener s l x).now = s.now ∧
    (setListener s l x).free = s.free ∧ (setListener s l x).frameIds = s.frameIds ∧
    (setListener s l x).out = s.out ∧ (setListener s l x).supply = s.supply ∧
    (setListener s l x).straps = s.straps ∧ (setListener s l x).ladder = s.ladder ∧
    (setListener s l x).boot = s.boot ∧ (setListener s l x).otp = s.otp ∧ (setListener s l x).fuses = s.fuses ∧
    (setListener s l x).tables = s.tables ∧ (setListener s l x).lost = s.lost ∧
    (setListener s l x).staged = s.staged ∧ (setListener s l x).commit = s.commit ∧
    (setListener s l x).mem = s.mem ∧ (setListener s l x).upsets = s.upsets ∧
    (setListener s l x).halfLatch = s.halfLatch ∧ (setListener s l x).hwWrote = s.hwWrote ∧
    (setListener s l x).station = s.station ∧ (setListener s l x).regions = s.regions ∧
    (setListener s l x).dunlin = s.dunlin ∧ (setListener s l x).inputs = s.inputs ∧
    (setListener s l x).heron = s.heron ∧ (setListener s l x).streams = s.streams ∧
    (setListener s l x).meters = s.meters ∧ (setListener s l x).coarse = s.coarse ∧
    (setListener s l x).released = s.released ∧ (setListener s l x).ports = s.ports ∧
    (setListener s l x).mdio = s.mdio ∧ (setListener s l x).classQ = s.classQ ∧
    (setListener s l x).rxCells = s.rxCells ∧ (setListener s l x).highWater = s.highWater ∧
    (setListener s l x).links = s.links ∧ (setListener s l x).vcs = s.vcs ∧ (setListener s l x).pairs = s.pairs ∧
    (setListener s l x).lanes = s.lanes ∧ (setListener s l x).quiet = s.quiet ∧
    (setListener s l x).chans = s.chans ∧ (setListener s l x).avocet = s.avocet ∧
    (setListener s l x).hid = s.hid ∧ (setListener s l x).counters = s.counters ∧
    (setListener s l x).power = s.power ∧ (setListener s l x).faults = s.faults ∧
    (setListener s l x).scrubs = s.scrubs ∧ (setListener s l x).freeze = s.freeze ∧
    (setListener s l x).readout = s.readout :=
  ⟨rfl, rfl, rfl, rfl, rfl, rfl, rfl, rfl, rfl, rfl, rfl, rfl, rfl, rfl, rfl, rfl, rfl, rfl, rfl, rfl,
    rfl, rfl, rfl, rfl, rfl, rfl, rfl, rfl, rfl, rfl, rfl, rfl, rfl, rfl, rfl, rfl, rfl, rfl, rfl, rfl,
    rfl, rfl, rfl, rfl, rfl, rfl, rfl⟩

@[simp] theorem setRegion_fields {r : Nat} {x : RegionSt} :
    (setRegion s r x).pending = s.pending ∧ (setRegion s r x).now = s.now ∧ (setRegion s r x).free = s.free ∧
    (setRegion s r x).frameIds = s.frameIds ∧ (setRegion s r x).out = s.out ∧
    (setRegion s r x).supply = s.supply ∧ (setRegion s r x).straps = s.straps ∧
    (setRegion s r x).ladder = s.ladder ∧ (setRegion s r x).boot = s.boot ∧ (setRegion s r x).otp = s.otp ∧
    (setRegion s r x).fuses = s.fuses ∧ (setRegion s r x).tables = s.tables ∧ (setRegion s r x).lost = s.lost ∧
    (setRegion s r x).staged = s.staged ∧ (setRegion s r x).commit = s.commit ∧ (setRegion s r x).mem = s.mem ∧
    (setRegion s r x).upsets = s.upsets ∧ (setRegion s r x).halfLatch = s.halfLatch ∧
    (setRegion s r x).hwWrote = s.hwWrote ∧ (setRegion s r x).station = s.station ∧
    (setRegion s r x).dunlin = s.dunlin ∧ (setRegion s r x).inputs = s.inputs ∧
    (setRegion s r x).heron = s.heron ∧ (setRegion s r x).streams = s.streams ∧
    (setRegion s r x).meters = s.meters ∧ (setRegion s r x).coarse = s.coarse ∧
    (setRegion s r x).released = s.released ∧ (setRegion s r x).ports = s.ports ∧
    (setRegion s r x).mdio = s.mdio ∧ (setRegion s r x).classQ = s.classQ ∧
    (setRegion s r x).rxCells = s.rxCells ∧ (setRegion s r x).highWater = s.highWater ∧
    (setRegion s r x).listeners = s.listeners ∧ (setRegion s r x).links = s.links ∧
    (setRegion s r x).vcs = s.vcs ∧ (setRegion s r x).pairs = s.pairs ∧ (setRegion s r x).lanes = s.lanes ∧
    (setRegion s r x).quiet = s.quiet ∧ (setRegion s r x).chans = s.chans ∧ (setRegion s r x).avocet = s.avocet ∧
    (setRegion s r x).hid = s.hid ∧ (setRegion s r x).counters = s.counters ∧ (setRegion s r x).power = s.power ∧
    (setRegion s r x).faults = s.faults ∧ (setRegion s r x).scrubs = s.scrubs ∧
    (setRegion s r x).freeze = s.freeze ∧ (setRegion s r x).readout = s.readout :=
  ⟨rfl, rfl, rfl, rfl, rfl, rfl, rfl, rfl, rfl, rfl, rfl, rfl, rfl, rfl, rfl, rfl, rfl, rfl, rfl, rfl,
    rfl, rfl, rfl, rfl, rfl, rfl, rfl, rfl, rfl, rfl, rfl, rfl, rfl, rfl, rfl, rfl, rfl, rfl, rfl, rfl,
    rfl, rfl, rfl, rfl, rfl, rfl, rfl⟩

@[simp] theorem setPair_fields {j v : Nat} {x : PairSt} :
    (setPair s j v x).pending = s.pending ∧ (setPair s j v x).now = s.now ∧ (setPair s j v x).free = s.free ∧
    (setPair s j v x).frameIds = s.frameIds ∧ (setPair s j v x).out = s.out ∧
    (setPair s j v x).supply = s.supply ∧ (setPair s j v x).straps = s.straps ∧
    (setPair s j v x).ladder = s.ladder ∧ (setPair s j v x).boot = s.boot ∧ (setPair s j v x).otp = s.otp ∧
    (setPair s j v x).fuses = s.fuses ∧ (setPair s j v x).tables = s.tables ∧ (setPair s j v x).lost = s.lost ∧
    (setPair s j v x).staged = s.staged ∧ (setPair s j v x).commit = s.commit ∧ (setPair s j v x).mem = s.mem ∧
    (setPair s j v x).upsets = s.upsets ∧ (setPair s j v x).halfLatch = s.halfLatch ∧
    (setPair s j v x).hwWrote = s.hwWrote ∧ (setPair s j v x).station = s.station ∧
    (setPair s j v x).regions = s.regions ∧ (setPair s j v x).dunlin = s.dunlin ∧
    (setPair s j v x).inputs = s.inputs ∧ (setPair s j v x).heron = s.heron ∧
    (setPair s j v x).streams = s.streams ∧ (setPair s j v x).meters = s.meters ∧
    (setPair s j v x).coarse = s.coarse ∧ (setPair s j v x).released = s.released ∧
    (setPair s j v x).ports = s.ports ∧ (setPair s j v x).mdio = s.mdio ∧ (setPair s j v x).classQ = s.classQ ∧
    (setPair s j v x).rxCells = s.rxCells ∧ (setPair s j v x).highWater = s.highWater ∧
    (setPair s j v x).listeners = s.listeners ∧ (setPair s j v x).links = s.links ∧
    (setPair s j v x).vcs = s.vcs ∧ (setPair s j v x).lanes = s.lanes ∧ (setPair s j v x).quiet = s.quiet ∧
    (setPair s j v x).chans = s.chans ∧ (setPair s j v x).avocet = s.avocet ∧ (setPair s j v x).hid = s.hid ∧
    (setPair s j v x).counters = s.counters ∧ (setPair s j v x).power = s.power ∧
    (setPair s j v x).faults = s.faults ∧ (setPair s j v x).scrubs = s.scrubs ∧
    (setPair s j v x).freeze = s.freeze ∧ (setPair s j v x).readout = s.readout :=
  ⟨rfl, rfl, rfl, rfl, rfl, rfl, rfl, rfl, rfl, rfl, rfl, rfl, rfl, rfl, rfl, rfl, rfl, rfl, rfl, rfl,
    rfl, rfl, rfl, rfl, rfl, rfl, rfl, rfl, rfl, rfl, rfl, rfl, rfl, rfl, rfl, rfl, rfl, rfl, rfl, rfl,
    rfl, rfl, rfl, rfl, rfl, rfl, rfl⟩

@[simp] theorem setInput_fields {i : Nat} {x : TimeInput} :
    (setInput s i x).pending = s.pending ∧ (setInput s i x).now = s.now ∧ (setInput s i x).free = s.free ∧
    (setInput s i x).frameIds = s.frameIds ∧ (setInput s i x).out = s.out ∧ (setInput s i x).supply = s.supply ∧
    (setInput s i x).straps = s.straps ∧ (setInput s i x).ladder = s.ladder ∧ (setInput s i x).boot = s.boot ∧
    (setInput s i x).otp = s.otp ∧ (setInput s i x).fuses = s.fuses ∧ (setInput s i x).tables = s.tables ∧
    (setInput s i x).lost = s.lost ∧ (setInput s i x).staged = s.staged ∧ (setInput s i x).commit = s.commit ∧
    (setInput s i x).mem = s.mem ∧ (setInput s i x).upsets = s.upsets ∧
    (setInput s i x).halfLatch = s.halfLatch ∧ (setInput s i x).hwWrote = s.hwWrote ∧
    (setInput s i x).station = s.station ∧ (setInput s i x).regions = s.regions ∧
    (setInput s i x).dunlin = s.dunlin ∧ (setInput s i x).heron = s.heron ∧
    (setInput s i x).streams = s.streams ∧ (setInput s i x).meters = s.meters ∧
    (setInput s i x).coarse = s.coarse ∧ (setInput s i x).released = s.released ∧
    (setInput s i x).ports = s.ports ∧ (setInput s i x).mdio = s.mdio ∧ (setInput s i x).classQ = s.classQ ∧
    (setInput s i x).rxCells = s.rxCells ∧ (setInput s i x).highWater = s.highWater ∧
    (setInput s i x).listeners = s.listeners ∧ (setInput s i x).links = s.links ∧ (setInput s i x).vcs = s.vcs ∧
    (setInput s i x).pairs = s.pairs ∧ (setInput s i x).lanes = s.lanes ∧ (setInput s i x).quiet = s.quiet ∧
    (setInput s i x).chans = s.chans ∧ (setInput s i x).avocet = s.avocet ∧ (setInput s i x).hid = s.hid ∧
    (setInput s i x).counters = s.counters ∧ (setInput s i x).power = s.power ∧
    (setInput s i x).faults = s.faults ∧ (setInput s i x).scrubs = s.scrubs ∧
    (setInput s i x).freeze = s.freeze ∧ (setInput s i x).readout = s.readout :=
  ⟨rfl, rfl, rfl, rfl, rfl, rfl, rfl, rfl, rfl, rfl, rfl, rfl, rfl, rfl, rfl, rfl, rfl, rfl, rfl, rfl,
    rfl, rfl, rfl, rfl, rfl, rfl, rfl, rfl, rfl, rfl, rfl, rfl, rfl, rfl, rfl, rfl, rfl, rfl, rfl, rfl,
    rfl, rfl, rfl, rfl, rfl, rfl, rfl⟩

@[simp] theorem setClassQueue_fields {p c : Nat} {x : List Frame} :
    (setClassQueue s p c x).pending = s.pending ∧ (setClassQueue s p c x).now = s.now ∧
    (setClassQueue s p c x).free = s.free ∧ (setClassQueue s p c x).frameIds = s.frameIds ∧
    (setClassQueue s p c x).out = s.out ∧ (setClassQueue s p c x).supply = s.supply ∧
    (setClassQueue s p c x).straps = s.straps ∧ (setClassQueue s p c x).ladder = s.ladder ∧
    (setClassQueue s p c x).boot = s.boot ∧ (setClassQueue s p c x).otp = s.otp ∧
    (setClassQueue s p c x).fuses = s.fuses ∧ (setClassQueue s p c x).tables = s.tables ∧
    (setClassQueue s p c x).lost = s.lost ∧ (setClassQueue s p c x).staged = s.staged ∧
    (setClassQueue s p c x).commit = s.commit ∧ (setClassQueue s p c x).mem = s.mem ∧
    (setClassQueue s p c x).upsets = s.upsets ∧ (setClassQueue s p c x).halfLatch = s.halfLatch ∧
    (setClassQueue s p c x).hwWrote = s.hwWrote ∧ (setClassQueue s p c x).station = s.station ∧
    (setClassQueue s p c x).regions = s.regions ∧ (setClassQueue s p c x).dunlin = s.dunlin ∧
    (setClassQueue s p c x).inputs = s.inputs ∧ (setClassQueue s p c x).heron = s.heron ∧
    (setClassQueue s p c x).streams = s.streams ∧ (setClassQueue s p c x).meters = s.meters ∧
    (setClassQueue s p c x).coarse = s.coarse ∧ (setClassQueue s p c x).released = s.released ∧
    (setClassQueue s p c x).ports = s.ports ∧ (setClassQueue s p c x).mdio = s.mdio ∧
    (setClassQueue s p c x).rxCells = s.rxCells ∧ (setClassQueue s p c x).highWater = s.highWater ∧
    (setClassQueue s p c x).listeners = s.listeners ∧ (setClassQueue s p c x).links = s.links ∧
    (setClassQueue s p c x).vcs = s.vcs ∧ (setClassQueue s p c x).pairs = s.pairs ∧
    (setClassQueue s p c x).lanes = s.lanes ∧ (setClassQueue s p c x).quiet = s.quiet ∧
    (setClassQueue s p c x).chans = s.chans ∧ (setClassQueue s p c x).avocet = s.avocet ∧
    (setClassQueue s p c x).hid = s.hid ∧ (setClassQueue s p c x).counters = s.counters ∧
    (setClassQueue s p c x).power = s.power ∧ (setClassQueue s p c x).faults = s.faults ∧
    (setClassQueue s p c x).scrubs = s.scrubs ∧ (setClassQueue s p c x).freeze = s.freeze ∧
    (setClassQueue s p c x).readout = s.readout :=
  ⟨rfl, rfl, rfl, rfl, rfl, rfl, rfl, rfl, rfl, rfl, rfl, rfl, rfl, rfl, rfl, rfl, rfl, rfl, rfl, rfl,
    rfl, rfl, rfl, rfl, rfl, rfl, rfl, rfl, rfl, rfl, rfl, rfl, rfl, rfl, rfl, rfl, rfl, rfl, rfl, rfl,
    rfl, rfl, rfl, rfl, rfl, rfl, rfl⟩

@[simp] theorem emit_fields {e : Emission} :
    (emit e s).pending = s.pending ∧ (emit e s).now = s.now ∧ (emit e s).free = s.free ∧
    (emit e s).frameIds = s.frameIds ∧ (emit e s).supply = s.supply ∧ (emit e s).straps = s.straps ∧
    (emit e s).ladder = s.ladder ∧ (emit e s).boot = s.boot ∧ (emit e s).otp = s.otp ∧
    (emit e s).fuses = s.fuses ∧ (emit e s).tables = s.tables ∧ (emit e s).lost = s.lost ∧
    (emit e s).staged = s.staged ∧ (emit e s).commit = s.commit ∧ (emit e s).mem = s.mem ∧
    (emit e s).upsets = s.upsets ∧ (emit e s).halfLatch = s.halfLatch ∧ (emit e s).hwWrote = s.hwWrote ∧
    (emit e s).station = s.station ∧ (emit e s).regions = s.regions ∧ (emit e s).dunlin = s.dunlin ∧
    (emit e s).inputs = s.inputs ∧ (emit e s).heron = s.heron ∧ (emit e s).streams = s.streams ∧
    (emit e s).meters = s.meters ∧ (emit e s).coarse = s.coarse ∧ (emit e s).released = s.released ∧
    (emit e s).ports = s.ports ∧ (emit e s).mdio = s.mdio ∧ (emit e s).classQ = s.classQ ∧
    (emit e s).rxCells = s.rxCells ∧ (emit e s).highWater = s.highWater ∧ (emit e s).listeners = s.listeners ∧
    (emit e s).links = s.links ∧ (emit e s).vcs = s.vcs ∧ (emit e s).pairs = s.pairs ∧
    (emit e s).lanes = s.lanes ∧ (emit e s).quiet = s.quiet ∧ (emit e s).chans = s.chans ∧
    (emit e s).avocet = s.avocet ∧ (emit e s).hid = s.hid ∧ (emit e s).counters = s.counters ∧
    (emit e s).power = s.power ∧ (emit e s).faults = s.faults ∧ (emit e s).scrubs = s.scrubs ∧
    (emit e s).freeze = s.freeze ∧ (emit e s).readout = s.readout :=
  ⟨rfl, rfl, rfl, rfl, rfl, rfl, rfl, rfl, rfl, rfl, rfl, rfl, rfl, rfl, rfl, rfl, rfl, rfl, rfl, rfl,
    rfl, rfl, rfl, rfl, rfl, rfl, rfl, rfl, rfl, rfl, rfl, rfl, rfl, rfl, rfl, rfl, rfl, rfl, rfl, rfl,
    rfl, rfl, rfl, rfl, rfl, rfl, rfl⟩

@[simp] theorem drawFree_fields :
    (drawFree s).pending = s.pending ∧ (drawFree s).now = s.now ∧ (drawFree s).frameIds = s.frameIds ∧
    (drawFree s).out = s.out ∧ (drawFree s).supply = s.supply ∧ (drawFree s).straps = s.straps ∧
    (drawFree s).ladder = s.ladder ∧ (drawFree s).boot = s.boot ∧ (drawFree s).otp = s.otp ∧
    (drawFree s).fuses = s.fuses ∧ (drawFree s).tables = s.tables ∧ (drawFree s).lost = s.lost ∧
    (drawFree s).staged = s.staged ∧ (drawFree s).commit = s.commit ∧ (drawFree s).mem = s.mem ∧
    (drawFree s).upsets = s.upsets ∧ (drawFree s).halfLatch = s.halfLatch ∧ (drawFree s).hwWrote = s.hwWrote ∧
    (drawFree s).station = s.station ∧ (drawFree s).regions = s.regions ∧ (drawFree s).dunlin = s.dunlin ∧
    (drawFree s).inputs = s.inputs ∧ (drawFree s).heron = s.heron ∧ (drawFree s).streams = s.streams ∧
    (drawFree s).meters = s.meters ∧ (drawFree s).coarse = s.coarse ∧ (drawFree s).released = s.released ∧
    (drawFree s).ports = s.ports ∧ (drawFree s).mdio = s.mdio ∧ (drawFree s).classQ = s.classQ ∧
    (drawFree s).rxCells = s.rxCells ∧ (drawFree s).highWater = s.highWater ∧
    (drawFree s).listeners = s.listeners ∧ (drawFree s).links = s.links ∧ (drawFree s).vcs = s.vcs ∧
    (drawFree s).pairs = s.pairs ∧ (drawFree s).lanes = s.lanes ∧ (drawFree s).quiet = s.quiet ∧
    (drawFree s).chans = s.chans ∧ (drawFree s).avocet = s.avocet ∧ (drawFree s).hid = s.hid ∧
    (drawFree s).counters = s.counters ∧ (drawFree s).power = s.power ∧ (drawFree s).faults = s.faults ∧
    (drawFree s).scrubs = s.scrubs ∧ (drawFree s).freeze = s.freeze ∧ (drawFree s).readout = s.readout :=
  ⟨rfl, rfl, rfl, rfl, rfl, rfl, rfl, rfl, rfl, rfl, rfl, rfl, rfl, rfl, rfl, rfl, rfl, rfl, rfl, rfl,
    rfl, rfl, rfl, rfl, rfl, rfl, rfl, rfl, rfl, rfl, rfl, rfl, rfl, rfl, rfl, rfl, rfl, rfl, rfl, rfl,
    rfl, rfl, rfl, rfl, rfl, rfl, rfl⟩

@[simp] theorem bumpBy_fields {c i n k : Nat} :
    (bumpBy c i n k s).pending = s.pending ∧ (bumpBy c i n k s).now = s.now ∧ (bumpBy c i n k s).free = s.free ∧
    (bumpBy c i n k s).frameIds = s.frameIds ∧ (bumpBy c i n k s).out = s.out ∧
    (bumpBy c i n k s).supply = s.supply ∧ (bumpBy c i n k s).straps = s.straps ∧
    (bumpBy c i n k s).ladder = s.ladder ∧ (bumpBy c i n k s).boot = s.boot ∧ (bumpBy c i n k s).otp = s.otp ∧
    (bumpBy c i n k s).fuses = s.fuses ∧ (bumpBy c i n k s).tables = s.tables ∧
    (bumpBy c i n k s).lost = s.lost ∧ (bumpBy c i n k s).staged = s.staged ∧
    (bumpBy c i n k s).commit = s.commit ∧ (bumpBy c i n k s).mem = s.mem ∧
    (bumpBy c i n k s).upsets = s.upsets ∧ (bumpBy c i n k s).halfLatch = s.halfLatch ∧
    (bumpBy c i n k s).hwWrote = s.hwWrote ∧ (bumpBy c i n k s).station = s.station ∧
    (bumpBy c i n k s).regions = s.regions ∧ (bumpBy c i n k s).dunlin = s.dunlin ∧
    (bumpBy c i n k s).inputs = s.inputs ∧ (bumpBy c i n k s).heron = s.heron ∧
    (bumpBy c i n k s).streams = s.streams ∧ (bumpBy c i n k s).meters = s.meters ∧
    (bumpBy c i n k s).coarse = s.coarse ∧ (bumpBy c i n k s).released = s.released ∧
    (bumpBy c i n k s).ports = s.ports ∧ (bumpBy c i n k s).mdio = s.mdio ∧
    (bumpBy c i n k s).classQ = s.classQ ∧ (bumpBy c i n k s).rxCells = s.rxCells ∧
    (bumpBy c i n k s).highWater = s.highWater ∧ (bumpBy c i n k s).listeners = s.listeners ∧
    (bumpBy c i n k s).links = s.links ∧ (bumpBy c i n k s).vcs = s.vcs ∧ (bumpBy c i n k s).pairs = s.pairs ∧
    (bumpBy c i n k s).lanes = s.lanes ∧ (bumpBy c i n k s).quiet = s.quiet ∧
    (bumpBy c i n k s).chans = s.chans ∧ (bumpBy c i n k s).avocet = s.avocet ∧ (bumpBy c i n k s).hid = s.hid ∧
    (bumpBy c i n k s).power = s.power ∧ (bumpBy c i n k s).faults = s.faults ∧
    (bumpBy c i n k s).scrubs = s.scrubs ∧ (bumpBy c i n k s).freeze = s.freeze ∧
    (bumpBy c i n k s).readout = s.readout :=
  ⟨rfl, rfl, rfl, rfl, rfl, rfl, rfl, rfl, rfl, rfl, rfl, rfl, rfl, rfl, rfl, rfl, rfl, rfl, rfl, rfl,
    rfl, rfl, rfl, rfl, rfl, rfl, rfl, rfl, rfl, rfl, rfl, rfl, rfl, rfl, rfl, rfl, rfl, rfl, rfl, rfl,
    rfl, rfl, rfl, rfl, rfl, rfl, rfl⟩

@[simp] theorem bump_fields {c i n : Nat} :
    (bump c i n s).pending = s.pending ∧ (bump c i n s).now = s.now ∧ (bump c i n s).free = s.free ∧
    (bump c i n s).frameIds = s.frameIds ∧ (bump c i n s).out = s.out ∧ (bump c i n s).supply = s.supply ∧
    (bump c i n s).straps = s.straps ∧ (bump c i n s).ladder = s.ladder ∧ (bump c i n s).boot = s.boot ∧
    (bump c i n s).otp = s.otp ∧ (bump c i n s).fuses = s.fuses ∧ (bump c i n s).tables = s.tables ∧
    (bump c i n s).lost = s.lost ∧ (bump c i n s).staged = s.staged ∧ (bump c i n s).commit = s.commit ∧
    (bump c i n s).mem = s.mem ∧ (bump c i n s).upsets = s.upsets ∧ (bump c i n s).halfLatch = s.halfLatch ∧
    (bump c i n s).hwWrote = s.hwWrote ∧ (bump c i n s).station = s.station ∧
    (bump c i n s).regions = s.regions ∧ (bump c i n s).dunlin = s.dunlin ∧ (bump c i n s).inputs = s.inputs ∧
    (bump c i n s).heron = s.heron ∧ (bump c i n s).streams = s.streams ∧ (bump c i n s).meters = s.meters ∧
    (bump c i n s).coarse = s.coarse ∧ (bump c i n s).released = s.released ∧ (bump c i n s).ports = s.ports ∧
    (bump c i n s).mdio = s.mdio ∧ (bump c i n s).classQ = s.classQ ∧ (bump c i n s).rxCells = s.rxCells ∧
    (bump c i n s).highWater = s.highWater ∧ (bump c i n s).listeners = s.listeners ∧
    (bump c i n s).links = s.links ∧ (bump c i n s).vcs = s.vcs ∧ (bump c i n s).pairs = s.pairs ∧
    (bump c i n s).lanes = s.lanes ∧ (bump c i n s).quiet = s.quiet ∧ (bump c i n s).chans = s.chans ∧
    (bump c i n s).avocet = s.avocet ∧ (bump c i n s).hid = s.hid ∧ (bump c i n s).power = s.power ∧
    (bump c i n s).faults = s.faults ∧ (bump c i n s).scrubs = s.scrubs ∧ (bump c i n s).freeze = s.freeze ∧
    (bump c i n s).readout = s.readout :=
  ⟨rfl, rfl, rfl, rfl, rfl, rfl, rfl, rfl, rfl, rfl, rfl, rfl, rfl, rfl, rfl, rfl, rfl, rfl, rfl, rfl,
    rfl, rfl, rfl, rfl, rfl, rfl, rfl, rfl, rfl, rfl, rfl, rfl, rfl, rfl, rfl, rfl, rfl, rfl, rfl, rfl,
    rfl, rfl, rfl, rfl, rfl, rfl, rfl⟩

@[simp] theorem bumpDev_fields {n : Nat} :
    (bumpDev n s).pending = s.pending ∧ (bumpDev n s).now = s.now ∧ (bumpDev n s).free = s.free ∧
    (bumpDev n s).frameIds = s.frameIds ∧ (bumpDev n s).out = s.out ∧ (bumpDev n s).supply = s.supply ∧
    (bumpDev n s).straps = s.straps ∧ (bumpDev n s).ladder = s.ladder ∧ (bumpDev n s).boot = s.boot ∧
    (bumpDev n s).otp = s.otp ∧ (bumpDev n s).fuses = s.fuses ∧ (bumpDev n s).tables = s.tables ∧
    (bumpDev n s).lost = s.lost ∧ (bumpDev n s).staged = s.staged ∧ (bumpDev n s).commit = s.commit ∧
    (bumpDev n s).mem = s.mem ∧ (bumpDev n s).upsets = s.upsets ∧ (bumpDev n s).halfLatch = s.halfLatch ∧
    (bumpDev n s).hwWrote = s.hwWrote ∧ (bumpDev n s).station = s.station ∧ (bumpDev n s).regions = s.regions ∧
    (bumpDev n s).dunlin = s.dunlin ∧ (bumpDev n s).inputs = s.inputs ∧ (bumpDev n s).heron = s.heron ∧
    (bumpDev n s).streams = s.streams ∧ (bumpDev n s).meters = s.meters ∧ (bumpDev n s).coarse = s.coarse ∧
    (bumpDev n s).released = s.released ∧ (bumpDev n s).ports = s.ports ∧ (bumpDev n s).mdio = s.mdio ∧
    (bumpDev n s).classQ = s.classQ ∧ (bumpDev n s).rxCells = s.rxCells ∧ (bumpDev n s).highWater = s.highWater ∧
    (bumpDev n s).listeners = s.listeners ∧ (bumpDev n s).links = s.links ∧ (bumpDev n s).vcs = s.vcs ∧
    (bumpDev n s).pairs = s.pairs ∧ (bumpDev n s).lanes = s.lanes ∧ (bumpDev n s).quiet = s.quiet ∧
    (bumpDev n s).chans = s.chans ∧ (bumpDev n s).avocet = s.avocet ∧ (bumpDev n s).hid = s.hid ∧
    (bumpDev n s).power = s.power ∧ (bumpDev n s).faults = s.faults ∧ (bumpDev n s).scrubs = s.scrubs ∧
    (bumpDev n s).freeze = s.freeze ∧ (bumpDev n s).readout = s.readout :=
  ⟨rfl, rfl, rfl, rfl, rfl, rfl, rfl, rfl, rfl, rfl, rfl, rfl, rfl, rfl, rfl, rfl, rfl, rfl, rfl, rfl,
    rfl, rfl, rfl, rfl, rfl, rfl, rfl, rfl, rfl, rfl, rfl, rfl, rfl, rfl, rfl, rfl, rfl, rfl, rfl, rfl,
    rfl, rfl, rfl, rfl, rfl, rfl, rfl⟩

@[simp] theorem bumpPort_fields {p n : Nat} :
    (bumpPort p n s).pending = s.pending ∧ (bumpPort p n s).now = s.now ∧ (bumpPort p n s).free = s.free ∧
    (bumpPort p n s).frameIds = s.frameIds ∧ (bumpPort p n s).out = s.out ∧ (bumpPort p n s).supply = s.supply ∧
    (bumpPort p n s).straps = s.straps ∧ (bumpPort p n s).ladder = s.ladder ∧ (bumpPort p n s).boot = s.boot ∧
    (bumpPort p n s).otp = s.otp ∧ (bumpPort p n s).fuses = s.fuses ∧ (bumpPort p n s).tables = s.tables ∧
    (bumpPort p n s).lost = s.lost ∧ (bumpPort p n s).staged = s.staged ∧ (bumpPort p n s).commit = s.commit ∧
    (bumpPort p n s).mem = s.mem ∧ (bumpPort p n s).upsets = s.upsets ∧
    (bumpPort p n s).halfLatch = s.halfLatch ∧ (bumpPort p n s).hwWrote = s.hwWrote ∧
    (bumpPort p n s).station = s.station ∧ (bumpPort p n s).regions = s.regions ∧
    (bumpPort p n s).dunlin = s.dunlin ∧ (bumpPort p n s).inputs = s.inputs ∧ (bumpPort p n s).heron = s.heron ∧
    (bumpPort p n s).streams = s.streams ∧ (bumpPort p n s).meters = s.meters ∧
    (bumpPort p n s).coarse = s.coarse ∧ (bumpPort p n s).released = s.released ∧
    (bumpPort p n s).ports = s.ports ∧ (bumpPort p n s).mdio = s.mdio ∧ (bumpPort p n s).classQ = s.classQ ∧
    (bumpPort p n s).rxCells = s.rxCells ∧ (bumpPort p n s).highWater = s.highWater ∧
    (bumpPort p n s).listeners = s.listeners ∧ (bumpPort p n s).links = s.links ∧ (bumpPort p n s).vcs = s.vcs ∧
    (bumpPort p n s).pairs = s.pairs ∧ (bumpPort p n s).lanes = s.lanes ∧ (bumpPort p n s).quiet = s.quiet ∧
    (bumpPort p n s).chans = s.chans ∧ (bumpPort p n s).avocet = s.avocet ∧ (bumpPort p n s).hid = s.hid ∧
    (bumpPort p n s).power = s.power ∧ (bumpPort p n s).faults = s.faults ∧ (bumpPort p n s).scrubs = s.scrubs ∧
    (bumpPort p n s).freeze = s.freeze ∧ (bumpPort p n s).readout = s.readout :=
  ⟨rfl, rfl, rfl, rfl, rfl, rfl, rfl, rfl, rfl, rfl, rfl, rfl, rfl, rfl, rfl, rfl, rfl, rfl, rfl, rfl,
    rfl, rfl, rfl, rfl, rfl, rfl, rfl, rfl, rfl, rfl, rfl, rfl, rfl, rfl, rfl, rfl, rfl, rfl, rfl, rfl,
    rfl, rfl, rfl, rfl, rfl, rfl, rfl⟩

@[simp] theorem bumpClass_fields {p c n : Nat} :
    (bumpClass p c n s).pending = s.pending ∧ (bumpClass p c n s).now = s.now ∧
    (bumpClass p c n s).free = s.free ∧ (bumpClass p c n s).frameIds = s.frameIds ∧
    (bumpClass p c n s).out = s.out ∧ (bumpClass p c n s).supply = s.supply ∧
    (bumpClass p c n s).straps = s.straps ∧ (bumpClass p c n s).ladder = s.ladder ∧
    (bumpClass p c n s).boot = s.boot ∧ (bumpClass p c n s).otp = s.otp ∧ (bumpClass p c n s).fuses = s.fuses ∧
    (bumpClass p c n s).tables = s.tables ∧ (bumpClass p c n s).lost = s.lost ∧
    (bumpClass p c n s).staged = s.staged ∧ (bumpClass p c n s).commit = s.commit ∧
    (bumpClass p c n s).mem = s.mem ∧ (bumpClass p c n s).upsets = s.upsets ∧
    (bumpClass p c n s).halfLatch = s.halfLatch ∧ (bumpClass p c n s).hwWrote = s.hwWrote ∧
    (bumpClass p c n s).station = s.station ∧ (bumpClass p c n s).regions = s.regions ∧
    (bumpClass p c n s).dunlin = s.dunlin ∧ (bumpClass p c n s).inputs = s.inputs ∧
    (bumpClass p c n s).heron = s.heron ∧ (bumpClass p c n s).streams = s.streams ∧
    (bumpClass p c n s).meters = s.meters ∧ (bumpClass p c n s).coarse = s.coarse ∧
    (bumpClass p c n s).released = s.released ∧ (bumpClass p c n s).ports = s.ports ∧
    (bumpClass p c n s).mdio = s.mdio ∧ (bumpClass p c n s).classQ = s.classQ ∧
    (bumpClass p c n s).rxCells = s.rxCells ∧ (bumpClass p c n s).highWater = s.highWater ∧
    (bumpClass p c n s).listeners = s.listeners ∧ (bumpClass p c n s).links = s.links ∧
    (bumpClass p c n s).vcs = s.vcs ∧ (bumpClass p c n s).pairs = s.pairs ∧ (bumpClass p c n s).lanes = s.lanes ∧
    (bumpClass p c n s).quiet = s.quiet ∧ (bumpClass p c n s).chans = s.chans ∧
    (bumpClass p c n s).avocet = s.avocet ∧ (bumpClass p c n s).hid = s.hid ∧
    (bumpClass p c n s).power = s.power ∧ (bumpClass p c n s).faults = s.faults ∧
    (bumpClass p c n s).scrubs = s.scrubs ∧ (bumpClass p c n s).freeze = s.freeze ∧
    (bumpClass p c n s).readout = s.readout :=
  ⟨rfl, rfl, rfl, rfl, rfl, rfl, rfl, rfl, rfl, rfl, rfl, rfl, rfl, rfl, rfl, rfl, rfl, rfl, rfl, rfl,
    rfl, rfl, rfl, rfl, rfl, rfl, rfl, rfl, rfl, rfl, rfl, rfl, rfl, rfl, rfl, rfl, rfl, rfl, rfl, rfl,
    rfl, rfl, rfl, rfl, rfl, rfl, rfl⟩

@[simp] theorem bumpLane_fields {l n : Nat} :
    (bumpLane l n s).pending = s.pending ∧ (bumpLane l n s).now = s.now ∧ (bumpLane l n s).free = s.free ∧
    (bumpLane l n s).frameIds = s.frameIds ∧ (bumpLane l n s).out = s.out ∧ (bumpLane l n s).supply = s.supply ∧
    (bumpLane l n s).straps = s.straps ∧ (bumpLane l n s).ladder = s.ladder ∧ (bumpLane l n s).boot = s.boot ∧
    (bumpLane l n s).otp = s.otp ∧ (bumpLane l n s).fuses = s.fuses ∧ (bumpLane l n s).tables = s.tables ∧
    (bumpLane l n s).lost = s.lost ∧ (bumpLane l n s).staged = s.staged ∧ (bumpLane l n s).commit = s.commit ∧
    (bumpLane l n s).mem = s.mem ∧ (bumpLane l n s).upsets = s.upsets ∧
    (bumpLane l n s).halfLatch = s.halfLatch ∧ (bumpLane l n s).hwWrote = s.hwWrote ∧
    (bumpLane l n s).station = s.station ∧ (bumpLane l n s).regions = s.regions ∧
    (bumpLane l n s).dunlin = s.dunlin ∧ (bumpLane l n s).inputs = s.inputs ∧ (bumpLane l n s).heron = s.heron ∧
    (bumpLane l n s).streams = s.streams ∧ (bumpLane l n s).meters = s.meters ∧
    (bumpLane l n s).coarse = s.coarse ∧ (bumpLane l n s).released = s.released ∧
    (bumpLane l n s).ports = s.ports ∧ (bumpLane l n s).mdio = s.mdio ∧ (bumpLane l n s).classQ = s.classQ ∧
    (bumpLane l n s).rxCells = s.rxCells ∧ (bumpLane l n s).highWater = s.highWater ∧
    (bumpLane l n s).listeners = s.listeners ∧ (bumpLane l n s).links = s.links ∧ (bumpLane l n s).vcs = s.vcs ∧
    (bumpLane l n s).pairs = s.pairs ∧ (bumpLane l n s).lanes = s.lanes ∧ (bumpLane l n s).quiet = s.quiet ∧
    (bumpLane l n s).chans = s.chans ∧ (bumpLane l n s).avocet = s.avocet ∧ (bumpLane l n s).hid = s.hid ∧
    (bumpLane l n s).power = s.power ∧ (bumpLane l n s).faults = s.faults ∧ (bumpLane l n s).scrubs = s.scrubs ∧
    (bumpLane l n s).freeze = s.freeze ∧ (bumpLane l n s).readout = s.readout :=
  ⟨rfl, rfl, rfl, rfl, rfl, rfl, rfl, rfl, rfl, rfl, rfl, rfl, rfl, rfl, rfl, rfl, rfl, rfl, rfl, rfl,
    rfl, rfl, rfl, rfl, rfl, rfl, rfl, rfl, rfl, rfl, rfl, rfl, rfl, rfl, rfl, rfl, rfl, rfl, rfl, rfl,
    rfl, rfl, rfl, rfl, rfl, rfl, rfl⟩

@[simp] theorem bumpLink_fields {k n : Nat} :
    (bumpLink k n s).pending = s.pending ∧ (bumpLink k n s).now = s.now ∧ (bumpLink k n s).free = s.free ∧
    (bumpLink k n s).frameIds = s.frameIds ∧ (bumpLink k n s).out = s.out ∧ (bumpLink k n s).supply = s.supply ∧
    (bumpLink k n s).straps = s.straps ∧ (bumpLink k n s).ladder = s.ladder ∧ (bumpLink k n s).boot = s.boot ∧
    (bumpLink k n s).otp = s.otp ∧ (bumpLink k n s).fuses = s.fuses ∧ (bumpLink k n s).tables = s.tables ∧
    (bumpLink k n s).lost = s.lost ∧ (bumpLink k n s).staged = s.staged ∧ (bumpLink k n s).commit = s.commit ∧
    (bumpLink k n s).mem = s.mem ∧ (bumpLink k n s).upsets = s.upsets ∧
    (bumpLink k n s).halfLatch = s.halfLatch ∧ (bumpLink k n s).hwWrote = s.hwWrote ∧
    (bumpLink k n s).station = s.station ∧ (bumpLink k n s).regions = s.regions ∧
    (bumpLink k n s).dunlin = s.dunlin ∧ (bumpLink k n s).inputs = s.inputs ∧ (bumpLink k n s).heron = s.heron ∧
    (bumpLink k n s).streams = s.streams ∧ (bumpLink k n s).meters = s.meters ∧
    (bumpLink k n s).coarse = s.coarse ∧ (bumpLink k n s).released = s.released ∧
    (bumpLink k n s).ports = s.ports ∧ (bumpLink k n s).mdio = s.mdio ∧ (bumpLink k n s).classQ = s.classQ ∧
    (bumpLink k n s).rxCells = s.rxCells ∧ (bumpLink k n s).highWater = s.highWater ∧
    (bumpLink k n s).listeners = s.listeners ∧ (bumpLink k n s).links = s.links ∧ (bumpLink k n s).vcs = s.vcs ∧
    (bumpLink k n s).pairs = s.pairs ∧ (bumpLink k n s).lanes = s.lanes ∧ (bumpLink k n s).quiet = s.quiet ∧
    (bumpLink k n s).chans = s.chans ∧ (bumpLink k n s).avocet = s.avocet ∧ (bumpLink k n s).hid = s.hid ∧
    (bumpLink k n s).power = s.power ∧ (bumpLink k n s).faults = s.faults ∧ (bumpLink k n s).scrubs = s.scrubs ∧
    (bumpLink k n s).freeze = s.freeze ∧ (bumpLink k n s).readout = s.readout :=
  ⟨rfl, rfl, rfl, rfl, rfl, rfl, rfl, rfl, rfl, rfl, rfl, rfl, rfl, rfl, rfl, rfl, rfl, rfl, rfl, rfl,
    rfl, rfl, rfl, rfl, rfl, rfl, rfl, rfl, rfl, rfl, rfl, rfl, rfl, rfl, rfl, rfl, rfl, rfl, rfl, rfl,
    rfl, rfl, rfl, rfl, rfl, rfl, rfl⟩

@[simp] theorem bumpVc_fields {k v n : Nat} :
    (bumpVc k v n s).pending = s.pending ∧ (bumpVc k v n s).now = s.now ∧ (bumpVc k v n s).free = s.free ∧
    (bumpVc k v n s).frameIds = s.frameIds ∧ (bumpVc k v n s).out = s.out ∧ (bumpVc k v n s).supply = s.supply ∧
    (bumpVc k v n s).straps = s.straps ∧ (bumpVc k v n s).ladder = s.ladder ∧ (bumpVc k v n s).boot = s.boot ∧
    (bumpVc k v n s).otp = s.otp ∧ (bumpVc k v n s).fuses = s.fuses ∧ (bumpVc k v n s).tables = s.tables ∧
    (bumpVc k v n s).lost = s.lost ∧ (bumpVc k v n s).staged = s.staged ∧ (bumpVc k v n s).commit = s.commit ∧
    (bumpVc k v n s).mem = s.mem ∧ (bumpVc k v n s).upsets = s.upsets ∧
    (bumpVc k v n s).halfLatch = s.halfLatch ∧ (bumpVc k v n s).hwWrote = s.hwWrote ∧
    (bumpVc k v n s).station = s.station ∧ (bumpVc k v n s).regions = s.regions ∧
    (bumpVc k v n s).dunlin = s.dunlin ∧ (bumpVc k v n s).inputs = s.inputs ∧ (bumpVc k v n s).heron = s.heron ∧
    (bumpVc k v n s).streams = s.streams ∧ (bumpVc k v n s).meters = s.meters ∧
    (bumpVc k v n s).coarse = s.coarse ∧ (bumpVc k v n s).released = s.released ∧
    (bumpVc k v n s).ports = s.ports ∧ (bumpVc k v n s).mdio = s.mdio ∧ (bumpVc k v n s).classQ = s.classQ ∧
    (bumpVc k v n s).rxCells = s.rxCells ∧ (bumpVc k v n s).highWater = s.highWater ∧
    (bumpVc k v n s).listeners = s.listeners ∧ (bumpVc k v n s).links = s.links ∧ (bumpVc k v n s).vcs = s.vcs ∧
    (bumpVc k v n s).pairs = s.pairs ∧ (bumpVc k v n s).lanes = s.lanes ∧ (bumpVc k v n s).quiet = s.quiet ∧
    (bumpVc k v n s).chans = s.chans ∧ (bumpVc k v n s).avocet = s.avocet ∧ (bumpVc k v n s).hid = s.hid ∧
    (bumpVc k v n s).power = s.power ∧ (bumpVc k v n s).faults = s.faults ∧ (bumpVc k v n s).scrubs = s.scrubs ∧
    (bumpVc k v n s).freeze = s.freeze ∧ (bumpVc k v n s).readout = s.readout :=
  ⟨rfl, rfl, rfl, rfl, rfl, rfl, rfl, rfl, rfl, rfl, rfl, rfl, rfl, rfl, rfl, rfl, rfl, rfl, rfl, rfl,
    rfl, rfl, rfl, rfl, rfl, rfl, rfl, rfl, rfl, rfl, rfl, rfl, rfl, rfl, rfl, rfl, rfl, rfl, rfl, rfl,
    rfl, rfl, rfl, rfl, rfl, rfl, rfl⟩

@[simp] theorem bumpPair_fields {j v n : Nat} :
    (bumpPair j v n s).pending = s.pending ∧ (bumpPair j v n s).now = s.now ∧ (bumpPair j v n s).free = s.free ∧
    (bumpPair j v n s).frameIds = s.frameIds ∧ (bumpPair j v n s).out = s.out ∧
    (bumpPair j v n s).supply = s.supply ∧ (bumpPair j v n s).straps = s.straps ∧
    (bumpPair j v n s).ladder = s.ladder ∧ (bumpPair j v n s).boot = s.boot ∧ (bumpPair j v n s).otp = s.otp ∧
    (bumpPair j v n s).fuses = s.fuses ∧ (bumpPair j v n s).tables = s.tables ∧
    (bumpPair j v n s).lost = s.lost ∧ (bumpPair j v n s).staged = s.staged ∧
    (bumpPair j v n s).commit = s.commit ∧ (bumpPair j v n s).mem = s.mem ∧
    (bumpPair j v n s).upsets = s.upsets ∧ (bumpPair j v n s).halfLatch = s.halfLatch ∧
    (bumpPair j v n s).hwWrote = s.hwWrote ∧ (bumpPair j v n s).station = s.station ∧
    (bumpPair j v n s).regions = s.regions ∧ (bumpPair j v n s).dunlin = s.dunlin ∧
    (bumpPair j v n s).inputs = s.inputs ∧ (bumpPair j v n s).heron = s.heron ∧
    (bumpPair j v n s).streams = s.streams ∧ (bumpPair j v n s).meters = s.meters ∧
    (bumpPair j v n s).coarse = s.coarse ∧ (bumpPair j v n s).released = s.released ∧
    (bumpPair j v n s).ports = s.ports ∧ (bumpPair j v n s).mdio = s.mdio ∧
    (bumpPair j v n s).classQ = s.classQ ∧ (bumpPair j v n s).rxCells = s.rxCells ∧
    (bumpPair j v n s).highWater = s.highWater ∧ (bumpPair j v n s).listeners = s.listeners ∧
    (bumpPair j v n s).links = s.links ∧ (bumpPair j v n s).vcs = s.vcs ∧ (bumpPair j v n s).pairs = s.pairs ∧
    (bumpPair j v n s).lanes = s.lanes ∧ (bumpPair j v n s).quiet = s.quiet ∧
    (bumpPair j v n s).chans = s.chans ∧ (bumpPair j v n s).avocet = s.avocet ∧ (bumpPair j v n s).hid = s.hid ∧
    (bumpPair j v n s).power = s.power ∧ (bumpPair j v n s).faults = s.faults ∧
    (bumpPair j v n s).scrubs = s.scrubs ∧ (bumpPair j v n s).freeze = s.freeze ∧
    (bumpPair j v n s).readout = s.readout :=
  ⟨rfl, rfl, rfl, rfl, rfl, rfl, rfl, rfl, rfl, rfl, rfl, rfl, rfl, rfl, rfl, rfl, rfl, rfl, rfl, rfl,
    rfl, rfl, rfl, rfl, rfl, rfl, rfl, rfl, rfl, rfl, rfl, rfl, rfl, rfl, rfl, rfl, rfl, rfl, rfl, rfl,
    rfl, rfl, rfl, rfl, rfl, rfl, rfl⟩

@[simp] theorem bumpChan_fields {c n : Nat} :
    (bumpChan c n s).pending = s.pending ∧ (bumpChan c n s).now = s.now ∧ (bumpChan c n s).free = s.free ∧
    (bumpChan c n s).frameIds = s.frameIds ∧ (bumpChan c n s).out = s.out ∧ (bumpChan c n s).supply = s.supply ∧
    (bumpChan c n s).straps = s.straps ∧ (bumpChan c n s).ladder = s.ladder ∧ (bumpChan c n s).boot = s.boot ∧
    (bumpChan c n s).otp = s.otp ∧ (bumpChan c n s).fuses = s.fuses ∧ (bumpChan c n s).tables = s.tables ∧
    (bumpChan c n s).lost = s.lost ∧ (bumpChan c n s).staged = s.staged ∧ (bumpChan c n s).commit = s.commit ∧
    (bumpChan c n s).mem = s.mem ∧ (bumpChan c n s).upsets = s.upsets ∧
    (bumpChan c n s).halfLatch = s.halfLatch ∧ (bumpChan c n s).hwWrote = s.hwWrote ∧
    (bumpChan c n s).station = s.station ∧ (bumpChan c n s).regions = s.regions ∧
    (bumpChan c n s).dunlin = s.dunlin ∧ (bumpChan c n s).inputs = s.inputs ∧ (bumpChan c n s).heron = s.heron ∧
    (bumpChan c n s).streams = s.streams ∧ (bumpChan c n s).meters = s.meters ∧
    (bumpChan c n s).coarse = s.coarse ∧ (bumpChan c n s).released = s.released ∧
    (bumpChan c n s).ports = s.ports ∧ (bumpChan c n s).mdio = s.mdio ∧ (bumpChan c n s).classQ = s.classQ ∧
    (bumpChan c n s).rxCells = s.rxCells ∧ (bumpChan c n s).highWater = s.highWater ∧
    (bumpChan c n s).listeners = s.listeners ∧ (bumpChan c n s).links = s.links ∧ (bumpChan c n s).vcs = s.vcs ∧
    (bumpChan c n s).pairs = s.pairs ∧ (bumpChan c n s).lanes = s.lanes ∧ (bumpChan c n s).quiet = s.quiet ∧
    (bumpChan c n s).chans = s.chans ∧ (bumpChan c n s).avocet = s.avocet ∧ (bumpChan c n s).hid = s.hid ∧
    (bumpChan c n s).power = s.power ∧ (bumpChan c n s).faults = s.faults ∧ (bumpChan c n s).scrubs = s.scrubs ∧
    (bumpChan c n s).freeze = s.freeze ∧ (bumpChan c n s).readout = s.readout :=
  ⟨rfl, rfl, rfl, rfl, rfl, rfl, rfl, rfl, rfl, rfl, rfl, rfl, rfl, rfl, rfl, rfl, rfl, rfl, rfl, rfl,
    rfl, rfl, rfl, rfl, rfl, rfl, rfl, rfl, rfl, rfl, rfl, rfl, rfl, rfl, rfl, rfl, rfl, rfl, rfl, rfl,
    rfl, rfl, rfl, rfl, rfl, rfl, rfl⟩

@[simp] theorem bumpStream_fields {q n : Nat} :
    (bumpStream q n s).pending = s.pending ∧ (bumpStream q n s).now = s.now ∧ (bumpStream q n s).free = s.free ∧
    (bumpStream q n s).frameIds = s.frameIds ∧ (bumpStream q n s).out = s.out ∧
    (bumpStream q n s).supply = s.supply ∧ (bumpStream q n s).straps = s.straps ∧
    (bumpStream q n s).ladder = s.ladder ∧ (bumpStream q n s).boot = s.boot ∧ (bumpStream q n s).otp = s.otp ∧
    (bumpStream q n s).fuses = s.fuses ∧ (bumpStream q n s).tables = s.tables ∧
    (bumpStream q n s).lost = s.lost ∧ (bumpStream q n s).staged = s.staged ∧
    (bumpStream q n s).commit = s.commit ∧ (bumpStream q n s).mem = s.mem ∧
    (bumpStream q n s).upsets = s.upsets ∧ (bumpStream q n s).halfLatch = s.halfLatch ∧
    (bumpStream q n s).hwWrote = s.hwWrote ∧ (bumpStream q n s).station = s.station ∧
    (bumpStream q n s).regions = s.regions ∧ (bumpStream q n s).dunlin = s.dunlin ∧
    (bumpStream q n s).inputs = s.inputs ∧ (bumpStream q n s).heron = s.heron ∧
    (bumpStream q n s).streams = s.streams ∧ (bumpStream q n s).meters = s.meters ∧
    (bumpStream q n s).coarse = s.coarse ∧ (bumpStream q n s).released = s.released ∧
    (bumpStream q n s).ports = s.ports ∧ (bumpStream q n s).mdio = s.mdio ∧
    (bumpStream q n s).classQ = s.classQ ∧ (bumpStream q n s).rxCells = s.rxCells ∧
    (bumpStream q n s).highWater = s.highWater ∧ (bumpStream q n s).listeners = s.listeners ∧
    (bumpStream q n s).links = s.links ∧ (bumpStream q n s).vcs = s.vcs ∧ (bumpStream q n s).pairs = s.pairs ∧
    (bumpStream q n s).lanes = s.lanes ∧ (bumpStream q n s).quiet = s.quiet ∧
    (bumpStream q n s).chans = s.chans ∧ (bumpStream q n s).avocet = s.avocet ∧ (bumpStream q n s).hid = s.hid ∧
    (bumpStream q n s).power = s.power ∧ (bumpStream q n s).faults = s.faults ∧
    (bumpStream q n s).scrubs = s.scrubs ∧ (bumpStream q n s).freeze = s.freeze ∧
    (bumpStream q n s).readout = s.readout :=
  ⟨rfl, rfl, rfl, rfl, rfl, rfl, rfl, rfl, rfl, rfl, rfl, rfl, rfl, rfl, rfl, rfl, rfl, rfl, rfl, rfl,
    rfl, rfl, rfl, rfl, rfl, rfl, rfl, rfl, rfl, rfl, rfl, rfl, rfl, rfl, rfl, rfl, rfl, rfl, rfl, rfl,
    rfl, rfl, rfl, rfl, rfl, rfl, rfl⟩

@[simp] theorem bumpCopy_fields {q p n : Nat} :
    (bumpCopy q p n s).pending = s.pending ∧ (bumpCopy q p n s).now = s.now ∧ (bumpCopy q p n s).free = s.free ∧
    (bumpCopy q p n s).frameIds = s.frameIds ∧ (bumpCopy q p n s).out = s.out ∧
    (bumpCopy q p n s).supply = s.supply ∧ (bumpCopy q p n s).straps = s.straps ∧
    (bumpCopy q p n s).ladder = s.ladder ∧ (bumpCopy q p n s).boot = s.boot ∧ (bumpCopy q p n s).otp = s.otp ∧
    (bumpCopy q p n s).fuses = s.fuses ∧ (bumpCopy q p n s).tables = s.tables ∧
    (bumpCopy q p n s).lost = s.lost ∧ (bumpCopy q p n s).staged = s.staged ∧
    (bumpCopy q p n s).commit = s.commit ∧ (bumpCopy q p n s).mem = s.mem ∧
    (bumpCopy q p n s).upsets = s.upsets ∧ (bumpCopy q p n s).halfLatch = s.halfLatch ∧
    (bumpCopy q p n s).hwWrote = s.hwWrote ∧ (bumpCopy q p n s).station = s.station ∧
    (bumpCopy q p n s).regions = s.regions ∧ (bumpCopy q p n s).dunlin = s.dunlin ∧
    (bumpCopy q p n s).inputs = s.inputs ∧ (bumpCopy q p n s).heron = s.heron ∧
    (bumpCopy q p n s).streams = s.streams ∧ (bumpCopy q p n s).meters = s.meters ∧
    (bumpCopy q p n s).coarse = s.coarse ∧ (bumpCopy q p n s).released = s.released ∧
    (bumpCopy q p n s).ports = s.ports ∧ (bumpCopy q p n s).mdio = s.mdio ∧
    (bumpCopy q p n s).classQ = s.classQ ∧ (bumpCopy q p n s).rxCells = s.rxCells ∧
    (bumpCopy q p n s).highWater = s.highWater ∧ (bumpCopy q p n s).listeners = s.listeners ∧
    (bumpCopy q p n s).links = s.links ∧ (bumpCopy q p n s).vcs = s.vcs ∧ (bumpCopy q p n s).pairs = s.pairs ∧
    (bumpCopy q p n s).lanes = s.lanes ∧ (bumpCopy q p n s).quiet = s.quiet ∧
    (bumpCopy q p n s).chans = s.chans ∧ (bumpCopy q p n s).avocet = s.avocet ∧ (bumpCopy q p n s).hid = s.hid ∧
    (bumpCopy q p n s).power = s.power ∧ (bumpCopy q p n s).faults = s.faults ∧
    (bumpCopy q p n s).scrubs = s.scrubs ∧ (bumpCopy q p n s).freeze = s.freeze ∧
    (bumpCopy q p n s).readout = s.readout :=
  ⟨rfl, rfl, rfl, rfl, rfl, rfl, rfl, rfl, rfl, rfl, rfl, rfl, rfl, rfl, rfl, rfl, rfl, rfl, rfl, rfl,
    rfl, rfl, rfl, rfl, rfl, rfl, rfl, rfl, rfl, rfl, rfl, rfl, rfl, rfl, rfl, rfl, rfl, rfl, rfl, rfl,
    rfl, rfl, rfl, rfl, rfl, rfl, rfl⟩

@[simp] theorem bumpListen_fields {l n : Nat} :
    (bumpListen l n s).pending = s.pending ∧ (bumpListen l n s).now = s.now ∧ (bumpListen l n s).free = s.free ∧
    (bumpListen l n s).frameIds = s.frameIds ∧ (bumpListen l n s).out = s.out ∧
    (bumpListen l n s).supply = s.supply ∧ (bumpListen l n s).straps = s.straps ∧
    (bumpListen l n s).ladder = s.ladder ∧ (bumpListen l n s).boot = s.boot ∧ (bumpListen l n s).otp = s.otp ∧
    (bumpListen l n s).fuses = s.fuses ∧ (bumpListen l n s).tables = s.tables ∧
    (bumpListen l n s).lost = s.lost ∧ (bumpListen l n s).staged = s.staged ∧
    (bumpListen l n s).commit = s.commit ∧ (bumpListen l n s).mem = s.mem ∧
    (bumpListen l n s).upsets = s.upsets ∧ (bumpListen l n s).halfLatch = s.halfLatch ∧
    (bumpListen l n s).hwWrote = s.hwWrote ∧ (bumpListen l n s).station = s.station ∧
    (bumpListen l n s).regions = s.regions ∧ (bumpListen l n s).dunlin = s.dunlin ∧
    (bumpListen l n s).inputs = s.inputs ∧ (bumpListen l n s).heron = s.heron ∧
    (bumpListen l n s).streams = s.streams ∧ (bumpListen l n s).meters = s.meters ∧
    (bumpListen l n s).coarse = s.coarse ∧ (bumpListen l n s).released = s.released ∧
    (bumpListen l n s).ports = s.ports ∧ (bumpListen l n s).mdio = s.mdio ∧
    (bumpListen l n s).classQ = s.classQ ∧ (bumpListen l n s).rxCells = s.rxCells ∧
    (bumpListen l n s).highWater = s.highWater ∧ (bumpListen l n s).listeners = s.listeners ∧
    (bumpListen l n s).links = s.links ∧ (bumpListen l n s).vcs = s.vcs ∧ (bumpListen l n s).pairs = s.pairs ∧
    (bumpListen l n s).lanes = s.lanes ∧ (bumpListen l n s).quiet = s.quiet ∧
    (bumpListen l n s).chans = s.chans ∧ (bumpListen l n s).avocet = s.avocet ∧ (bumpListen l n s).hid = s.hid ∧
    (bumpListen l n s).power = s.power ∧ (bumpListen l n s).faults = s.faults ∧
    (bumpListen l n s).scrubs = s.scrubs ∧ (bumpListen l n s).freeze = s.freeze ∧
    (bumpListen l n s).readout = s.readout :=
  ⟨rfl, rfl, rfl, rfl, rfl, rfl, rfl, rfl, rfl, rfl, rfl, rfl, rfl, rfl, rfl, rfl, rfl, rfl, rfl, rfl,
    rfl, rfl, rfl, rfl, rfl, rfl, rfl, rfl, rfl, rfl, rfl, rfl, rfl, rfl, rfl, rfl, rfl, rfl, rfl, rfl,
    rfl, rfl, rfl, rfl, rfl, rfl, rfl⟩

@[simp] theorem writeByte_fields {a : Nat} {b : Byte} :
    (writeByte a b s).pending = s.pending ∧ (writeByte a b s).now = s.now ∧ (writeByte a b s).free = s.free ∧
    (writeByte a b s).frameIds = s.frameIds ∧ (writeByte a b s).out = s.out ∧
    (writeByte a b s).supply = s.supply ∧ (writeByte a b s).straps = s.straps ∧
    (writeByte a b s).ladder = s.ladder ∧ (writeByte a b s).boot = s.boot ∧ (writeByte a b s).otp = s.otp ∧
    (writeByte a b s).fuses = s.fuses ∧ (writeByte a b s).tables = s.tables ∧ (writeByte a b s).lost = s.lost ∧
    (writeByte a b s).staged = s.staged ∧ (writeByte a b s).commit = s.commit ∧
    (writeByte a b s).upsets = s.upsets ∧ (writeByte a b s).halfLatch = s.halfLatch ∧
    (writeByte a b s).hwWrote = s.hwWrote ∧ (writeByte a b s).station = s.station ∧
    (writeByte a b s).regions = s.regions ∧ (writeByte a b s).dunlin = s.dunlin ∧
    (writeByte a b s).inputs = s.inputs ∧ (writeByte a b s).heron = s.heron ∧
    (writeByte a b s).streams = s.streams ∧ (writeByte a b s).meters = s.meters ∧
    (writeByte a b s).coarse = s.coarse ∧ (writeByte a b s).released = s.released ∧
    (writeByte a b s).ports = s.ports ∧ (writeByte a b s).mdio = s.mdio ∧ (writeByte a b s).classQ = s.classQ ∧
    (writeByte a b s).rxCells = s.rxCells ∧ (writeByte a b s).highWater = s.highWater ∧
    (writeByte a b s).listeners = s.listeners ∧ (writeByte a b s).links = s.links ∧
    (writeByte a b s).vcs = s.vcs ∧ (writeByte a b s).pairs = s.pairs ∧ (writeByte a b s).lanes = s.lanes ∧
    (writeByte a b s).quiet = s.quiet ∧ (writeByte a b s).chans = s.chans ∧ (writeByte a b s).avocet = s.avocet ∧
    (writeByte a b s).hid = s.hid ∧ (writeByte a b s).counters = s.counters ∧ (writeByte a b s).power = s.power ∧
    (writeByte a b s).faults = s.faults ∧ (writeByte a b s).scrubs = s.scrubs ∧
    (writeByte a b s).freeze = s.freeze ∧ (writeByte a b s).readout = s.readout :=
  ⟨rfl, rfl, rfl, rfl, rfl, rfl, rfl, rfl, rfl, rfl, rfl, rfl, rfl, rfl, rfl, rfl, rfl, rfl, rfl, rfl,
    rfl, rfl, rfl, rfl, rfl, rfl, rfl, rfl, rfl, rfl, rfl, rfl, rfl, rfl, rfl, rfl, rfl, rfl, rfl, rfl,
    rfl, rfl, rfl, rfl, rfl, rfl, rfl⟩

@[simp] theorem writeWord_fields {n : Nat} {v : Word} {be : BitVec 4} :
    (writeWord n v be s).pending = s.pending ∧ (writeWord n v be s).now = s.now ∧
    (writeWord n v be s).free = s.free ∧ (writeWord n v be s).frameIds = s.frameIds ∧
    (writeWord n v be s).out = s.out ∧ (writeWord n v be s).supply = s.supply ∧
    (writeWord n v be s).straps = s.straps ∧ (writeWord n v be s).ladder = s.ladder ∧
    (writeWord n v be s).boot = s.boot ∧ (writeWord n v be s).otp = s.otp ∧
    (writeWord n v be s).fuses = s.fuses ∧ (writeWord n v be s).tables = s.tables ∧
    (writeWord n v be s).lost = s.lost ∧ (writeWord n v be s).staged = s.staged ∧
    (writeWord n v be s).commit = s.commit ∧ (writeWord n v be s).upsets = s.upsets ∧
    (writeWord n v be s).halfLatch = s.halfLatch ∧ (writeWord n v be s).hwWrote = s.hwWrote ∧
    (writeWord n v be s).station = s.station ∧ (writeWord n v be s).regions = s.regions ∧
    (writeWord n v be s).dunlin = s.dunlin ∧ (writeWord n v be s).inputs = s.inputs ∧
    (writeWord n v be s).heron = s.heron ∧ (writeWord n v be s).streams = s.streams ∧
    (writeWord n v be s).meters = s.meters ∧ (writeWord n v be s).coarse = s.coarse ∧
    (writeWord n v be s).released = s.released ∧ (writeWord n v be s).ports = s.ports ∧
    (writeWord n v be s).mdio = s.mdio ∧ (writeWord n v be s).classQ = s.classQ ∧
    (writeWord n v be s).rxCells = s.rxCells ∧ (writeWord n v be s).highWater = s.highWater ∧
    (writeWord n v be s).listeners = s.listeners ∧ (writeWord n v be s).links = s.links ∧
    (writeWord n v be s).vcs = s.vcs ∧ (writeWord n v be s).pairs = s.pairs ∧
    (writeWord n v be s).lanes = s.lanes ∧ (writeWord n v be s).quiet = s.quiet ∧
    (writeWord n v be s).chans = s.chans ∧ (writeWord n v be s).avocet = s.avocet ∧
    (writeWord n v be s).hid = s.hid ∧ (writeWord n v be s).counters = s.counters ∧
    (writeWord n v be s).power = s.power ∧ (writeWord n v be s).faults = s.faults ∧
    (writeWord n v be s).scrubs = s.scrubs ∧ (writeWord n v be s).freeze = s.freeze ∧
    (writeWord n v be s).readout = s.readout :=
  ⟨rfl, rfl, rfl, rfl, rfl, rfl, rfl, rfl, rfl, rfl, rfl, rfl, rfl, rfl, rfl, rfl, rfl, rfl, rfl, rfl,
    rfl, rfl, rfl, rfl, rfl, rfl, rfl, rfl, rfl, rfl, rfl, rfl, rfl, rfl, rfl, rfl, rfl, rfl, rfl, rfl,
    rfl, rfl, rfl, rfl, rfl, rfl, rfl⟩

@[simp] theorem takeCells_fields {p c n : Nat} :
    (takeCells p c n s).pending = s.pending ∧ (takeCells p c n s).now = s.now ∧
    (takeCells p c n s).free = s.free ∧ (takeCells p c n s).frameIds = s.frameIds ∧
    (takeCells p c n s).out = s.out ∧ (takeCells p c n s).supply = s.supply ∧
    (takeCells p c n s).straps = s.straps ∧ (takeCells p c n s).ladder = s.ladder ∧
    (takeCells p c n s).boot = s.boot ∧ (takeCells p c n s).otp = s.otp ∧ (takeCells p c n s).fuses = s.fuses ∧
    (takeCells p c n s).tables = s.tables ∧ (takeCells p c n s).lost = s.lost ∧
    (takeCells p c n s).staged = s.staged ∧ (takeCells p c n s).commit = s.commit ∧
    (takeCells p c n s).mem = s.mem ∧ (takeCells p c n s).upsets = s.upsets ∧
    (takeCells p c n s).halfLatch = s.halfLatch ∧ (takeCells p c n s).hwWrote = s.hwWrote ∧
    (takeCells p c n s).station = s.station ∧ (takeCells p c n s).regions = s.regions ∧
    (takeCells p c n s).dunlin = s.dunlin ∧ (takeCells p c n s).inputs = s.inputs ∧
    (takeCells p c n s).heron = s.heron ∧ (takeCells p c n s).streams = s.streams ∧
    (takeCells p c n s).meters = s.meters ∧ (takeCells p c n s).coarse = s.coarse ∧
    (takeCells p c n s).released = s.released ∧ (takeCells p c n s).ports = s.ports ∧
    (takeCells p c n s).mdio = s.mdio ∧ (takeCells p c n s).classQ = s.classQ ∧
    (takeCells p c n s).listeners = s.listeners ∧ (takeCells p c n s).links = s.links ∧
    (takeCells p c n s).vcs = s.vcs ∧ (takeCells p c n s).pairs = s.pairs ∧ (takeCells p c n s).lanes = s.lanes ∧
    (takeCells p c n s).quiet = s.quiet ∧ (takeCells p c n s).chans = s.chans ∧
    (takeCells p c n s).avocet = s.avocet ∧ (takeCells p c n s).hid = s.hid ∧
    (takeCells p c n s).counters = s.counters ∧ (takeCells p c n s).power = s.power ∧
    (takeCells p c n s).faults = s.faults ∧ (takeCells p c n s).scrubs = s.scrubs ∧
    (takeCells p c n s).freeze = s.freeze ∧ (takeCells p c n s).readout = s.readout :=
  ⟨rfl, rfl, rfl, rfl, rfl, rfl, rfl, rfl, rfl, rfl, rfl, rfl, rfl, rfl, rfl, rfl, rfl, rfl, rfl, rfl,
    rfl, rfl, rfl, rfl, rfl, rfl, rfl, rfl, rfl, rfl, rfl, rfl, rfl, rfl, rfl, rfl, rfl, rfl, rfl, rfl,
    rfl, rfl, rfl, rfl, rfl, rfl⟩

@[simp] theorem setCopies_fields {f : HeronCopy → HeronCopy} :
    (setCopies f s).pending = s.pending ∧ (setCopies f s).now = s.now ∧ (setCopies f s).free = s.free ∧
    (setCopies f s).frameIds = s.frameIds ∧ (setCopies f s).out = s.out ∧ (setCopies f s).supply = s.supply ∧
    (setCopies f s).straps = s.straps ∧ (setCopies f s).ladder = s.ladder ∧ (setCopies f s).boot = s.boot ∧
    (setCopies f s).otp = s.otp ∧ (setCopies f s).fuses = s.fuses ∧ (setCopies f s).tables = s.tables ∧
    (setCopies f s).lost = s.lost ∧ (setCopies f s).staged = s.staged ∧ (setCopies f s).commit = s.commit ∧
    (setCopies f s).mem = s.mem ∧ (setCopies f s).upsets = s.upsets ∧ (setCopies f s).halfLatch = s.halfLatch ∧
    (setCopies f s).hwWrote = s.hwWrote ∧ (setCopies f s).station = s.station ∧
    (setCopies f s).regions = s.regions ∧ (setCopies f s).dunlin = s.dunlin ∧ (setCopies f s).inputs = s.inputs ∧
    (setCopies f s).streams = s.streams ∧ (setCopies f s).meters = s.meters ∧ (setCopies f s).coarse = s.coarse ∧
    (setCopies f s).released = s.released ∧ (setCopies f s).ports = s.ports ∧ (setCopies f s).mdio = s.mdio ∧
    (setCopies f s).classQ = s.classQ ∧ (setCopies f s).rxCells = s.rxCells ∧
    (setCopies f s).highWater = s.highWater ∧ (setCopies f s).listeners = s.listeners ∧
    (setCopies f s).links = s.links ∧ (setCopies f s).vcs = s.vcs ∧ (setCopies f s).pairs = s.pairs ∧
    (setCopies f s).lanes = s.lanes ∧ (setCopies f s).quiet = s.quiet ∧ (setCopies f s).chans = s.chans ∧
    (setCopies f s).avocet = s.avocet ∧ (setCopies f s).hid = s.hid ∧ (setCopies f s).counters = s.counters ∧
    (setCopies f s).power = s.power ∧ (setCopies f s).faults = s.faults ∧ (setCopies f s).scrubs = s.scrubs ∧
    (setCopies f s).freeze = s.freeze ∧ (setCopies f s).readout = s.readout :=
  ⟨rfl, rfl, rfl, rfl, rfl, rfl, rfl, rfl, rfl, rfl, rfl, rfl, rfl, rfl, rfl, rfl, rfl, rfl, rfl, rfl,
    rfl, rfl, rfl, rfl, rfl, rfl, rfl, rfl, rfl, rfl, rfl, rfl, rfl, rfl, rfl, rfl, rfl, rfl, rfl, rfl,
    rfl, rfl, rfl, rfl, rfl, rfl, rfl⟩

@[simp] theorem logFault_fields {c u d : Nat} :
    (logFault c u d s).pending = s.pending ∧ (logFault c u d s).now = s.now ∧ (logFault c u d s).free = s.free ∧
    (logFault c u d s).frameIds = s.frameIds ∧ (logFault c u d s).out = s.out ∧
    (logFault c u d s).supply = s.supply ∧ (logFault c u d s).straps = s.straps ∧
    (logFault c u d s).ladder = s.ladder ∧ (logFault c u d s).boot = s.boot ∧ (logFault c u d s).otp = s.otp ∧
    (logFault c u d s).fuses = s.fuses ∧ (logFault c u d s).tables = s.tables ∧
    (logFault c u d s).lost = s.lost ∧ (logFault c u d s).staged = s.staged ∧
    (logFault c u d s).commit = s.commit ∧ (logFault c u d s).mem = s.mem ∧
    (logFault c u d s).upsets = s.upsets ∧ (logFault c u d s).halfLatch = s.halfLatch ∧
    (logFault c u d s).hwWrote = s.hwWrote ∧ (logFault c u d s).station = s.station ∧
    (logFault c u d s).regions = s.regions ∧ (logFault c u d s).dunlin = s.dunlin ∧
    (logFault c u d s).inputs = s.inputs ∧ (logFault c u d s).heron = s.heron ∧
    (logFault c u d s).streams = s.streams ∧ (logFault c u d s).meters = s.meters ∧
    (logFault c u d s).coarse = s.coarse ∧ (logFault c u d s).released = s.released ∧
    (logFault c u d s).ports = s.ports ∧ (logFault c u d s).mdio = s.mdio ∧
    (logFault c u d s).classQ = s.classQ ∧ (logFault c u d s).rxCells = s.rxCells ∧
    (logFault c u d s).highWater = s.highWater ∧ (logFault c u d s).listeners = s.listeners ∧
    (logFault c u d s).links = s.links ∧ (logFault c u d s).vcs = s.vcs ∧ (logFault c u d s).pairs = s.pairs ∧
    (logFault c u d s).lanes = s.lanes ∧ (logFault c u d s).quiet = s.quiet ∧
    (logFault c u d s).chans = s.chans ∧ (logFault c u d s).avocet = s.avocet ∧ (logFault c u d s).hid = s.hid ∧
    (logFault c u d s).counters = s.counters ∧ (logFault c u d s).power = s.power ∧
    (logFault c u d s).scrubs = s.scrubs ∧ (logFault c u d s).freeze = s.freeze ∧
    (logFault c u d s).readout = s.readout :=
  ⟨rfl, rfl, rfl, rfl, rfl, rfl, rfl, rfl, rfl, rfl, rfl, rfl, rfl, rfl, rfl, rfl, rfl, rfl, rfl, rfl,
    rfl, rfl, rfl, rfl, rfl, rfl, rfl, rfl, rfl, rfl, rfl, rfl, rfl, rfl, rfl, rfl, rfl, rfl, rfl, rfl,
    rfl, rfl, rfl, rfl, rfl, rfl, rfl⟩

@[simp] theorem raiseFlags_fields {e : Word} {a b : BitVec 64} {c : BitVec 256} :
    (raiseFlags e a b c s).pending = s.pending ∧ (raiseFlags e a b c s).now = s.now ∧
    (raiseFlags e a b c s).free = s.free ∧ (raiseFlags e a b c s).frameIds = s.frameIds ∧
    (raiseFlags e a b c s).out = s.out ∧ (raiseFlags e a b c s).supply = s.supply ∧
    (raiseFlags e a b c s).straps = s.straps ∧ (raiseFlags e a b c s).ladder = s.ladder ∧
    (raiseFlags e a b c s).boot = s.boot ∧ (raiseFlags e a b c s).otp = s.otp ∧
    (raiseFlags e a b c s).fuses = s.fuses ∧ (raiseFlags e a b c s).tables = s.tables ∧
    (raiseFlags e a b c s).lost = s.lost ∧ (raiseFlags e a b c s).staged = s.staged ∧
    (raiseFlags e a b c s).commit = s.commit ∧ (raiseFlags e a b c s).mem = s.mem ∧
    (raiseFlags e a b c s).upsets = s.upsets ∧ (raiseFlags e a b c s).halfLatch = s.halfLatch ∧
    (raiseFlags e a b c s).hwWrote = s.hwWrote ∧ (raiseFlags e a b c s).regions = s.regions ∧
    (raiseFlags e a b c s).dunlin = s.dunlin ∧ (raiseFlags e a b c s).inputs = s.inputs ∧
    (raiseFlags e a b c s).heron = s.heron ∧ (raiseFlags e a b c s).streams = s.streams ∧
    (raiseFlags e a b c s).meters = s.meters ∧ (raiseFlags e a b c s).coarse = s.coarse ∧
    (raiseFlags e a b c s).released = s.released ∧ (raiseFlags e a b c s).ports = s.ports ∧
    (raiseFlags e a b c s).mdio = s.mdio ∧ (raiseFlags e a b c s).classQ = s.classQ ∧
    (raiseFlags e a b c s).rxCells = s.rxCells ∧ (raiseFlags e a b c s).highWater = s.highWater ∧
    (raiseFlags e a b c s).listeners = s.listeners ∧ (raiseFlags e a b c s).links = s.links ∧
    (raiseFlags e a b c s).vcs = s.vcs ∧ (raiseFlags e a b c s).pairs = s.pairs ∧
    (raiseFlags e a b c s).lanes = s.lanes ∧ (raiseFlags e a b c s).quiet = s.quiet ∧
    (raiseFlags e a b c s).chans = s.chans ∧ (raiseFlags e a b c s).avocet = s.avocet ∧
    (raiseFlags e a b c s).hid = s.hid ∧ (raiseFlags e a b c s).counters = s.counters ∧
    (raiseFlags e a b c s).power = s.power ∧ (raiseFlags e a b c s).faults = s.faults ∧
    (raiseFlags e a b c s).scrubs = s.scrubs ∧ (raiseFlags e a b c s).freeze = s.freeze ∧
    (raiseFlags e a b c s).readout = s.readout :=
  ⟨rfl, rfl, rfl, rfl, rfl, rfl, rfl, rfl, rfl, rfl, rfl, rfl, rfl, rfl, rfl, rfl, rfl, rfl, rfl, rfl,
    rfl, rfl, rfl, rfl, rfl, rfl, rfl, rfl, rfl, rfl, rfl, rfl, rfl, rfl, rfl, rfl, rfl, rfl, rfl, rfl,
    rfl, rfl, rfl, rfl, rfl, rfl, rfl⟩

@[simp] theorem drawSession_fields :
    (drawSession s).pending = s.pending ∧ (drawSession s).now = s.now ∧ (drawSession s).frameIds = s.frameIds ∧
    (drawSession s).out = s.out ∧ (drawSession s).supply = s.supply ∧ (drawSession s).straps = s.straps ∧
    (drawSession s).ladder = s.ladder ∧ (drawSession s).boot = s.boot ∧ (drawSession s).otp = s.otp ∧
    (drawSession s).fuses = s.fuses ∧ (drawSession s).tables = s.tables ∧ (drawSession s).lost = s.lost ∧
    (drawSession s).staged = s.staged ∧ (drawSession s).commit = s.commit ∧ (drawSession s).mem = s.mem ∧
    (drawSession s).upsets = s.upsets ∧ (drawSession s).halfLatch = s.halfLatch ∧
    (drawSession s).hwWrote = s.hwWrote ∧ (drawSession s).station = s.station ∧
    (drawSession s).regions = s.regions ∧ (drawSession s).dunlin = s.dunlin ∧ (drawSession s).inputs = s.inputs ∧
    (drawSession s).heron = s.heron ∧ (drawSession s).streams = s.streams ∧ (drawSession s).meters = s.meters ∧
    (drawSession s).coarse = s.coarse ∧ (drawSession s).released = s.released ∧ (drawSession s).ports = s.ports ∧
    (drawSession s).mdio = s.mdio ∧ (drawSession s).classQ = s.classQ ∧ (drawSession s).rxCells = s.rxCells ∧
    (drawSession s).highWater = s.highWater ∧ (drawSession s).listeners = s.listeners ∧
    (drawSession s).links = s.links ∧ (drawSession s).vcs = s.vcs ∧ (drawSession s).pairs = s.pairs ∧
    (drawSession s).lanes = s.lanes ∧ (drawSession s).quiet = s.quiet ∧ (drawSession s).chans = s.chans ∧
    (drawSession s).avocet = s.avocet ∧ (drawSession s).counters = s.counters ∧ (drawSession s).power = s.power ∧
    (drawSession s).faults = s.faults ∧ (drawSession s).scrubs = s.scrubs ∧ (drawSession s).freeze = s.freeze ∧
    (drawSession s).readout = s.readout :=
  ⟨rfl, rfl, rfl, rfl, rfl, rfl, rfl, rfl, rfl, rfl, rfl, rfl, rfl, rfl, rfl, rfl, rfl, rfl, rfl, rfl,
    rfl, rfl, rfl, rfl, rfl, rfl, rfl, rfl, rfl, rfl, rfl, rfl, rfl, rfl, rfl, rfl, rfl, rfl, rfl, rfl,
    rfl, rfl, rfl, rfl, rfl, rfl⟩

/-! ### Sub-states that an update leaves -/

@[simp] theorem setPort_subs {p : Nat} {x : PortSt} :
    link (setPort s p x) = link s ∧ vc (setPort s p x) = vc s ∧ lane (setPort s p x) = lane s ∧
    chan (setPort s p x) = chan s ∧ stream (setPort s p x) = stream s ∧ listener (setPort s p x) = listener s ∧
    region (setPort s p x) = region s ∧ pair (setPort s p x) = pair s ∧ input (setPort s p x) = input s ∧
    classQueue (setPort s p x) = classQueue s ∧ readCtr (setPort s p x) = readCtr s ∧
    readByte (setPort s p x) = readByte s :=
  ⟨rfl, rfl, rfl, rfl, rfl, rfl, rfl, rfl, rfl, rfl, rfl, rfl⟩

@[simp] theorem setLink_subs {k : Nat} {x : LinkSt} :
    port (setLink s k x) = port s ∧ vc (setLink s k x) = vc s ∧ lane (setLink s k x) = lane s ∧
    chan (setLink s k x) = chan s ∧ stream (setLink s k x) = stream s ∧ listener (setLink s k x) = listener s ∧
    region (setLink s k x) = region s ∧ pair (setLink s k x) = pair s ∧ input (setLink s k x) = input s ∧
    classQueue (setLink s k x) = classQueue s ∧ readCtr (setLink s k x) = readCtr s ∧
    readByte (setLink s k x) = readByte s :=
  ⟨rfl, rfl, rfl, rfl, rfl, rfl, rfl, rfl, rfl, rfl, rfl, rfl⟩

@[simp] theorem setVc_subs {k v : Nat} {x : VcSt} :
    port (setVc s k v x) = port s ∧ link (setVc s k v x) = link s ∧ lane (setVc s k v x) = lane s ∧
    chan (setVc s k v x) = chan s ∧ stream (setVc s k v x) = stream s ∧ listener (setVc s k v x) = listener s ∧
    region (setVc s k v x) = region s ∧ pair (setVc s k v x) = pair s ∧ input (setVc s k v x) = input s ∧
    classQueue (setVc s k v x) = classQueue s ∧ readCtr (setVc s k v x) = readCtr s ∧
    readByte (setVc s k v x) = readByte s :=
  ⟨rfl, rfl, rfl, rfl, rfl, rfl, rfl, rfl, rfl, rfl, rfl, rfl⟩

@[simp] theorem setLane_subs {n : Nat} {x : LaneSt} :
    port (setLane s n x) = port s ∧ link (setLane s n x) = link s ∧ vc (setLane s n x) = vc s ∧
    chan (setLane s n x) = chan s ∧ stream (setLane s n x) = stream s ∧ listener (setLane s n x) = listener s ∧
    region (setLane s n x) = region s ∧ pair (setLane s n x) = pair s ∧ input (setLane s n x) = input s ∧
    classQueue (setLane s n x) = classQueue s ∧ readCtr (setLane s n x) = readCtr s ∧
    readByte (setLane s n x) = readByte s :=
  ⟨rfl, rfl, rfl, rfl, rfl, rfl, rfl, rfl, rfl, rfl, rfl, rfl⟩

@[simp] theorem setChan_subs {c : Nat} {x : ChanSt} :
    port (setChan s c x) = port s ∧ link (setChan s c x) = link s ∧ vc (setChan s c x) = vc s ∧
    lane (setChan s c x) = lane s ∧ stream (setChan s c x) = stream s ∧ listener (setChan s c x) = listener s ∧
    region (setChan s c x) = region s ∧ pair (setChan s c x) = pair s ∧ input (setChan s c x) = input s ∧
    classQueue (setChan s c x) = classQueue s ∧ readCtr (setChan s c x) = readCtr s ∧
    readByte (setChan s c x) = readByte s :=
  ⟨rfl, rfl, rfl, rfl, rfl, rfl, rfl, rfl, rfl, rfl, rfl, rfl⟩

@[simp] theorem setStream_subs {q : Nat} {x : StreamSt} :
    port (setStream s q x) = port s ∧ link (setStream s q x) = link s ∧ vc (setStream s q x) = vc s ∧
    lane (setStream s q x) = lane s ∧ chan (setStream s q x) = chan s ∧
    listener (setStream s q x) = listener s ∧ region (setStream s q x) = region s ∧
    pair (setStream s q x) = pair s ∧ input (setStream s q x) = input s ∧
    classQueue (setStream s q x) = classQueue s ∧ readCtr (setStream s q x) = readCtr s ∧
    readByte (setStream s q x) = readByte s :=
  ⟨rfl, rfl, rfl, rfl, rfl, rfl, rfl, rfl, rfl, rfl, rfl, rfl⟩

@[simp] theorem setMeter_subs {m : Nat} {x : MeterSt} :
    port (setMeter s m x) = port s ∧ link (setMeter s m x) = link s ∧ vc (setMeter s m x) = vc s ∧
    lane (setMeter s m x) = lane s ∧ chan (setMeter s m x) = chan s ∧ stream (setMeter s m x) = stream s ∧
    listener (setMeter s m x) = listener s ∧ region (setMeter s m x) = region s ∧
    pair (setMeter s m x) = pair s ∧ input (setMeter s m x) = input s ∧
    classQueue (setMeter s m x) = classQueue s ∧ readCtr (setMeter s m x) = readCtr s ∧
    readByte (setMeter s m x) = readByte s :=
  ⟨rfl, rfl, rfl, rfl, rfl, rfl, rfl, rfl, rfl, rfl, rfl, rfl, rfl⟩

@[simp] theorem setListener_subs {l : Nat} {x : ListenerSt} :
    port (setListener s l x) = port s ∧ link (setListener s l x) = link s ∧ vc (setListener s l x) = vc s ∧
    lane (setListener s l x) = lane s ∧ chan (setListener s l x) = chan s ∧
    stream (setListener s l x) = stream s ∧ region (setListener s l x) = region s ∧
    pair (setListener s l x) = pair s ∧ input (setListener s l x) = input s ∧
    classQueue (setListener s l x) = classQueue s ∧ readCtr (setListener s l x) = readCtr s ∧
    readByte (setListener s l x) = readByte s :=
  ⟨rfl, rfl, rfl, rfl, rfl, rfl, rfl, rfl, rfl, rfl, rfl, rfl⟩

@[simp] theorem setRegion_subs {r : Nat} {x : RegionSt} :
    port (setRegion s r x) = port s ∧ link (setRegion s r x) = link s ∧ vc (setRegion s r x) = vc s ∧
    lane (setRegion s r x) = lane s ∧ chan (setRegion s r x) = chan s ∧ stream (setRegion s r x) = stream s ∧
    listener (setRegion s r x) = listener s ∧ pair (setRegion s r x) = pair s ∧
    input (setRegion s r x) = input s ∧ classQueue (setRegion s r x) = classQueue s ∧
    readCtr (setRegion s r x) = readCtr s ∧ readByte (setRegion s r x) = readByte s :=
  ⟨rfl, rfl, rfl, rfl, rfl, rfl, rfl, rfl, rfl, rfl, rfl, rfl⟩

@[simp] theorem setPair_subs {j v : Nat} {x : PairSt} :
    port (setPair s j v x) = port s ∧ link (setPair s j v x) = link s ∧ vc (setPair s j v x) = vc s ∧
    lane (setPair s j v x) = lane s ∧ chan (setPair s j v x) = chan s ∧ stream (setPair s j v x) = stream s ∧
    listener (setPair s j v x) = listener s ∧ region (setPair s j v x) = region s ∧
    input (setPair s j v x) = input s ∧ classQueue (setPair s j v x) = classQueue s ∧
    readCtr (setPair s j v x) = readCtr s ∧ readByte (setPair s j v x) = readByte s :=
  ⟨rfl, rfl, rfl, rfl, rfl, rfl, rfl, rfl, rfl, rfl, rfl, rfl⟩

@[simp] theorem setInput_subs {i : Nat} {x : TimeInput} :
    port (setInput s i x) = port s ∧ link (setInput s i x) = link s ∧ vc (setInput s i x) = vc s ∧
    lane (setInput s i x) = lane s ∧ chan (setInput s i x) = chan s ∧ stream (setInput s i x) = stream s ∧
    listener (setInput s i x) = listener s ∧ region (setInput s i x) = region s ∧
    pair (setInput s i x) = pair s ∧ classQueue (setInput s i x) = classQueue s ∧
    readCtr (setInput s i x) = readCtr s ∧ readByte (setInput s i x) = readByte s :=
  ⟨rfl, rfl, rfl, rfl, rfl, rfl, rfl, rfl, rfl, rfl, rfl, rfl⟩

@[simp] theorem setClassQueue_subs {p c : Nat} {x : List Frame} :
    port (setClassQueue s p c x) = port s ∧ link (setClassQueue s p c x) = link s ∧
    vc (setClassQueue s p c x) = vc s ∧ lane (setClassQueue s p c x) = lane s ∧
    chan (setClassQueue s p c x) = chan s ∧ stream (setClassQueue s p c x) = stream s ∧
    listener (setClassQueue s p c x) = listener s ∧ region (setClassQueue s p c x) = region s ∧
    pair (setClassQueue s p c x) = pair s ∧ input (setClassQueue s p c x) = input s ∧
    readCtr (setClassQueue s p c x) = readCtr s ∧ readByte (setClassQueue s p c x) = readByte s :=
  ⟨rfl, rfl, rfl, rfl, rfl, rfl, rfl, rfl, rfl, rfl, rfl, rfl⟩

@[simp] theorem emit_subs {e : Emission} :
    port (emit e s) = port s ∧ link (emit e s) = link s ∧ vc (emit e s) = vc s ∧ lane (emit e s) = lane s ∧
    chan (emit e s) = chan s ∧ stream (emit e s) = stream s ∧ listener (emit e s) = listener s ∧
    region (emit e s) = region s ∧ pair (emit e s) = pair s ∧ input (emit e s) = input s ∧
    classQueue (emit e s) = classQueue s ∧ readCtr (emit e s) = readCtr s ∧ readByte (emit e s) = readByte s :=
  ⟨rfl, rfl, rfl, rfl, rfl, rfl, rfl, rfl, rfl, rfl, rfl, rfl, rfl⟩

@[simp] theorem drawFree_subs :
    port (drawFree s) = port s ∧ link (drawFree s) = link s ∧ vc (drawFree s) = vc s ∧
    lane (drawFree s) = lane s ∧ chan (drawFree s) = chan s ∧ stream (drawFree s) = stream s ∧
    listener (drawFree s) = listener s ∧ region (drawFree s) = region s ∧ pair (drawFree s) = pair s ∧
    input (drawFree s) = input s ∧ classQueue (drawFree s) = classQueue s ∧ readCtr (drawFree s) = readCtr s ∧
    readByte (drawFree s) = readByte s :=
  ⟨rfl, rfl, rfl, rfl, rfl, rfl, rfl, rfl, rfl, rfl, rfl, rfl, rfl⟩

@[simp] theorem bumpBy_subs {c i n k : Nat} :
    port (bumpBy c i n k s) = port s ∧ link (bumpBy c i n k s) = link s ∧ vc (bumpBy c i n k s) = vc s ∧
    lane (bumpBy c i n k s) = lane s ∧ chan (bumpBy c i n k s) = chan s ∧
    stream (bumpBy c i n k s) = stream s ∧ listener (bumpBy c i n k s) = listener s ∧
    region (bumpBy c i n k s) = region s ∧ pair (bumpBy c i n k s) = pair s ∧
    input (bumpBy c i n k s) = input s ∧ classQueue (bumpBy c i n k s) = classQueue s ∧
    readByte (bumpBy c i n k s) = readByte s :=
  ⟨rfl, rfl, rfl, rfl, rfl, rfl, rfl, rfl, rfl, rfl, rfl, rfl⟩

@[simp] theorem bump_subs {c i n : Nat} :
    port (bump c i n s) = port s ∧ link (bump c i n s) = link s ∧ vc (bump c i n s) = vc s ∧
    lane (bump c i n s) = lane s ∧ chan (bump c i n s) = chan s ∧ stream (bump c i n s) = stream s ∧
    listener (bump c i n s) = listener s ∧ region (bump c i n s) = region s ∧ pair (bump c i n s) = pair s ∧
    input (bump c i n s) = input s ∧ classQueue (bump c i n s) = classQueue s ∧
    readByte (bump c i n s) = readByte s :=
  ⟨rfl, rfl, rfl, rfl, rfl, rfl, rfl, rfl, rfl, rfl, rfl, rfl⟩

@[simp] theorem bumpDev_subs {n : Nat} :
    port (bumpDev n s) = port s ∧ link (bumpDev n s) = link s ∧ vc (bumpDev n s) = vc s ∧
    lane (bumpDev n s) = lane s ∧ chan (bumpDev n s) = chan s ∧ stream (bumpDev n s) = stream s ∧
    listener (bumpDev n s) = listener s ∧ region (bumpDev n s) = region s ∧ pair (bumpDev n s) = pair s ∧
    input (bumpDev n s) = input s ∧ classQueue (bumpDev n s) = classQueue s ∧
    readByte (bumpDev n s) = readByte s :=
  ⟨rfl, rfl, rfl, rfl, rfl, rfl, rfl, rfl, rfl, rfl, rfl, rfl⟩

@[simp] theorem bumpPort_subs {p n : Nat} :
    port (bumpPort p n s) = port s ∧ link (bumpPort p n s) = link s ∧ vc (bumpPort p n s) = vc s ∧
    lane (bumpPort p n s) = lane s ∧ chan (bumpPort p n s) = chan s ∧ stream (bumpPort p n s) = stream s ∧
    listener (bumpPort p n s) = listener s ∧ region (bumpPort p n s) = region s ∧
    pair (bumpPort p n s) = pair s ∧ input (bumpPort p n s) = input s ∧
    classQueue (bumpPort p n s) = classQueue s ∧ readByte (bumpPort p n s) = readByte s :=
  ⟨rfl, rfl, rfl, rfl, rfl, rfl, rfl, rfl, rfl, rfl, rfl, rfl⟩

@[simp] theorem bumpClass_subs {p c n : Nat} :
    port (bumpClass p c n s) = port s ∧ link (bumpClass p c n s) = link s ∧ vc (bumpClass p c n s) = vc s ∧
    lane (bumpClass p c n s) = lane s ∧ chan (bumpClass p c n s) = chan s ∧
    stream (bumpClass p c n s) = stream s ∧ listener (bumpClass p c n s) = listener s ∧
    region (bumpClass p c n s) = region s ∧ pair (bumpClass p c n s) = pair s ∧
    input (bumpClass p c n s) = input s ∧ classQueue (bumpClass p c n s) = classQueue s ∧
    readByte (bumpClass p c n s) = readByte s :=
  ⟨rfl, rfl, rfl, rfl, rfl, rfl, rfl, rfl, rfl, rfl, rfl, rfl⟩

@[simp] theorem bumpLane_subs {l n : Nat} :
    port (bumpLane l n s) = port s ∧ link (bumpLane l n s) = link s ∧ vc (bumpLane l n s) = vc s ∧
    lane (bumpLane l n s) = lane s ∧ chan (bumpLane l n s) = chan s ∧ stream (bumpLane l n s) = stream s ∧
    listener (bumpLane l n s) = listener s ∧ region (bumpLane l n s) = region s ∧
    pair (bumpLane l n s) = pair s ∧ input (bumpLane l n s) = input s ∧
    classQueue (bumpLane l n s) = classQueue s ∧ readByte (bumpLane l n s) = readByte s :=
  ⟨rfl, rfl, rfl, rfl, rfl, rfl, rfl, rfl, rfl, rfl, rfl, rfl⟩

@[simp] theorem bumpLink_subs {k n : Nat} :
    port (bumpLink k n s) = port s ∧ link (bumpLink k n s) = link s ∧ vc (bumpLink k n s) = vc s ∧
    lane (bumpLink k n s) = lane s ∧ chan (bumpLink k n s) = chan s ∧ stream (bumpLink k n s) = stream s ∧
    listener (bumpLink k n s) = listener s ∧ region (bumpLink k n s) = region s ∧
    pair (bumpLink k n s) = pair s ∧ input (bumpLink k n s) = input s ∧
    classQueue (bumpLink k n s) = classQueue s ∧ readByte (bumpLink k n s) = readByte s :=
  ⟨rfl, rfl, rfl, rfl, rfl, rfl, rfl, rfl, rfl, rfl, rfl, rfl⟩

@[simp] theorem bumpVc_subs {k v n : Nat} :
    port (bumpVc k v n s) = port s ∧ link (bumpVc k v n s) = link s ∧ vc (bumpVc k v n s) = vc s ∧
    lane (bumpVc k v n s) = lane s ∧ chan (bumpVc k v n s) = chan s ∧ stream (bumpVc k v n s) = stream s ∧
    listener (bumpVc k v n s) = listener s ∧ region (bumpVc k v n s) = region s ∧
    pair (bumpVc k v n s) = pair s ∧ input (bumpVc k v n s) = input s ∧
    classQueue (bumpVc k v n s) = classQueue s ∧ readByte (bumpVc k v n s) = readByte s :=
  ⟨rfl, rfl, rfl, rfl, rfl, rfl, rfl, rfl, rfl, rfl, rfl, rfl⟩

@[simp] theorem bumpPair_subs {j v n : Nat} :
    port (bumpPair j v n s) = port s ∧ link (bumpPair j v n s) = link s ∧ vc (bumpPair j v n s) = vc s ∧
    lane (bumpPair j v n s) = lane s ∧ chan (bumpPair j v n s) = chan s ∧
    stream (bumpPair j v n s) = stream s ∧ listener (bumpPair j v n s) = listener s ∧
    region (bumpPair j v n s) = region s ∧ pair (bumpPair j v n s) = pair s ∧
    input (bumpPair j v n s) = input s ∧ classQueue (bumpPair j v n s) = classQueue s ∧
    readByte (bumpPair j v n s) = readByte s :=
  ⟨rfl, rfl, rfl, rfl, rfl, rfl, rfl, rfl, rfl, rfl, rfl, rfl⟩

@[simp] theorem bumpChan_subs {c n : Nat} :
    port (bumpChan c n s) = port s ∧ link (bumpChan c n s) = link s ∧ vc (bumpChan c n s) = vc s ∧
    lane (bumpChan c n s) = lane s ∧ chan (bumpChan c n s) = chan s ∧ stream (bumpChan c n s) = stream s ∧
    listener (bumpChan c n s) = listener s ∧ region (bumpChan c n s) = region s ∧
    pair (bumpChan c n s) = pair s ∧ input (bumpChan c n s) = input s ∧
    classQueue (bumpChan c n s) = classQueue s ∧ readByte (bumpChan c n s) = readByte s :=
  ⟨rfl, rfl, rfl, rfl, rfl, rfl, rfl, rfl, rfl, rfl, rfl, rfl⟩

@[simp] theorem bumpStream_subs {q n : Nat} :
    port (bumpStream q n s) = port s ∧ link (bumpStream q n s) = link s ∧ vc (bumpStream q n s) = vc s ∧
    lane (bumpStream q n s) = lane s ∧ chan (bumpStream q n s) = chan s ∧
    stream (bumpStream q n s) = stream s ∧ listener (bumpStream q n s) = listener s ∧
    region (bumpStream q n s) = region s ∧ pair (bumpStream q n s) = pair s ∧
    input (bumpStream q n s) = input s ∧ classQueue (bumpStream q n s) = classQueue s ∧
    readByte (bumpStream q n s) = readByte s :=
  ⟨rfl, rfl, rfl, rfl, rfl, rfl, rfl, rfl, rfl, rfl, rfl, rfl⟩

@[simp] theorem bumpCopy_subs {q p n : Nat} :
    port (bumpCopy q p n s) = port s ∧ link (bumpCopy q p n s) = link s ∧ vc (bumpCopy q p n s) = vc s ∧
    lane (bumpCopy q p n s) = lane s ∧ chan (bumpCopy q p n s) = chan s ∧
    stream (bumpCopy q p n s) = stream s ∧ listener (bumpCopy q p n s) = listener s ∧
    region (bumpCopy q p n s) = region s ∧ pair (bumpCopy q p n s) = pair s ∧
    input (bumpCopy q p n s) = input s ∧ classQueue (bumpCopy q p n s) = classQueue s ∧
    readByte (bumpCopy q p n s) = readByte s :=
  ⟨rfl, rfl, rfl, rfl, rfl, rfl, rfl, rfl, rfl, rfl, rfl, rfl⟩

@[simp] theorem bumpListen_subs {l n : Nat} :
    port (bumpListen l n s) = port s ∧ link (bumpListen l n s) = link s ∧ vc (bumpListen l n s) = vc s ∧
    lane (bumpListen l n s) = lane s ∧ chan (bumpListen l n s) = chan s ∧
    stream (bumpListen l n s) = stream s ∧ listener (bumpListen l n s) = listener s ∧
    region (bumpListen l n s) = region s ∧ pair (bumpListen l n s) = pair s ∧
    input (bumpListen l n s) = input s ∧ classQueue (bumpListen l n s) = classQueue s ∧
    readByte (bumpListen l n s) = readByte s :=
  ⟨rfl, rfl, rfl, rfl, rfl, rfl, rfl, rfl, rfl, rfl, rfl, rfl⟩

@[simp] theorem writeByte_subs {a : Nat} {b : Byte} :
    port (writeByte a b s) = port s ∧ link (writeByte a b s) = link s ∧ vc (writeByte a b s) = vc s ∧
    lane (writeByte a b s) = lane s ∧ chan (writeByte a b s) = chan s ∧ stream (writeByte a b s) = stream s ∧
    listener (writeByte a b s) = listener s ∧ region (writeByte a b s) = region s ∧
    pair (writeByte a b s) = pair s ∧ input (writeByte a b s) = input s ∧
    classQueue (writeByte a b s) = classQueue s ∧ readCtr (writeByte a b s) = readCtr s :=
  ⟨rfl, rfl, rfl, rfl, rfl, rfl, rfl, rfl, rfl, rfl, rfl, rfl⟩

@[simp] theorem writeWord_subs {n : Nat} {v : Word} {be : BitVec 4} :
    port (writeWord n v be s) = port s ∧ link (writeWord n v be s) = link s ∧ vc (writeWord n v be s) = vc s ∧
    lane (writeWord n v be s) = lane s ∧ chan (writeWord n v be s) = chan s ∧
    stream (writeWord n v be s) = stream s ∧ listener (writeWord n v be s) = listener s ∧
    region (writeWord n v be s) = region s ∧ pair (writeWord n v be s) = pair s ∧
    input (writeWord n v be s) = input s ∧ classQueue (writeWord n v be s) = classQueue s ∧
    readCtr (writeWord n v be s) = readCtr s :=
  ⟨rfl, rfl, rfl, rfl, rfl, rfl, rfl, rfl, rfl, rfl, rfl, rfl⟩

@[simp] theorem takeCells_subs {p c n : Nat} :
    port (takeCells p c n s) = port s ∧ link (takeCells p c n s) = link s ∧ vc (takeCells p c n s) = vc s ∧
    lane (takeCells p c n s) = lane s ∧ chan (takeCells p c n s) = chan s ∧
    stream (takeCells p c n s) = stream s ∧ listener (takeCells p c n s) = listener s ∧
    region (takeCells p c n s) = region s ∧ pair (takeCells p c n s) = pair s ∧
    input (takeCells p c n s) = input s ∧ classQueue (takeCells p c n s) = classQueue s ∧
    readCtr (takeCells p c n s) = readCtr s ∧ readByte (takeCells p c n s) = readByte s :=
  ⟨rfl, rfl, rfl, rfl, rfl, rfl, rfl, rfl, rfl, rfl, rfl, rfl, rfl⟩

@[simp] theorem setCopies_subs {f : HeronCopy → HeronCopy} :
    port (setCopies f s) = port s ∧ link (setCopies f s) = link s ∧ vc (setCopies f s) = vc s ∧
    lane (setCopies f s) = lane s ∧ chan (setCopies f s) = chan s ∧ stream (setCopies f s) = stream s ∧
    listener (setCopies f s) = listener s ∧ region (setCopies f s) = region s ∧ pair (setCopies f s) = pair s ∧
    input (setCopies f s) = input s ∧ classQueue (setCopies f s) = classQueue s ∧
    readCtr (setCopies f s) = readCtr s ∧ readByte (setCopies f s) = readByte s :=
  ⟨rfl, rfl, rfl, rfl, rfl, rfl, rfl, rfl, rfl, rfl, rfl, rfl, rfl⟩

@[simp] theorem logFault_subs {c u d : Nat} :
    port (logFault c u d s) = port s ∧ link (logFault c u d s) = link s ∧ vc (logFault c u d s) = vc s ∧
    lane (logFault c u d s) = lane s ∧ chan (logFault c u d s) = chan s ∧
    stream (logFault c u d s) = stream s ∧ listener (logFault c u d s) = listener s ∧
    region (logFault c u d s) = region s ∧ pair (logFault c u d s) = pair s ∧
    input (logFault c u d s) = input s ∧ classQueue (logFault c u d s) = classQueue s ∧
    readCtr (logFault c u d s) = readCtr s ∧ readByte (logFault c u d s) = readByte s :=
  ⟨rfl, rfl, rfl, rfl, rfl, rfl, rfl, rfl, rfl, rfl, rfl, rfl, rfl⟩

@[simp] theorem raiseFlags_subs {e : Word} {a b : BitVec 64} {c : BitVec 256} :
    port (raiseFlags e a b c s) = port s ∧ link (raiseFlags e a b c s) = link s ∧
    vc (raiseFlags e a b c s) = vc s ∧ lane (raiseFlags e a b c s) = lane s ∧
    chan (raiseFlags e a b c s) = chan s ∧ stream (raiseFlags e a b c s) = stream s ∧
    listener (raiseFlags e a b c s) = listener s ∧ region (raiseFlags e a b c s) = region s ∧
    pair (raiseFlags e a b c s) = pair s ∧ input (raiseFlags e a b c s) = input s ∧
    classQueue (raiseFlags e a b c s) = classQueue s ∧ readCtr (raiseFlags e a b c s) = readCtr s ∧
    readByte (raiseFlags e a b c s) = readByte s :=
  ⟨rfl, rfl, rfl, rfl, rfl, rfl, rfl, rfl, rfl, rfl, rfl, rfl, rfl⟩

@[simp] theorem drawSession_subs :
    port (drawSession s) = port s ∧ link (drawSession s) = link s ∧ vc (drawSession s) = vc s ∧
    lane (drawSession s) = lane s ∧ chan (drawSession s) = chan s ∧ stream (drawSession s) = stream s ∧
    listener (drawSession s) = listener s ∧ region (drawSession s) = region s ∧ pair (drawSession s) = pair s ∧
    input (drawSession s) = input s ∧ classQueue (drawSession s) = classQueue s ∧
    readCtr (drawSession s) = readCtr s ∧ readByte (drawSession s) = readByte s :=
  ⟨rfl, rfl, rfl, rfl, rfl, rfl, rfl, rfl, rfl, rfl, rfl, rfl, rfl⟩

/-! ### Reading back -/

@[simp] theorem port_setPort {p q : Nat} {x : PortSt} : port (setPort s p x) q = if q = p then x else port s q := by
  simp only [port, setPort, mGetD, mFind_mSet]; split <;> rfl

@[simp] theorem link_setLink {k j : Nat} {x : LinkSt} : link (setLink s k x) j = if j = k then x else link s j := by
  simp only [link, setLink, mGetD, mFind_mSet]; split <;> rfl

@[simp] theorem lane_setLane {n j : Nat} {x : LaneSt} : lane (setLane s n x) j = if j = n then x else lane s j := by
  simp only [lane, setLane, mGetD, mFind_mSet]; split <;> rfl

@[simp] theorem chan_setChan {c j : Nat} {x : ChanSt} : chan (setChan s c x) j = if j = c then x else chan s j := by
  simp only [chan, setChan, mGetD, mFind_mSet]; split <;> rfl

@[simp] theorem stream_setStream {q j : Nat} {x : StreamSt} : stream (setStream s q x) j = if j = q then x else stream s j := by
  simp only [stream, setStream, mGetD, mFind_mSet]; split <;> rfl

@[simp] theorem meter_setMeter {m j : Nat} {x : MeterSt} : meter (setMeter s m x) j = if j = m then x else meter s j := by
  simp only [meter, setMeter, mGetD, mFind_mSet]; split <;> rfl

@[simp] theorem listener_setListener {l j : Nat} {x : ListenerSt} : listener (setListener s l x) j = if j = l then x else listener s j := by
  simp only [listener, setListener, mGetD, mFind_mSet]; split <;> rfl

@[simp] theorem region_setRegion {r j : Nat} {x : RegionSt} : region (setRegion s r x) j = if j = r then x else region s j := by
  simp only [region, setRegion, mGetD, mFind_mSet]; split <;> rfl

@[simp] theorem input_setInput {i j : Nat} {x : TimeInput} : input (setInput s i x) j = if j = i then x else input s j := by
  simp only [input, setInput, mGetD, mFind_mSet]; split <;> rfl

@[simp] theorem vc_setVc {k v j u : Nat} {x : VcSt} :
    vc (setVc s k v x) j u = if 8 * j + u = 8 * k + v then x else vc s j u := by
  simp only [vc, setVc, mGetD, mFind_mSet]; split <;> rfl

@[simp] theorem pair_setPair {k v j u : Nat} {x : PairSt} :
    pair (setPair s k v x) j u = if 8 * j + u = 8 * k + v then x else pair s j u := by
  simp only [pair, setPair, mGetD, mFind_mSet]; split <;> rfl

@[simp] theorem classQueue_setClassQueue {p c j u : Nat} {x : List Frame} :
    classQueue (setClassQueue s p c x) j u = if 8 * j + u = 8 * p + c then x else classQueue s j u := by
  simp only [classQueue, setClassQueue, mGetD, mFind_mSet]; split <;> rfl

/-- A counter reads back its sum modulo its width (13 R301), and every other counter as before. -/
@[simp] theorem readCtr_bumpBy {c i n k c' i' n' : Nat} : readCtr (bumpBy c i n k s) c' i' n' =
    if ctrId c' i' n' = ctrId c i n then (readCtr s c i n + k) % ctrMod c n else readCtr s c' i' n' := by
  simp only [readCtr, bumpBy, mGetD, mFind_mSet]; split <;> rfl

/-- A detected fault waits among those detected before it for its entry (15 R334). -/
@[simp] theorem faults_logFault {c u d : Nat} : (logFault c u d s).faults = { s.faults with
    waiting := putFault { due := s.now + 4, code := c, subject := u, body := faultBody s c u d } s.faults.waiting
    untilReset := s.faults.untilReset || heldUntilReset c } := rfl

/-- A fault joins the waiting ones and takes none away. -/
@[simp] theorem mem_putFault {f g : FaultWait} {l : List FaultWait} : g ∈ putFault f l ↔ g = f ∨ g ∈ l := by
  induction l with
  | nil => simp [putFault]
  | cons x r ih => simp only [putFault]; split <;> simp [ih, or_left_comm]

@[simp] theorem length_putFault {f : FaultWait} {l : List FaultWait} : (putFault f l).length = l.length + 1 := by
  induction l with
  | nil => rfl
  | cons x r ih => simp only [putFault]; split <;> simp [ih]

@[simp] theorem out_emit {e : Emission} : (emit e s).out = s.out ++ [e] := rfl

@[simp] theorem free_drawFree : (drawFree s).free = s.free + 1 := rfl

end Sys2Proof.Machine
end

