-- ==== Sys2Proof/Laws/Acts.lean ====
section
/-!
SUPPORT. What the form of a command's meaning gives at once: every meaning is an occurrence (act), so its frame is
that of its operation, and what follows it (publish) leaves every part; the wires and event flags that publish adds.
-/
namespace Sys2Proof.Machine

variable {w : List Part} {s t o : State} {g : Bool} {op : State → State}

/-! ### Occurrences -/

/-- Every command is an occurrence. -/
theorem exec_is_act (c : Instr) (s : State) : ∃ g op, exec c s = act g op s := by
  cases c <;> simp only [
    exec, execPowerOn, execRailBrownOut, execRailsInRegulation, execResetN, execVinUndervoltage,
    execResetRelease, execLadderReading, execCorePllLock, execProcessImageClearDone, execOtpReadDone,
    execJedecIdReadDone, execSlotCheckDone, execConfigDone, execLocalTimeout, execHeronStart,
    execSrefclkFault, execSrefclkRecovery, execXinLoss, execBankBrownOut, execBankBrownOutRecovery,
    execOvertemperature, execThermalShutdown, execDcqFault, execCycleBoundary, execGateEntry,
    execHeronEvent, execHeronVote, execSyncReceived, execSyncLossTimeout, execAlignmentComplete,
    execAnnounceReceived, execPdelayReqSend, execPdelayReceived, execSignalingReceived, execPpsOutPulse,
    execPpsOutPulseEnd, execTimeInputEdge, execSerdesLatencyRemeasure, execTimeBlockSend,
    execEchoReceived, execEchoMissing, execWheelSlot, execCoarseSlot, execDeadlineExpiry,
    execTransmitSelection, execTransmitComplete, execFrameReceive, execRecoveryResetTimeout,
    execPfcReceived, execMacControlIgnored, execPauseExpiry, execPfcSend, execPfcRefresh, execVerifyTimer,
    execVerifyMpacketReceived, execMpacketReceived, execPortDown, execPortUp, execLinkUpHoldEnd,
    execSgmiiInbandWord, execPhyPoll, execPhyRestart, execCtUnderrun, execTunnelFcsError,
    execTunnelOverlength, execPacketReceived, execPairResetTimeout, execAckTimer, execAckReceived,
    execNakReceived, execReplayTimeout, execLinkDown, execPacketSend, execCreditWaitDeadline,
    execCreditReturn, execAuditSend, execAuditReceived, execControlBlockDiscard, execDetectBeacon,
    execBackoffReset, execTs1Detected, execBlockLock, execAlignComplete, execParamReceived,
    execParamAckReceived, execSpeedCountdownEnd, execEqReqReceived, execEqDoneReceived, execReadyReceived,
    execTrainingTimeout, execRetrain, execEyeMapComplete, execDfeAdapt, execCalBlockSend,
    execCalBlockReceived, execLaneSleep, execLaneWake, execSleepKeepalive, execHostWrite,
    execHalfReadLatch, execEventFlagClear, execAttnmaskWrite, execDoorbellRing, execHostltrWrite,
    execRearmPulseEnd, execAvocetTrigger, execAvocetHalfCompletion, execAvocetFullCompletion,
    execAvocetBusError, execListenAgeDiscard, execLanepoolAgeDiscard, execDiscover, execRead, execStage,
    execCommit, execAbort, execCounterSnapshot, execEventSubscribe, execImageTransfer,
    execImageTransferDone, execTransferIdleTimeout, execSlotSwitch, execSlotSwitchReset,
    execRollbackFloorRaise, execFloorRaiseDone, execReservedOpcode, execPowerLevelChange,
    execEfftolUpdate, execS3Entry, execS3Exit, execS4Entry, execBitternFrame, execBitternLinkChange,
    execWakeN, execS4Exit, execScrubRead, execFreezeN, execReadoutStart, execReadoutEnd,
    execSlotSwitchCheckDone, execPortLowPowerEntry, execPortLowPowerExit, execReadoutNibble,
    execDunlinSecondsWrap, execVinRestart] <;>
    exact ⟨_, _, rfl⟩

/-- Where the state does not let it occur, a command changes nothing. -/
theorem act_off (h : g = false) : act g op s = .next s := by subst h; rfl

theorem act_on (h : g = true) : act g op s = .next (publish s (op s)) := by subst h; rfl

theorem act_next (h : act g op s = .next t) : (g = false ∧ t = s) ∨ (g = true ∧ t = publish s (op s)) := by
  cases g
  · exact .inl ⟨rfl, by simpa [act] using h.symm⟩
  · exact .inr ⟨rfl, by simpa [act] using h.symm⟩

/-- A command changes the parts that its operation changes. -/
theorem act_frame (h : act g op s = .next t) (hf : g = true → SameBut w s (op s)) : SameBut w s t := by
  rcases act_next h with ⟨-, rfl⟩ | ⟨hg, rfl⟩
  · exact SameBut.refl
  · exact same_publish.2 (hf hg)

/-! ### What publish leaves -/

theorem published (p : Part) : p.same (publish o t) t :=
  (same_publish (w := []) (s := t)).2 SameBut.refl |>.symm p List.not_mem_nil

@[simp] theorem publish_fields :
    (publish o t).now = t.now ∧ (publish o t).supply = t.supply ∧ (publish o t).straps = t.straps ∧
    (publish o t).ladder = t.ladder ∧ (publish o t).boot = t.boot ∧ (publish o t).otp = t.otp ∧
    (publish o t).fuses = t.fuses ∧
    (publish o t).tables = t.tables ∧ (publish o t).lost = t.lost ∧ (publish o t).staged = t.staged ∧
    (publish o t).commit = t.commit ∧ (publish o t).mem = t.mem ∧ (publish o t).upsets = t.upsets ∧
    (publish o t).halfLatch = t.halfLatch ∧ (publish o t).hwWrote = t.hwWrote ∧
    (publish o t).regions = t.regions ∧ (publish o t).dunlin = t.dunlin ∧ (publish o t).inputs = t.inputs ∧
    (publish o t).heron = t.heron ∧ (publish o t).streams = t.streams ∧ (publish o t).meters = t.meters ∧
    (publish o t).coarse = t.coarse ∧ (publish o t).released = t.released ∧ (publish o t).mdio = t.mdio ∧
    (publish o t).rxCells = t.rxCells ∧
    (publish o t).highWater = t.highWater ∧ (publish o t).listeners = t.listeners ∧
    (publish o t).links = t.links ∧ (publish o t).vcs = t.vcs ∧ (publish o t).pairs = t.pairs ∧
    (publish o t).lanes = t.lanes ∧ (publish o t).quiet = t.quiet ∧ (publish o t).chans = t.chans ∧
    (publish o t).avocet = t.avocet ∧ (publish o t).power = t.power ∧ (publish o t).faults = t.faults ∧
    (publish o t).scrubs = t.scrubs ∧ (publish o t).freeze = t.freeze ∧ (publish o t).readout = t.readout ∧
    (publish o t).pending = t.pending := by
  have f : ∀ p : Part, p.same (publish o t) t := fun p => published p
  have h : (publish o t).heron = t.heron := by
    have a : clockOf (publish o t).heron = clockOf t.heron := f .heronClock
    have b : copiesOf (publish o t).heron = copiesOf t.heron := f .heronCopies
    simp only [clockOf, copiesOf, Prod.mk.injEq] at a b
    obtain ⟨a1, a2, a3, a4, a5⟩ := a
    obtain ⟨b1, b2, b3, b4⟩ := b
    revert a1 a2 a3 a4 a5 b1 b2 b3 b4
    cases (publish o t).heron; cases t.heron
    simp_all
  exact ⟨f .now, f .supply, f .straps, f .ladder, f .boot, (f .otp).1, (f .otp).2, f .tables, f .lost, f .staged, f .commit, f .mem,
    f .upsets, f .halfLatch, f .hwWrote, f .regions, f .dunlin, f .inputs, h, f .streams, f .meters,
    f .coarse, f .released, f .mdio, f .rxCells, f .highWater, f .listeners, f .links, f .vcs, f .pairs, f .lanes, f .quiet,
    f .chans, f .avocet, f .power, f .faults, f .scrubs, f .freeze, f .readout, f .pending⟩

@[simp] theorem publish_subs :
    link (publish o t) = link t ∧ vc (publish o t) = vc t ∧ lane (publish o t) = lane t ∧
    chan (publish o t) = chan t ∧ stream (publish o t) = stream t ∧ meter (publish o t) = meter t ∧
    listener (publish o t) = listener t ∧ region (publish o t) = region t ∧ pair (publish o t) = pair t ∧
    input (publish o t) = input t ∧ readByte (publish o t) = readByte t ∧ rxHeld (publish o t) = rxHeld t := by
  refine ⟨?_, ?_, ?_, ?_, ?_, ?_, ?_, ?_, ?_, ?_, ?_, ?_⟩ <;> funext <;>
    simp [link, vc, lane, chan, stream, meter, listener, region, pair, input, readByte, rxHeld]

/-- A port keeps its state, its announce mark apart. -/
@[simp] theorem portOf_publish {p : Nat} : portOf (port (publish o t) p) = portOf (port t p) := published .ports p

/-- A port's fields, its announce mark apart. -/
@[simp] theorem port_publish {p : Nat} :
    (port (publish o t) p).mode = (port t p).mode ∧
    (port (publish o t) p).speed = (port t p).speed ∧
    (port (publish o t) p).linkBit = (port t p).linkBit ∧
    (port (publish o t) p).anPage = (port t p).anPage ∧
    (port (publish o t) p).up = (port t p).up ∧
    (port (publish o t) p).live = (port t p).live ∧
    (port (publish o t) p).holdEnd = (port t p).holdEnd ∧
    (port (publish o t) p).speedRestart = (port t p).speedRestart ∧
    (port (publish o t) p).halfDuplex = (port t p).halfDuplex ∧
    (port (publish o t) p).verify = (port t p).verify ∧
    (port (publish o t) p).tx = (port t p).tx ∧
    (port (publish o t) p).preempted = (port t p).preempted ∧
    (port (publish o t) p).control = (port t p).control ∧
    (port (publish o t) p).smdFrame = (port t p).smdFrame ∧
    (port (publish o t) p).smdFrag = (port t p).smdFrag ∧
    (port (publish o t) p).reasm = (port t p).reasm ∧
    (port (publish o t) p).pausedUntil = (port t p).pausedUntil ∧
    (port (publish o t) p).pausedAt = (port t p).pausedAt ∧
    (port (publish o t) p).pfcOn = (port t p).pfcOn ∧
    (port (publish o t) p).pfcDue = (port t p).pfcDue ∧
    (port (publish o t) p).deferred = (port t p).deferred ∧
    (port (publish o t) p).txLat = (port t p).txLat ∧
    (port (publish o t) p).rxLat = (port t p).rxLat ∧
    (port (publish o t) p).linkDelay = (port t p).linkDelay ∧
    (port (publish o t) p).pdelaySeq = (port t p).pdelaySeq ∧
    (port (publish o t) p).pdelayDue = (port t p).pdelayDue ∧
    (port (publish o t) p).pdelayT1 = (port t p).pdelayT1 ∧
    (port (publish o t) p).pdelayResp = (port t p).pdelayResp ∧
    (port (publish o t) p).pdelayLast = (port t p).pdelayLast ∧
    (port (publish o t) p).latencyDue = (port t p).latencyDue ∧
    (port (publish o t) p).phy = (port t p).phy ∧
    (port (publish o t) p).phyDue = (port t p).phyDue ∧
    (port (publish o t) p).phyRegs = (port t p).phyRegs ∧
    (port (publish o t) p).lowPower = (port t p).lowPower ∧
    (port (publish o t) p).idleSince = (port t p).idleSince ∧
    (port (publish o t) p).sendAfter = (port t p).sendAfter := by
  have h : portOf (port (publish o t) p) = portOf (port t p) := published .ports p
  have k : ∀ {β : Type} (f : PortSt → β), f (portOf (port (publish o t) p)) = f (portOf (port t p)) :=
    fun f => by rw [h]
  exact ⟨k (·.mode), k (·.speed), k (·.linkBit), k (·.anPage), k (·.up), k (·.live), k (·.holdEnd),
    k (·.speedRestart), k (·.halfDuplex), k (·.verify), k (·.tx), k (·.preempted), k (·.control),
    k (·.smdFrame), k (·.smdFrag), k (·.reasm), k (·.pausedUntil), k (·.pausedAt), k (·.pfcOn), k (·.pfcDue),
    k (·.deferred), k (·.txLat), k (·.rxLat), k (·.linkDelay), k (·.pdelaySeq), k (·.pdelayDue),
    k (·.pdelayT1), k (·.pdelayResp), k (·.pdelayLast), k (·.latencyDue), k (·.phy), k (·.phyDue),
    k (·.phyRegs), k (·.lowPower), k (·.idleSince), k (·.sendAfter)⟩

/-- The station block's registers, the event flags and ATTNCOUNT apart. -/
@[simp] theorem publish_station :
    (publish o t).station.hostLtr = t.station.hostLtr ∧ (publish o t).station.heartbeat = t.station.heartbeat ∧
    (publish o t).station.hbWindow = t.station.hbWindow ∧ (publish o t).station.attnMask = t.station.attnMask ∧
    (publish o t).station.hostInfo0 = t.station.hostInfo0 ∧ (publish o t).station.hostInfo1 = t.station.hostInfo1 ∧
    (publish o t).station.doorbell = t.station.doorbell ∧ (publish o t).station.rungAt = t.station.rungAt ∧
    (publish o t).station.rung = t.station.rung ∧ (publish o t).station.ignWr = t.station.ignWr ∧
    (publish o t).station.rearmEnd = t.station.rearmEnd ∧ (publish o t).station.generation = t.station.generation ∧
    (publish o t).station.generationAt = t.station.generationAt ∧ (publish o t).station.wdDue = t.station.wdDue ∧
    (publish o t).station.wdMiss = t.station.wdMiss ∧ (publish o t).station.wdExp = t.station.wdExp ∧
    (publish o t).station.lastHeartbeat = t.station.lastHeartbeat ∧
    (publish o t).station.effTol = t.station.effTol := by
  have f : ∀ p : Part, p.same (publish o t) t := fun p => published p
  have h : hostWordsOf (publish o t).station = hostWordsOf t.station := f .hostWords
  have d : doorbellOf (publish o t).station = doorbellOf t.station := f .doorbell
  have e : statusOf (publish o t).station = statusOf t.station := f .status
  simp only [hostWordsOf, doorbellOf, statusOf, List.cons.injEq, Prod.mk.injEq, and_true] at h d e
  obtain ⟨h1, h2, h3, h4, h5, h6⟩ := h
  obtain ⟨d1, d2, d3⟩ := d
  obtain ⟨e1, e2, e3, e4, e5, e6, e7⟩ := e
  exact ⟨h1, h2, h3, h4, h5, h6, d1, d2, d3, f .ignWr, f .rearm, e1, e2, e6, e3, e4, e5, e7⟩

/-- Hidiquel's state, its session counters apart. -/
@[simp] theorem publish_hid :
    (publish o t).hid.rx = t.hid.rx ∧ (publish o t).hid.key = t.hid.key ∧ (publish o t).hid.subs = t.hid.subs ∧
    (publish o t).hid.xfer = t.hid.xfer ∧ (publish o t).hid.switch = t.hid.switch ∧
    (publish o t).hid.raise = t.hid.raise ∧ (publish o t).hid.snaps = t.hid.snaps := by
  have f : ∀ p : Part, p.same (publish o t) t := fun p => published p
  exact ⟨f .mgmtRx, f .mgmtKey, f .subs, f .xfer, f .switch, f .raise, f .snaps⟩

/-- A counter that the device's own frames do not move. -/
theorem readCtr_publish {c i n : Nat} (h : frameCounter (ctrId c i n) = false) :
    readCtr (publish o t) c i n = readCtr t c i n := published .counters _ h

/-- The frames of a class queue that are not the device's own. -/
theorem otherFrames_publish {p c : Nat} :
    otherFrames (classQueue (publish o t) p c) = otherFrames (classQueue t p c) := published .queues _

end Sys2Proof.Machine
end

