-- ==== Sys2Proof/Laws/Host.lean ====
section
/-!
SUPPORT. Host writes to the station block: which word each named write reaches, and with what.
-/
namespace Sys2Proof.Machine

variable {s : State} {v : Word}

@[simp] theorem and_beMask_all : v &&& beMask 15#4 = v := by
  rw [show beMask 15#4 = BitVec.allOnes 32 by decide, BitVec.and_allOnes]

/-- A write to the station block, its clear complete, by its word number. -/
theorem landWrite_station {lag w : Nat} {be : BitVec 4} (hb : be ≠ 0) (hc : s.boot.cleared = true) (hw : 0xFFC0 ≤ w) :
    landWrite lag w v be s = writeStation (w - 0xFFC0) v be (wakeS3 s) := by
  simp only [landWrite, if_neg hb, hc]; simp [hw]

theorem landWrite_none {lag w : Nat} : landWrite lag w v 0 s = s := rfl

theorem landWrite_early {lag w : Nat} {be : BitVec 4} (hb : be ≠ 0) (hc : s.boot.cleared = false) :
    landWrite lag w v be s = bumpDev 19 s := by
  simp only [landWrite, if_neg hb, hc]; simp

/-- The words EVENTS to HEVT7 (R243): their flags are cleared, and a write to EVENTS re-arms PATN_N (R246). -/
theorem writeStation_flags {w : Fin 13} : writeStation (24 + w.val) v 15 s =
    if w = 0 then rearm s (clearFlags 24 v s) else clearFlags (24 + w.val) v s := by
  fin_cases w <;> simp [writeStation]

end Sys2Proof.Machine
end

