-- ==== Sys2Proof/Laws/Memory.lean ====
section
/-!
SUPPORT. Every operation that writes the process image keeps its canonical form, and every other operation leaves
the image as it was.
-/
namespace Sys2Proof.Machine

variable {s t u : State}

/-- The image is in its canonical form. -/
abbrev Formed (s : State) : Prop := memWf s.mem = true

/-- Every part but the image. -/
def noMem : List Part :=
  [.pending, .now, .supply, .straps, .ladder, .boot, .otp, .tables, .lost, .staged, .commit, .upsets,
   .halfLatch, .hwWrote, .hostWords, .doorbell, .ignWr, .rearm, .status, .regions, .dunlin, .inputs,
   .heronClock, .heronCopies, .streams, .meters, .coarse, .released, .ports, .mdio, .queues, .rxCells, .highWater,
   .listeners,
   .links, .vcs, .pairs, .lanes, .quiet, .chans, .avocet, .mgmtRx, .mgmtKey, .subs, .xfer, .switch, .raise, .snaps,
   .counters, .power, .faults, .scrubs, .freeze, .readout]

/-- What writes no word keeps the form. -/
theorem Formed.of (hf : Formed s) (h : SameBut noMem s t) : Formed t := by
  have e : s.mem = t.mem := h .mem (by simp [noMem])
  rwa [Formed, ← e]

theorem formed_each {α : Type} {l : List α} {f : α → State → State} (h : ∀ a t, Formed t → Formed (f a t))
    (hs : Formed s) : Formed (each l f s) := by
  unfold each
  induction l generalizing s with
  | nil => exact hs
  | cons a r ih => exact ih (h a s hs)

theorem formed_writeWord {w : Nat} {v : Word} {be : BitVec 4} (h : Formed s) : Formed (writeWord w v be s) :=
  memWf_putWord h

/-- A word write: the enabled bytes of the word read as written, every other byte as before. -/
theorem readByte_writeWord {w a : Nat} {v : Word} {be : BitVec 4} :
    readByte (writeWord w v be s) a =
      if a / 4 = w ∧ be.getLsbD (a % 4) = true then byteOf v (a % 4) else readByte s a := by
  have key : ∀ (l : List Nat) (m : List Host.Cell), l.Nodup → (∀ i ∈ l, i < 4) →
      mGetD (l.foldl (fun m i => if be.getLsbD i then putByte m (4 * w + i) (byteOf v i) else m) m) a memDefault =
        if a / 4 = w ∧ a % 4 ∈ l ∧ be.getLsbD (a % 4) = true then byteOf v (a % 4) else mGetD m a memDefault := by
    intro l
    induction l with
    | nil => intro m _ _; simp
    | cons i r ih =>
      intro m hn hl
      have hi : i < 4 := hl i (List.mem_cons_self ..)
      obtain ⟨hir, hr⟩ := List.nodup_cons.1 hn
      simp only [List.foldl_cons]
      by_cases hb : be.getLsbD i = true
      · rw [if_pos hb, ih _ hr fun j hj => hl j (List.mem_cons_of_mem _ hj), mGetD_putByte]
        by_cases ha : a = 4 * w + i
        · subst ha
          have e1 : (4 * w + i) / 4 = w := by omega
          have e2 : (4 * w + i) % 4 = i := by omega
          simp [e1, e2, hb, hir]
        · have : ¬(a / 4 = w ∧ a % 4 = i) := by omega
          simp only [ha, if_false, List.mem_cons]
          grind
      · rw [if_neg hb, ih _ hr fun j hj => hl j (List.mem_cons_of_mem _ hj)]
        simp only [List.mem_cons]
        grind
  have k := key [0, 1, 2, 3] s.mem (by decide) (by decide)
  have e : a % 4 ∈ [0, 1, 2, 3] := by
    have : a % 4 < 4 := Nat.mod_lt _ (by decide)
    simp only [List.mem_cons, List.not_mem_nil, or_false]; omega
  simp only [e, true_and] at k
  exact k

/-- A word write leaves every other word. -/
theorem readByte_other {w a : Nat} {v : Word} {be : BitVec 4} (ha : a / 4 ≠ w) :
    readByte (writeWord w v be s) a = readByte s a := by
  rw [readByte_writeWord, if_neg fun h' => ha h'.1]

/-! ### Errors of the image -/

theorem formed_setSram {w : Nat} {v : Word} (h : Formed s) : Formed (setSram w v s) := by
  simp only [setSram]
  split
  · exact h.of (by simp [noMem])
  · exact formed_writeWord h

theorem formed_judgeImage {w : Nat} (h : Formed s) : Formed (judgeImage w s) := by
  simp only [judgeImage]
  split
  · refine formed_setSram (h.of (t := clearUpset _ _ _ (noteImageError w s)) ?_)
    simp [noMem]
  · exact h.of (by simp [noMem])

theorem formed_judgeMerge {w : Nat} (h : Formed s) : Formed (judgeMerge w s) := by
  simp only [judgeMerge]
  split
  · exact Formed.of (s := setSram w (storedWord s w) s) (formed_setSram h) (by simp [noMem])
  · exact h.of (by simp [noMem])

theorem formed_storeWord {w : Nat} {v : Word} {be : BitVec 4} (h : Formed s) : Formed (storeWord w v be s) := by
  simp only [storeWord]
  split
  · exact formed_writeWord (h.of (by simp [noMem]))
  · split
    · exact h
    · exact formed_writeWord (formed_judgeMerge h)

theorem formed_storeHostWord {n : Nat} {v : Word} {be : BitVec 4} (h : Formed s) : Formed (storeHostWord n v be s) := by
  simp only [storeHostWord]
  split
  · exact h.of (by simp [noMem])
  · exact (formed_judgeMerge (w := 0xFFC0 + n) h).of (by simp [noMem])

theorem formed_judgeWord {m : MemoryId} {w : Nat} (h : Formed s) : Formed (judgeWord m w s) := by
  cases m
  case processImage => exact formed_judgeImage h
  all_goals
    simp only [judgeWord]
    first
    | exact formed_each (fun _ _ h => h.of (by simp [noMem])) h
    | ((repeat' split) <;> exact h.of (by simp [noMem]))

theorem formed_scrubNext {m : MemoryId} (h : Formed s) : Formed (scrubNext m s) :=
  formed_judgeWord (m := m) (w := (scrub s (memCode m)).next) h

/-! ### Host accesses -/

theorem formed_writeStation {n : Nat} {v : Word} {be : BitVec 4} (h : Formed s) : Formed (writeStation n v be s) := by
  unfold writeStation
  split
  case h_1 | h_2 | h_3 | h_4 | h_5 => exact formed_storeHostWord h
  case h_6 => exact (formed_storeHostWord (n := 22) (v := v) (be := be) h).of (by simp [noMem])
  all_goals exact h.of (by simp [noMem])

theorem formed_landWrite {lag w : Nat} {v : Word} {be : BitVec 4} (h : Formed s) : Formed (landWrite lag w v be s) := by
  simp only [landWrite]
  split
  · exact h
  split
  · exact h.of (by simp [noMem])
  split
  · exact formed_writeStation (h.of (by simp [noMem]))
  simp only [writeRegion]
  split
  · exact h
  split
  · split
    · exact h
    · exact formed_storeWord h
  · exact h.of (by simp [noMem])

theorem formed_judgeRead {w : Nat} (h : Formed s) : Formed (judgeRead w s) := by
  simp only [judgeRead]
  (repeat' split) <;> first | exact formed_judgeImage h | exact h

theorem formed_readHalf {pa : BitVec 17} (h : Formed s) : Formed (readHalf pa s) := by
  have k : ∀ b, Formed (if b = true then judgeRead (pa.toNat / 2) s else s) := fun b => by
    split
    · exact formed_judgeRead h
    · exact h
  simp only [readHalf, whenB]
  split
  · exact k _
  · exact formed_judgeRead (w := pa.toNat / 2) h

theorem formed_readWhole {pa : BitVec 17} (h : Formed s) : Formed (readWhole pa s) :=
  formed_judgeRead (w := pa.toNat % 65536) h

/-! ### Avocet's landings -/

theorem formed_landWord {w : Nat} {v : Word} {be : BitVec 4} {m : Bool} (h : Formed s) :
    Formed (landWord w v be m s) := by
  simp only [landWord]
  split
  · exact formed_writeWord (formed_judgeMerge h)
  · exact formed_storeWord h

theorem formed_landImage {a : Nat} {b : List Byte} {m : Bool} (h : Formed s) : Formed (landImage a b m s) :=
  formed_each (fun _ _ => formed_landWord) h

theorem formed_landBytes {c a hi : Nat} {r : DmaRec} (h : Formed s) : Formed (landBytes c r a hi s) := by
  simp only [landBytes]
  split
  · exact formed_landImage h
  · exact h.of (by simp [noMem])
  · exact h.of (by simp [noMem])

theorem formed_landGroup {c : Nat} (h : Formed s) : Formed (landGroup c s) := by
  simp only [landGroup]
  split
  · split
    · exact h
    · split
      · exact formed_landBytes (h.of (by simp [noMem]))
      · exact formed_landBytes h
      · exact h
  · exact h

theorem formed_landChannel {c : Nat} (h : Formed s) : Formed (landChannel c s) := by
  have a : Formed (landGroup c s) := formed_landGroup h
  simp only [landChannel]
  (repeat' split) <;> first | exact a | exact a.of (by simp [noMem])

theorem formed_containError {c : Nat} (h : Formed s) : Formed (containError c s) := by
  simp only [containError]
  split
  · exact h
  · split
    · exact h
    · split
      · exact formed_each (fun _ _ hu => formed_judgeImage hu) h
      · refine h.of ?_
        simp only [same_consumeSource (w := noMem) (by simp [noMem])]
        rw [same_each fun _ _ => by simp [noMem]]
        exact SameBut.refl

theorem formed_stopAvocet (h : Formed s) : Formed (stopAvocet s) := by
  simp only [stopAvocet]
  generalize List.filterMap _ _ = errs
  have h2 : Formed (each (errs.map (·.1)) containError (discardAssemblies s)) :=
    formed_each (fun _ _ => formed_containError) (h.of (by simp [noMem]))
  exact h2.of (by simp [noMem])

/-- Avocet at the start of a ck: what is due lands and completes (11 R258, R260). -/
theorem formed_avocetDuty (h : Formed s) : Formed (avocetDuty s) := by
  have e : Formed (edgesDue s) := h.of (by simp [noMem])
  simp only [avocetDuty]
  split
  · exact e
  · have k : ∀ cs, Formed (each cs landChannel (each cs serveTriggers (edgesDue s))) := fun cs =>
      formed_each (fun _ _ => formed_landChannel) (e.of (by simp [noMem]))
    split
    · exact formed_stopAvocet (k _)
    · exact k _

/-- Avocet at the end of a ck: reads and write groups are granted (11 R259). -/
theorem formed_grantDuty (h : Formed s) : Formed (grantDuty s) := by
  simp only [grantDuty]
  split
  · exact h
  · split
    · exact formed_stopAvocet (h.of (by simp [noMem]))
    · exact h.of (by simp [noMem])

/-! ### Cycle boundaries and the start -/

theorem formed_scrubWords (h : Formed s) : Formed (scrubWords s) :=
  formed_each (f := fun w s => setSram w 0 s) (fun _ _ => formed_setSram) h

theorem formed_avocetBoundary {due} (h : Formed s) : Formed (avocetBoundary due s) := by
  have k : ∀ a, Formed (scrubWords { s with avocet := a }) := fun a => formed_scrubWords h
  have k' : ∀ v a, Formed v → Formed (startAvocet (forgetTaken { v with avocet := a })) :=
    fun v a hv => hv.of (by simp [noMem])
  simp only [avocetBoundary]
  generalize (if s.avocet.errNow = true then s.avocet.errCycles + 1 else 0) = n
  split
  · exact h
  split
  · split
    · exact h.of (by simp [noMem])
    · exact h
  split
  · exact h.of (by simp [noMem])
  · exact k' _ _ (k _)

theorem formed_inOneCk {f : Bool → State → State} (hf : ∀ g u, Formed u → Formed (f g u)) (h : Formed s) :
    Formed (inOneCk f s) := by
  simp only [inOneCk]
  split
  · exact hf _ _ h
  · exact (hf false s h).of (by simp [noMem])

theorem formed_boundaryOf {go : Bool} (h : Formed s) : Formed (boundaryOf go s) := by
  simp only [boundaryOf, boundaryDuties]
  exact formed_avocetBoundary (h.of (by simp [noMem]))

theorem formed_boundary (h : Formed s) : Formed (boundary s) := formed_inOneCk (fun _ _ => formed_boundaryOf) h

theorem formed_heronWork (h : Formed s) : Formed (heronWork s) := by
  refine formed_inOneCk (fun g u hu => ?_) h
  have : Formed (if boundaryDue u then boundaryOf g u else u) := by
    split
    · exact formed_boundaryOf hu
    · exact hu
  exact this.of (by simp [noMem])

theorem formed_heronDuty (h : Formed s) : Formed (heronDuty s) := by
  simp only [heronDuty]
  split
  · exact (formed_heronWork h).of (by simp [noMem])
  · exact h

theorem formed_voteUnder {u : List HeronUpset} (h : Formed s) : Formed (voteUnder u s) := by
  simp only [voteUnder]
  exact (formed_heronWork (h.of (t := each (u.filter isFired) heronUpset s) (by simp [noMem]))).of (by simp [noMem])

theorem formed_passBoundaries (h : Formed s) : Formed (passBoundaries s) := by
  simp only [passBoundaries]
  refine formed_each (fun _ t ht => ?_) h
  split
  · exact (formed_boundary ht).of (by simp [noMem])
  · exact ht

theorem formed_leaveS3 (h : Formed s) : Formed (leaveS3 s) := by
  have k : ∀ x : Power, Formed (passBoundaries { s with power := x }) := fun x =>
    formed_passBoundaries (s := { s with power := x }) h
  refine (k { s.power with level := 0, quietSince := none, woken := false }).of ?_
  simp [leaveS3, noMem]

theorem formed_sleepDuty (h : Formed s) : Formed (sleepDuty s) := by
  simp only [sleepDuty]
  split
  · exact formed_leaveS3 (h.of (by simp [noMem]))
  · exact h.of (by simp [noMem])

theorem mSorted_filter {α : Type} {m : SMap α} {f : Nat × α → Bool} (h : mSorted m = true) :
    mSorted (m.filter f) = true := by
  induction m with
  | nil => rfl
  | cons x r ih =>
    obtain ⟨ha, hr⟩ := mSorted_cons.1 h
    simp only [List.filter_cons]
    split
    · exact mSorted_cons.2 ⟨fun y hy => ha y (List.mem_filter.1 hy).1, ih hr⟩
    · exact ih hr

theorem memWf_filter {m : List Host.Cell} {f : Host.Cell → Bool} (h : memWf m = true) : memWf (m.filter f) = true := by
  simp only [memWf, Bool.and_eq_true, List.all_eq_true] at h ⊢
  exact ⟨mSorted_filter h.1, fun x hx => h.2 x (List.mem_filter.1 hx).1⟩

theorem formed_enterRegions (h : Formed s) : Formed (enterRegions s) := by
  simp only [enterRegions]
  refine formed_each (fun x t ht => ?_) h
  have : Formed (setRegion t x.1 { RegionSt.init with stale := x.2.kind == 0 }) := ht
  split
  · exact formed_each (fun a v hv => memWf_filter hv) this
  · exact this

theorem formed_enterService (h : Formed s) : Formed (enterService s) := by
  simp only [enterService]
  exact (formed_enterRegions h).of (by simp [noMem])

theorem formed_startHeron (h : Formed s) : Formed (startHeron s) := by
  have k : ∀ n v, Formed v → Formed (openCycle true (enterService (startStreams n v))) := fun n v hv =>
    (formed_enterService (hv.of (t := startStreams n v) (by simp [noMem]))).of (by simp [noMem])
  exact k _ _ (h.of (by simp [noMem]))

/-- What the block does of itself in one ck keeps the form: the work at its end and at the start of the next. -/
theorem formed_ckEnds (h : Formed s) : Formed (ckEnds s) := by
  have k : Formed (settleWatchdog s) := h.of (by simp [noMem])
  simp only [ckEnds]
  split
  · exact (formed_grantDuty k).of (by simp [noMem])
  · exact k.of (by simp [noMem])

theorem formed_ckDuties (h : Formed s) : Formed (ckDuties s) := by
  simp only [ckDuties]
  split
  · have a : Formed (heronDuty (masterDuty (switchDuty s))) := formed_heronDuty (h.of (by simp [noMem]))
    have b : Formed (avocetDuty (doorbellDuty (heronDuty (masterDuty (switchDuty s))))) :=
      formed_avocetDuty (a.of (by simp [noMem]))
    exact b.of (by simp [noMem])
  · split
    · exact formed_sleepDuty h
    · exact h

/-- The image at reset is in its canonical form. -/
theorem formed_nil (h : s.mem = []) : Formed s := by rw [Formed, h]; rfl

end Sys2Proof.Machine
end

