-- ==== Sys2Proof/Laws/PerInstr.lean ====
section
/-!
SUPPORT. What the classification of the commands says of each: the waiting commands are no part that a command may
change but by a reset, and the commands that may change every part are those that can assert the internal reset.
-/
open Sys2Proof Sys2Proof.Machine

/-- Every part is listed exactly for the commands that can assert the internal reset; the queue is listed for none. -/
def Sys2Proof.Laws.Parts.Statement (i : Instr) : Prop :=
  (writes i).contains .pending = false ∧ assertsReset i = (writes i == everyPart)

theorem Sys2Proof.Laws.Parts.powerOn (vinMv vdd18Mv : Nat) (extpwr : ExtpwrRead) :
    Statement (.powerOn vinMv vdd18Mv extpwr) := ⟨rfl, rfl⟩
theorem Sys2Proof.Laws.Parts.railBrownOut (rail : Rail) :
    Statement (.railBrownOut rail) := ⟨rfl, rfl⟩
theorem Sys2Proof.Laws.Parts.railsInRegulation :
    Statement (.railsInRegulation) := ⟨rfl, rfl⟩
theorem Sys2Proof.Laws.Parts.resetN (lowNs : Nat) :
    Statement (.resetN lowNs) := ⟨rfl, rfl⟩
theorem Sys2Proof.Laws.Parts.vinUndervoltage (mv : Nat) :
    Statement (.vinUndervoltage mv) := ⟨rfl, rfl⟩
theorem Sys2Proof.Laws.Parts.resetRelease (x : ReleaseSample) :
    Statement (.resetRelease x) := ⟨rfl, rfl⟩
theorem Sys2Proof.Laws.Parts.ladderReading (x : LadderSample) :
    Statement (.ladderReading x) := ⟨rfl, rfl⟩
theorem Sys2Proof.Laws.Parts.corePllLock :
    Statement (.corePllLock) := ⟨rfl, rfl⟩
theorem Sys2Proof.Laws.Parts.processImageClearDone :
    Statement (.processImageClearDone) := ⟨rfl, rfl⟩
theorem Sys2Proof.Laws.Parts.otpReadDone (a b c : FuseRead) :
    Statement (.otpReadDone a b c) := ⟨rfl, rfl⟩
theorem Sys2Proof.Laws.Parts.jedecIdReadDone (id1 id0 : BitVec 24) (standA standB : BitVec 32) :
    Statement (.jedecIdReadDone id1 id0 standA standB) := ⟨rfl, rfl⟩
theorem Sys2Proof.Laws.Parts.slotCheckDone (r : SlotRead) :
    Statement (.slotCheckDone r) := ⟨rfl, rfl⟩
theorem Sys2Proof.Laws.Parts.configDone :
    Statement (.configDone) := ⟨rfl, rfl⟩
theorem Sys2Proof.Laws.Parts.localTimeout :
    Statement (.localTimeout) := ⟨rfl, rfl⟩
theorem Sys2Proof.Laws.Parts.heronStart :
    Statement (.heronStart) := ⟨rfl, rfl⟩
theorem Sys2Proof.Laws.Parts.srefclkFault :
    Statement (.srefclkFault) := ⟨rfl, rfl⟩
theorem Sys2Proof.Laws.Parts.srefclkRecovery :
    Statement (.srefclkRecovery) := ⟨rfl, rfl⟩
theorem Sys2Proof.Laws.Parts.xinLoss :
    Statement (.xinLoss) := ⟨rfl, rfl⟩
theorem Sys2Proof.Laws.Parts.bankBrownOut (b : Bank) (mv : Nat) :
    Statement (.bankBrownOut b mv) := ⟨rfl, rfl⟩
theorem Sys2Proof.Laws.Parts.bankBrownOutRecovery (b : Bank) (mv : Nat) :
    Statement (.bankBrownOutRecovery b mv) := ⟨rfl, rfl⟩
theorem Sys2Proof.Laws.Parts.overtemperature (celsius : Int) :
    Statement (.overtemperature celsius) := ⟨rfl, rfl⟩
theorem Sys2Proof.Laws.Parts.thermalShutdown (celsius : Int) :
    Statement (.thermalShutdown celsius) := ⟨rfl, rfl⟩
theorem Sys2Proof.Laws.Parts.dcqFault (w : DcqSite) :
    Statement (.dcqFault w) := ⟨rfl, rfl⟩
theorem Sys2Proof.Laws.Parts.cycleBoundary :
    Statement (.cycleBoundary) := ⟨rfl, rfl⟩
theorem Sys2Proof.Laws.Parts.gateEntry (p : Port) :
    Statement (.gateEntry p) := ⟨rfl, rfl⟩
theorem Sys2Proof.Laws.Parts.heronEvent :
    Statement (.heronEvent) := ⟨rfl, rfl⟩
theorem Sys2Proof.Laws.Parts.heronVote (u : List HeronUpset) :
    Statement (.heronVote u) := ⟨rfl, rfl⟩
theorem Sys2Proof.Laws.Parts.syncReceived (x : SyncInfo) :
    Statement (.syncReceived x) := ⟨rfl, rfl⟩
theorem Sys2Proof.Laws.Parts.syncLossTimeout (d : Dom) :
    Statement (.syncLossTimeout d) := ⟨rfl, rfl⟩
theorem Sys2Proof.Laws.Parts.alignmentComplete :
    Statement (.alignmentComplete) := ⟨rfl, rfl⟩
theorem Sys2Proof.Laws.Parts.announceReceived (x : AnnounceInfo) :
    Statement (.announceReceived x) := ⟨rfl, rfl⟩
theorem Sys2Proof.Laws.Parts.pdelayReqSend (p : Port) :
    Statement (.pdelayReqSend p) := ⟨rfl, rfl⟩
theorem Sys2Proof.Laws.Parts.pdelayReceived (p : Port) (m : PdelayMsg) (phase : Fin 8) :
    Statement (.pdelayReceived p m phase) := ⟨rfl, rfl⟩
theorem Sys2Proof.Laws.Parts.signalingReceived (p : Port) :
    Statement (.signalingReceived p) := ⟨rfl, rfl⟩
theorem Sys2Proof.Laws.Parts.ppsOutPulse :
    Statement (.ppsOutPulse) := ⟨rfl, rfl⟩
theorem Sys2Proof.Laws.Parts.ppsOutPulseEnd :
    Statement (.ppsOutPulseEnd) := ⟨rfl, rfl⟩
theorem Sys2Proof.Laws.Parts.timeInputEdge (i : Fin 3) (rising : Bool) (ps : Fin 1250) :
    Statement (.timeInputEdge i rising ps) := ⟨rfl, rfl⟩
theorem Sys2Proof.Laws.Parts.serdesLatencyRemeasure (p : Port) (txPs rxPs : Nat) :
    Statement (.serdesLatencyRemeasure p txPs rxPs) := ⟨rfl, rfl⟩
theorem Sys2Proof.Laws.Parts.timeBlockSend (k : Link) :
    Statement (.timeBlockSend k) := ⟨rfl, rfl⟩
theorem Sys2Proof.Laws.Parts.echoReceived (k : Link) (body : Block) (phase : Fin 8) :
    Statement (.echoReceived k body phase) := ⟨rfl, rfl⟩
theorem Sys2Proof.Laws.Parts.echoMissing (k : Link) :
    Statement (.echoMissing k) := ⟨rfl, rfl⟩
theorem Sys2Proof.Laws.Parts.wheelSlot :
    Statement (.wheelSlot) := ⟨rfl, rfl⟩
theorem Sys2Proof.Laws.Parts.coarseSlot :
    Statement (.coarseSlot) := ⟨rfl, rfl⟩
theorem Sys2Proof.Laws.Parts.deadlineExpiry (q : QueueRef) :
    Statement (.deadlineExpiry q) := ⟨rfl, rfl⟩
theorem Sys2Proof.Laws.Parts.transmitSelection (p : Port) :
    Statement (.transmitSelection p) := ⟨rfl, rfl⟩
theorem Sys2Proof.Laws.Parts.transmitComplete (p : Port) :
    Statement (.transmitComplete p) := ⟨rfl, rfl⟩
theorem Sys2Proof.Laws.Parts.frameReceive (p : Port) (bytes : List Byte) (codeError : Bool) :
    Statement (.frameReceive p bytes codeError) := ⟨rfl, rfl⟩
theorem Sys2Proof.Laws.Parts.recoveryResetTimeout (l : Stream) :
    Statement (.recoveryResetTimeout l) := ⟨rfl, rfl⟩
theorem Sys2Proof.Laws.Parts.pfcReceived (p : Port) (x : PfcInfo) :
    Statement (.pfcReceived p x) := ⟨rfl, rfl⟩
theorem Sys2Proof.Laws.Parts.macControlIgnored (p : Port) (opcode : BitVec 16) :
    Statement (.macControlIgnored p opcode) := ⟨rfl, rfl⟩
theorem Sys2Proof.Laws.Parts.pauseExpiry (p : Port) (c : TClass) :
    Statement (.pauseExpiry p c) := ⟨rfl, rfl⟩
theorem Sys2Proof.Laws.Parts.pfcSend (p : Port) (c : TClass) :
    Statement (.pfcSend p c) := ⟨rfl, rfl⟩
theorem Sys2Proof.Laws.Parts.pfcRefresh (p : Port) (c : TClass) :
    Statement (.pfcRefresh p c) := ⟨rfl, rfl⟩
theorem Sys2Proof.Laws.Parts.verifyTimer (p : Port) :
    Statement (.verifyTimer p) := ⟨rfl, rfl⟩
theorem Sys2Proof.Laws.Parts.verifyMpacketReceived (p : Port) (respond : Bool) :
    Statement (.verifyMpacketReceived p respond) := ⟨rfl, rfl⟩
theorem Sys2Proof.Laws.Parts.mpacketReceived (p : Port) (m : Mpacket) :
    Statement (.mpacketReceived p m) := ⟨rfl, rfl⟩
theorem Sys2Proof.Laws.Parts.portDown (p : Port) (w : LinkLoss) :
    Statement (.portDown p w) := ⟨rfl, rfl⟩
theorem Sys2Proof.Laws.Parts.portUp (x : PortLink) :
    Statement (.portUp x) := ⟨rfl, rfl⟩
theorem Sys2Proof.Laws.Parts.linkUpHoldEnd (p : Port) :
    Statement (.linkUpHoldEnd p) := ⟨rfl, rfl⟩
theorem Sys2Proof.Laws.Parts.sgmiiInbandWord (p : Port) (link : Bool) (speed : Fin 3) (full : Bool) :
    Statement (.sgmiiInbandWord p link speed full) := ⟨rfl, rfl⟩
theorem Sys2Proof.Laws.Parts.phyPoll (p : Port) (value : BitVec 16) :
    Statement (.phyPoll p value) := ⟨rfl, rfl⟩
theorem Sys2Proof.Laws.Parts.phyRestart (p : Port) :
    Statement (.phyRestart p) := ⟨rfl, rfl⟩
theorem Sys2Proof.Laws.Parts.ctUnderrun (p : Port) :
    Statement (.ctUnderrun p) := ⟨rfl, rfl⟩
theorem Sys2Proof.Laws.Parts.tunnelFcsError (q : Stream) :
    Statement (.tunnelFcsError q) := ⟨rfl, rfl⟩
theorem Sys2Proof.Laws.Parts.tunnelOverlength (q : Stream) :
    Statement (.tunnelOverlength q) := ⟨rfl, rfl⟩
theorem Sys2Proof.Laws.Parts.packetReceived (k : Link) (before head middle last : Rows) :
    Statement (.packetReceived k before head middle last) := ⟨rfl, rfl⟩
theorem Sys2Proof.Laws.Parts.pairResetTimeout (j : PairIx) (v : VC) :
    Statement (.pairResetTimeout j v) := ⟨rfl, rfl⟩
theorem Sys2Proof.Laws.Parts.ackTimer (k : Link) :
    Statement (.ackTimer k) := ⟨rfl, rfl⟩
theorem Sys2Proof.Laws.Parts.ackReceived (k : Link) (kind : SKind) (body : Block) :
    Statement (.ackReceived k kind body) := ⟨rfl, rfl⟩
theorem Sys2Proof.Laws.Parts.nakReceived (k : Link) (body : Block) :
    Statement (.nakReceived k body) := ⟨rfl, rfl⟩
theorem Sys2Proof.Laws.Parts.replayTimeout (k : Link) :
    Statement (.replayTimeout k) := ⟨rfl, rfl⟩
theorem Sys2Proof.Laws.Parts.linkDown (k : Link) :
    Statement (.linkDown k) := ⟨rfl, rfl⟩
theorem Sys2Proof.Laws.Parts.packetSend (k : Link) :
    Statement (.packetSend k) := ⟨rfl, rfl⟩
theorem Sys2Proof.Laws.Parts.creditWaitDeadline (k : Link) (v : VC) :
    Statement (.creditWaitDeadline k v) := ⟨rfl, rfl⟩
theorem Sys2Proof.Laws.Parts.creditReturn (k : Link) (v : VC) :
    Statement (.creditReturn k v) := ⟨rfl, rfl⟩
theorem Sys2Proof.Laws.Parts.auditSend (k : Link) :
    Statement (.auditSend k) := ⟨rfl, rfl⟩
theorem Sys2Proof.Laws.Parts.auditReceived (k : Link) (body : Block) :
    Statement (.auditReceived k body) := ⟨rfl, rfl⟩
theorem Sys2Proof.Laws.Parts.controlBlockDiscard (k : Link) (body : Block) :
    Statement (.controlBlockDiscard k body) := ⟨rfl, rfl⟩
theorem Sys2Proof.Laws.Parts.detectBeacon (k : Link) :
    Statement (.detectBeacon k) := ⟨rfl, rfl⟩
theorem Sys2Proof.Laws.Parts.backoffReset (k : Link) :
    Statement (.backoffReset k) := ⟨rfl, rfl⟩
theorem Sys2Proof.Laws.Parts.ts1Detected (k : Link) (body : Block) :
    Statement (.ts1Detected k body) := ⟨rfl, rfl⟩
theorem Sys2Proof.Laws.Parts.blockLock (k : Link) (lane : Fin 8) (locked : Bool) :
    Statement (.blockLock k lane locked) := ⟨rfl, rfl⟩
theorem Sys2Proof.Laws.Parts.alignComplete (k : Link) (lanes : BitVec 8) :
    Statement (.alignComplete k lanes) := ⟨rfl, rfl⟩
theorem Sys2Proof.Laws.Parts.paramReceived (k : Link) (body : Block) :
    Statement (.paramReceived k body) := ⟨rfl, rfl⟩
theorem Sys2Proof.Laws.Parts.paramAckReceived (k : Link) (body : Block) :
    Statement (.paramAckReceived k body) := ⟨rfl, rfl⟩
theorem Sys2Proof.Laws.Parts.speedCountdownEnd (k : Link) :
    Statement (.speedCountdownEnd k) := ⟨rfl, rfl⟩
theorem Sys2Proof.Laws.Parts.eqReqReceived (k : Link) (body : Block) :
    Statement (.eqReqReceived k body) := ⟨rfl, rfl⟩
theorem Sys2Proof.Laws.Parts.eqDoneReceived (k : Link) (body : Block) :
    Statement (.eqDoneReceived k body) := ⟨rfl, rfl⟩
theorem Sys2Proof.Laws.Parts.readyReceived (k : Link) (lane : Fin 8) (body : Block) :
    Statement (.readyReceived k lane body) := ⟨rfl, rfl⟩
theorem Sys2Proof.Laws.Parts.trainingTimeout (k : Link) :
    Statement (.trainingTimeout k) := ⟨rfl, rfl⟩
theorem Sys2Proof.Laws.Parts.retrain (k : Link) (w : RetrainCause) :
    Statement (.retrain k w) := ⟨rfl, rfl⟩
theorem Sys2Proof.Laws.Parts.eyeMapComplete (n : Lane) (fast : Bool) (points : BitVec 2048) :
    Statement (.eyeMapComplete n fast points) := ⟨rfl, rfl⟩
theorem Sys2Proof.Laws.Parts.dfeAdapt (n : Lane) (errPos d1 d2 d3 : Bool) :
    Statement (.dfeAdapt n errPos d1 d2 d3) := ⟨rfl, rfl⟩
theorem Sys2Proof.Laws.Parts.calBlockSend (n : Lane) :
    Statement (.calBlockSend n) := ⟨rfl, rfl⟩
theorem Sys2Proof.Laws.Parts.calBlockReceived (n : Lane) (body : Block) :
    Statement (.calBlockReceived n body) := ⟨rfl, rfl⟩
theorem Sys2Proof.Laws.Parts.laneSleep (k : Link) :
    Statement (.laneSleep k) := ⟨rfl, rfl⟩
theorem Sys2Proof.Laws.Parts.laneWake (k : Link) :
    Statement (.laneWake k) := ⟨rfl, rfl⟩
theorem Sys2Proof.Laws.Parts.sleepKeepalive (k : Link) :
    Statement (.sleepKeepalive k) := ⟨rfl, rfl⟩
theorem Sys2Proof.Laws.Parts.hostWrite (pa : BitVec 17) (data : Word) (x : Strobe) :
    Statement (.hostWrite pa data x) := ⟨rfl, rfl⟩
theorem Sys2Proof.Laws.Parts.halfReadLatch (pa : BitVec 17) :
    Statement (.halfReadLatch pa) := ⟨rfl, rfl⟩
theorem Sys2Proof.Laws.Parts.eventFlagClear (w : Fin 13) (bits : Word) :
    Statement (.eventFlagClear w bits) := ⟨rfl, rfl⟩
theorem Sys2Proof.Laws.Parts.attnmaskWrite (value : Word) (be : BitVec 4) :
    Statement (.attnmaskWrite value be) := ⟨rfl, rfl⟩
theorem Sys2Proof.Laws.Parts.doorbellRing (bits : Word) :
    Statement (.doorbellRing bits) := ⟨rfl, rfl⟩
theorem Sys2Proof.Laws.Parts.hostltrWrite (value : Word) (be : BitVec 4) :
    Statement (.hostltrWrite value be) := ⟨rfl, rfl⟩
theorem Sys2Proof.Laws.Parts.rearmPulseEnd :
    Statement (.rearmPulseEnd) := ⟨rfl, rfl⟩
theorem Sys2Proof.Laws.Parts.avocetTrigger (c : Chan) :
    Statement (.avocetTrigger c) := ⟨rfl, rfl⟩
theorem Sys2Proof.Laws.Parts.avocetHalfCompletion (c : Chan) :
    Statement (.avocetHalfCompletion c) := ⟨rfl, rfl⟩
theorem Sys2Proof.Laws.Parts.avocetFullCompletion (c : Chan) :
    Statement (.avocetFullCompletion c) := ⟨rfl, rfl⟩
theorem Sys2Proof.Laws.Parts.avocetBusError (c : Chan) (w : BusCause) :
    Statement (.avocetBusError c w) := ⟨rfl, rfl⟩
theorem Sys2Proof.Laws.Parts.listenAgeDiscard (l : Stream) :
    Statement (.listenAgeDiscard l) := ⟨rfl, rfl⟩
theorem Sys2Proof.Laws.Parts.lanepoolAgeDiscard (k : Link) (v : VC) :
    Statement (.lanepoolAgeDiscard k v) := ⟨rfl, rfl⟩
theorem Sys2Proof.Laws.Parts.discover (p : Port) (r : HidFrame) :
    Statement (.discover p r) := ⟨rfl, rfl⟩
theorem Sys2Proof.Laws.Parts.read (p : Port) (r : HidFrame) :
    Statement (.read p r) := ⟨rfl, rfl⟩
theorem Sys2Proof.Laws.Parts.stage (p : Port) (r : HidFrame) :
    Statement (.stage p r) := ⟨rfl, rfl⟩
theorem Sys2Proof.Laws.Parts.commit (p : Port) (r : HidFrame) :
    Statement (.commit p r) := ⟨rfl, rfl⟩
theorem Sys2Proof.Laws.Parts.abort (p : Port) (r : HidFrame) :
    Statement (.abort p r) := ⟨rfl, rfl⟩
theorem Sys2Proof.Laws.Parts.counterSnapshot (p : Port) (r : HidFrame) :
    Statement (.counterSnapshot p r) := ⟨rfl, rfl⟩
theorem Sys2Proof.Laws.Parts.eventSubscribe (p : Port) (r : HidFrame) :
    Statement (.eventSubscribe p r) := ⟨rfl, rfl⟩
theorem Sys2Proof.Laws.Parts.imageTransfer (p : Port) (r : HidFrame) :
    Statement (.imageTransfer p r) := ⟨rfl, rfl⟩
theorem Sys2Proof.Laws.Parts.imageTransferDone (x : FlashResult) :
    Statement (.imageTransferDone x) := ⟨rfl, rfl⟩
theorem Sys2Proof.Laws.Parts.transferIdleTimeout :
    Statement (.transferIdleTimeout) := ⟨rfl, rfl⟩
theorem Sys2Proof.Laws.Parts.slotSwitch (p : Port) (r : HidFrame) :
    Statement (.slotSwitch p r) := ⟨rfl, rfl⟩
theorem Sys2Proof.Laws.Parts.slotSwitchReset :
    Statement (.slotSwitchReset) := ⟨rfl, rfl⟩
theorem Sys2Proof.Laws.Parts.rollbackFloorRaise (p : Port) (r : HidFrame) :
    Statement (.rollbackFloorRaise p r) := ⟨rfl, rfl⟩
theorem Sys2Proof.Laws.Parts.floorRaiseDone :
    Statement (.floorRaiseDone) := ⟨rfl, rfl⟩
theorem Sys2Proof.Laws.Parts.reservedOpcode (p : Port) (opcode : Byte) (r : HidFrame) :
    Statement (.reservedOpcode p opcode r) := ⟨rfl, rfl⟩
theorem Sys2Proof.Laws.Parts.powerLevelChange :
    Statement (.powerLevelChange) := ⟨rfl, rfl⟩
theorem Sys2Proof.Laws.Parts.efftolUpdate :
    Statement (.efftolUpdate) := ⟨rfl, rfl⟩
theorem Sys2Proof.Laws.Parts.s3Entry :
    Statement (.s3Entry) := ⟨rfl, rfl⟩
theorem Sys2Proof.Laws.Parts.s3Exit (w : WakeCause) :
    Statement (.s3Exit w) := ⟨rfl, rfl⟩
theorem Sys2Proof.Laws.Parts.s4Entry (wakeNHigh : Bool) :
    Statement (.s4Entry wakeNHigh) := ⟨rfl, rfl⟩
theorem Sys2Proof.Laws.Parts.bitternFrame (bytes : List Byte) :
    Statement (.bitternFrame bytes) := ⟨rfl, rfl⟩
theorem Sys2Proof.Laws.Parts.bitternLinkChange (up : Bool) :
    Statement (.bitternLinkChange up) := ⟨rfl, rfl⟩
theorem Sys2Proof.Laws.Parts.wakeN :
    Statement (.wakeN) := ⟨rfl, rfl⟩
theorem Sys2Proof.Laws.Parts.s4Exit :
    Statement (.s4Exit) := ⟨rfl, rfl⟩
theorem Sys2Proof.Laws.Parts.scrubRead (m : MemoryId) (u : List Upset) :
    Statement (.scrubRead m u) := ⟨rfl, rfl⟩
theorem Sys2Proof.Laws.Parts.freezeN (lowNs : Nat) (ps : Fin 1250) :
    Statement (.freezeN lowNs ps) := ⟨rfl, rfl⟩
theorem Sys2Proof.Laws.Parts.readoutStart (memsel : Bool) :
    Statement (.readoutStart memsel) := ⟨rfl, rfl⟩
theorem Sys2Proof.Laws.Parts.readoutEnd :
    Statement (.readoutEnd) := ⟨rfl, rfl⟩
theorem Sys2Proof.Laws.Parts.slotSwitchCheckDone (r : SlotRead) :
    Statement (.slotSwitchCheckDone r) := ⟨rfl, rfl⟩
theorem Sys2Proof.Laws.Parts.portLowPowerEntry (p : Port) :
    Statement (.portLowPowerEntry p) := ⟨rfl, rfl⟩
theorem Sys2Proof.Laws.Parts.portLowPowerExit (p : Port) :
    Statement (.portLowPowerExit p) := ⟨rfl, rfl⟩
theorem Sys2Proof.Laws.Parts.readoutNibble :
    Statement (.readoutNibble) := ⟨rfl, rfl⟩
theorem Sys2Proof.Laws.Parts.dunlinSecondsWrap (c : Fin 3) :
    Statement (.dunlinSecondsWrap c) := ⟨rfl, rfl⟩
theorem Sys2Proof.Laws.Parts.vinRestart (mv : Nat) :
    Statement (.vinRestart mv) := ⟨rfl, rfl⟩
end

