-- ==== Sys2Proof/Laws/Requests.lean ====
section
/-!
SUPPORT. The frame of a Hidiquel request: what it drops, refuses or answers changes the management path and
the counters, and what its work changes.
-/
namespace Sys2Proof.Machine

variable {w : List Part} {s t : State}

@[simp] theorem same_lockedOr {a b : Bool} {work : State → State × Option (Nat × List Byte)}
    (h : ∀ u, SameBut w u (work u).1) : SameBut w s (lockedOr a b work t).1 ↔ SameBut w s t := by
  refine SameBut.congr ?_
  simp only [lockedOr]
  split
  · exact SameBut.refl
  · split
    · exact SameBut.refl
    · exact h t

@[simp] theorem same_request {p : Port} {op : Nat} {r : HidFrame} {work : State → State × Option (Nat × List Byte)}
    (hw : ∀ u, SameBut w u (work u).1) (h : .mgmtRx ∈ w ∧ .counters ∈ w) :
    SameBut w s (request p op r work t) ↔ SameBut w s t := by
  refine SameBut.congr ?_
  have k : ∀ u : State, SameBut w u (match work u with
      | (v, some (status, payload)) => respond (askerOf p r) op status payload v
      | (v, none) => renewSession v) := by
    intro u
    have hu := hw u
    split <;> rename_i e <;> rw [e] at hu
    · exact (by simp [h] : SameBut w _ (respond _ _ _ _ _) ↔ SameBut w _ _).2 hu
    · exact same_renewSession.2 hu
  simp only [request]
  split
  · simp [h]
  · refine SameBut.trans ?_ (k _)
    split <;> simp [h]

end Sys2Proof.Machine
end

