-- ==== Sys2Proof/Laws/Resets.lean ====
section
/-!
SUPPORT. What the internal reset leaves (02 R29, R43): one equation for the state, and that the state after any
command that asserts it is the reset state but for what Bittern's domain, the supplies and the OTP hold.
-/
namespace Sys2Proof.Machine

variable {s t u v o : State}

@[simp] theorem cutRaise_fields :
    (cutRaise s).pending = s.pending ∧ (cutRaise s).frameIds = s.frameIds ∧ (cutRaise s).out = s.out ∧
    (cutRaise s).supply = s.supply ∧ (cutRaise s).boot = s.boot ∧ (cutRaise s).counters = s.counters ∧
    (cutRaise s).tables = s.tables ∧ (cutRaise s).power = s.power := by
  simp only [cutRaise]
  split <;> exact ⟨rfl, rfl, rfl, rfl, rfl, rfl, rfl, rfl⟩

@[simp] theorem setPgood_fields {b : Bool} :
    (setPgood b s).pending = s.pending ∧ (setPgood b s).boot = s.boot ∧ (setPgood b s).counters = s.counters ∧
    (setPgood b s).supply = { s.supply with pgood := b } ∧ (setPgood b s).hid = s.hid ∧ (setPgood b s).otp = s.otp ∧
    (setPgood b s).fuses = s.fuses ∧ (setPgood b s).free = s.free ∧ (setPgood b s).power = s.power := by
  simp only [setPgood]
  split
  · rename_i h; subst h; exact ⟨rfl, rfl, rfl, rfl, rfl, rfl, rfl, rfl, rfl⟩
  · exact ⟨rfl, rfl, rfl, rfl, rfl, rfl, rfl, rfl, rfl⟩

/-- The fuses after a reset that cuts a floor raise short, or none in flight (13 R298). -/
theorem cutRaise_otp : (cutRaise s).otp = s.otp ∨ ∃ n, (cutRaise s).otp =
    { s.otp with floor := blowFuses n s.otp.floor } := by
  simp only [cutRaise]
  split
  · exact .inr ⟨_, rfl⟩
  · exact .inl rfl

/-- The pins take their reset levels (02 R23, table 23): the log grows and nothing else changes. -/
theorem resetPins_eq : resetPins s = { s with out := (resetPins s).out } := by
  simp only [resetPins, each, List.foldl, driveQ]
  cases h : s.supply.bankQ.unpowered <;> simp [emit, h]

/-- The state after the internal reset. -/
theorem fullReset_eq : fullReset s = { State.reset with
    pending := s.pending
    free := (cutRaise s).free
    frameIds := s.frameIds
    out := (resetPins s).out
    otp := (cutRaise s).otp
    fuses := (cutRaise s).fuses
    supply := { s.supply with
      inReset := true, overtemp := false, srefFault := false
      bankP := { BankSt.init with unpowered := s.supply.bankP.unpowered }
      bankQ := { BankSt.init with unpowered := s.supply.bankQ.unpowered } }
    boot := { Boot.init with standKnown := s.boot.standKnown, standA := s.boot.standA, standB := s.boot.standB }
    counters := s.counters.filter (fun x => keptCounter x.1) } := by
  have k : (cutRaise (resetPins s)).free = (cutRaise s).free ∧ (cutRaise (resetPins s)).otp = (cutRaise s).otp ∧
      (cutRaise (resetPins s)).fuses = (cutRaise s).fuses := by
    rw [resetPins_eq]
    simp only [cutRaise]
    split <;> exact ⟨rfl, rfl, rfl⟩
  obtain ⟨k1, k2, k3⟩ := k
  have e := resetPins_eq (s := s)
  simp only [fullReset, resetFrom, cutRaise_fields, k1, k2, k3]
  generalize (resetPins s).out = l at e ⊢
  rw [e]

theorem mFind_filter {α : Type} {m : SMap α} {f : Nat → Bool} {i : Nat} :
    mFind (m.filter fun x => f x.1) i = if f i then mFind m i else none := by
  induction m with
  | nil => simp [mFind]
  | cons x r ih =>
    simp only [List.filter_cons]
    split <;> simp only [mFind, ih] <;> (repeat' split) <;> simp_all

theorem mGetD_kept {m : SMap Nat} {i : Nat} :
    mGetD (m.filter fun x => keptCounter x.1) i 0 = if keptCounter i then mGetD m i 0 else 0 := by
  simp only [mGetD, mFind_filter]
  split <;> rfl

/-- In reset the pins follow and nothing else. -/
theorem publish_inReset (h : t.supply.inReset = true) : publish o t = drivePins o t := by simp [publish, h]

theorem drivePins_idle (h : patnOn t = false) : (drivePins o t).station = t.station ∧
    (drivePins o t).ports = t.ports ∧ (drivePins o t).classQ = t.classQ ∧ (drivePins o t).hid = t.hid ∧
    (drivePins o t).counters = t.counters := by
  have k : ∀ u : State, patnOn u = false → ({ u.station with
      attnCount := if patnOn u then u.station.attnCount + 1 else u.station.attnCount
      attnAt := if patnOn u then some u.now else u.station.attnAt } : Station) = u.station :=
    fun u hu => by simp [hu]
  simp only [drivePins]
  split <;> split
  · exact ⟨rfl, rfl, rfl, rfl, rfl⟩
  · exact ⟨k (emit _ (emit _ t)) h, rfl, rfl, rfl, rfl⟩
  · exact ⟨rfl, rfl, rfl, rfl, rfl⟩
  · exact ⟨k (emit _ t) h, rfl, rfl, rfl, rfl⟩

/-- Every command that asserts the internal reset leaves the reset state, whatever it did to the supplies. -/
theorem wasReset_publish {x : Supply} (hx : x.inReset = true) (hp : v.pending = s.pending)
    (hb : v.boot.standKnown = s.boot.standKnown ∧ v.boot.standA = s.boot.standA ∧ v.boot.standB = s.boot.standB)
    (hc : v.counters = s.counters) :
    WasReset s (publish o { fullReset v with supply := x }) := by
  generalize hu : ({ fullReset v with supply := x } : State) = u
  have e : u.supply.inReset = true := by rw [← hu]; exact hx
  have q : patnOn u = false := by simp [patnOn, e]
  have f : SameBut [.pending, .supply, .boot, .otp, .counters] State.reset u := by
    rw [← hu, fullReset_eq]
    intro p hp
    cases p <;> first | rfl | exact fun _ => rfl | exact fun _ _ => rfl | simp at hp
  rw [publish_inReset e]
  obtain ⟨a, b, c, d, k⟩ := drivePins_idle (o := o) q
  have g : SameBut [] u (drivePins o u) := same_drivePins.2 SameBut.refl
  refine ⟨same_drivePins.2 f, ?_, ?_, ?_, ?_, ?_, ?_, ?_, ?_⟩
  · rw [a, ← hu, fullReset_eq]; rfl
  · rw [b, ← hu, fullReset_eq]; rfl
  · rw [c, ← hu, fullReset_eq]; rfl
  · rw [d, ← hu, fullReset_eq]; rfl
  · exact ((g .supply (by simp)) ▸ e : _)
  · refine Eq.trans (g .pending (by simp)).symm ?_; rw [← hu, fullReset_eq]; exact hp
  · refine Eq.trans (g .boot (by simp)).symm ?_; rw [← hu, fullReset_eq]; simp [hb]
  · intro id; rw [k, ← hu, fullReset_eq]; simp only [hc]; exact mGetD_kept

end Sys2Proof.Machine
end

