-- ==== Sys2Proof/Laws/Wires.lean ====
section
/-!
SUPPORT. The log of pins and wires, and the event flags, under what follows every command: publish only adds to
the log, and sets the EVENTS bits that a change calls for (10 R244).
-/
namespace Sys2Proof.Machine

variable {s t o : State}

/-- The log and the station block are as they were. -/
def Unheard (s t : State) : Prop := t.out = s.out ∧ t.station = s.station

theorem Unheard.refl : Unheard s s := ⟨rfl, rfl⟩

theorem Unheard.trans {u : State} (h : Unheard s t) (h' : Unheard t u) : Unheard s u :=
  ⟨h'.1.trans h.1, h'.2.trans h.2⟩

theorem unheard_each {α : Type} {l : List α} {f : α → State → State} (h : ∀ a t, Unheard t (f a t)) :
    Unheard t (each l f t) := by
  unfold each
  induction l generalizing t with
  | nil => exact Unheard.refl
  | cons a r ih => exact (h a t).trans ih

theorem unheard_enqueueFrame {p c : Nat} {f : Frame} : Unheard t (enqueueFrame p c f t) := by
  simp only [enqueueFrame, releaseFrame, whenB, freeCells]
  (repeat' split) <;> exact ⟨rfl, rfl⟩

theorem unheard_queueDevice {ports : List Nat} {f : Frame} : Unheard t (queueDevice ports f t) := by
  simp only [queueDevice]
  split
  · exact ⟨rfl, rfl⟩
  · exact unheard_each fun _ _ => unheard_enqueueFrame

theorem unheard_sendEventOn {ports : List Nat} {c a : Nat} {d : List Byte} :
    Unheard t (sendEventOn ports c a d t) := by
  simp only [sendEventOn]
  exact Unheard.trans ⟨rfl, rfl⟩ unheard_queueDevice

theorem unheard_announce {ports : List Nat} : Unheard t (announce ports t) := by
  simp only [announce]
  split
  · exact Unheard.refl
  · exact unheard_sendEventOn.trans (unheard_each fun _ _ => ⟨rfl, rfl⟩)

theorem unheard_renewSession : Unheard t (renewSession t) := by
  simp only [renewSession]
  split
  · exact Unheard.trans (u := bumpDev 41 (announce (announcePorts t) (drawSession t)))
      (Unheard.trans (t := drawSession t) ⟨rfl, rfl⟩ unheard_announce) ⟨rfl, rfl⟩
  · exact Unheard.refl

theorem unheard_sendEvent {c a : Nat} {d : List Byte} : Unheard t (sendEvent c a d t) := by
  simp only [sendEvent]
  split
  · split <;> exact ⟨rfl, rfl⟩
  · exact unheard_sendEventOn.trans unheard_renewSession

theorem unheard_notify {c a : Nat} {d : List Byte} : Unheard t (notify c a d t) := by
  simp only [notify]
  split
  · exact unheard_sendEvent
  · exact Unheard.refl

theorem unheard_changeFrames {n : State} : Unheard t (changeFrames o n t) := by
  simp only [changeFrames]
  have inner : ∀ v : State, Unheard t v → Unheard t (each (List.range 4) (fun p s =>
      if (port o p).up != (port n p).up || (port o p).live != (port n p).live
      then notify 6 p (leBytes 1 p ++ leBytes 1 (portByte n p)) s else s)
      (each (List.range 32) (fun k s => if linkCode (link o k) != linkCode (link n k)
        then notify 5 k (leBytes 1 k ++ leBytes 1 (linkCode (link n k))) s else s) v)) := by
    intro v hv
    refine hv.trans ((unheard_each fun _ _ => ?_).trans (unheard_each fun _ _ => ?_)) <;>
      (split; exact unheard_notify; exact Unheard.refl)
  have first : Unheard t (each (List.range (n.faults.made - o.faults.made)) (fun i s =>
      notify 3 0 (leBytes 1 ((o.faults.made + i) % 64) ++ mGetD n.faults.entries ((o.faults.made + i) % 64) []) s) t) :=
    unheard_each fun _ _ => unheard_notify
  split
  · refine Unheard.trans ?_ unheard_notify
    refine inner _ ?_
    split
    · exact first.trans unheard_notify
    · exact first
  · refine inner _ ?_
    split
    · exact first.trans unheard_notify
    · exact first

theorem mem_drivePins {e : Emission} (h : e ∈ t.out) : e ∈ (drivePins o t).out := by
  simp only [drivePins]
  (repeat' split) <;> simp [h]

theorem flags_drivePins : (drivePins o t).station.events = t.station.events ∧
    (drivePins o t).station.chHalf = t.station.chHalf ∧ (drivePins o t).station.chFull = t.station.chFull ∧
    (drivePins o t).station.hevt = t.station.hevt := by
  simp only [drivePins]
  (repeat' split) <;> exact ⟨rfl, rfl, rfl, rfl⟩

/-- What a command has put on a wire stays in the log. -/
theorem mem_out_publish {e : Emission} (h : e ∈ t.out) : e ∈ (publish o t).out := by
  simp only [publish]
  split
  · exact mem_drivePins h
  · refine mem_drivePins ?_
    rw [unheard_changeFrames.1]
    exact h

/-- The EVENTS bits that a change calls for are set, and no flag is cleared (10 R244). -/
theorem flags_publish : (publish o t).station.events =
      (if t.supply.inReset || t.power.level == 4 || !t.boot.cleared then t.station.events
       else t.station.events ||| changeBits o t) ∧
    (publish o t).station.chHalf = t.station.chHalf ∧ (publish o t).station.chFull = t.station.chFull ∧
    (publish o t).station.hevt = t.station.hevt := by
  simp only [publish]
  split
  · exact flags_drivePins
  · have h := unheard_changeFrames (o := o) (n := t) (t := raiseFlags (changeBits o t) 0 0 0 t)
    obtain ⟨a, b, c, d⟩ := flags_drivePins (o := o) (t := changeFrames o t (raiseFlags (changeBits o t) 0 0 0 t))
    refine ⟨a.trans ?_, b.trans ?_, c.trans ?_, d.trans ?_⟩ <;> rw [h.2] <;> simp [raiseFlags]

end Sys2Proof.Machine
end

