-- ==== Sys2Proof/Tests/Slice0.lean ====
section
/-!
SUPPORT. Small checks: an ill-formed operand for each check of WellFormed.lean; for each statement a concrete state
and operands that meet the hypotheses of each of its clauses, at the ends of their ranges; and one-step checks of
values worked out from the spec.
-/
namespace Sys2Proof.Tests
open Sys2Proof Sys2Proof.Machine

set_option Elab.async false

/-! ### Ill-formed commands are refused by name of the check -/

def hid0 : HidFrame :=
  { dst := 0, src := 0, ctag := none, version := 1, flags := 0, serial := 0, counter := 1, reqTag := 0, length := 0
    payload := [], tag := 0 }

theorem test_wf_frame_empty : (Instr.frameReceive 0 [] false).wf = false := by decide
theorem test_wf_bittern_frame_empty : (Instr.bitternFrame []).wf = false := by decide
theorem test_wf_mpacket_empty : (Instr.mpacketReceived 0 (Mpacket.mk true 0 0 false true [])).wf = false := by decide
theorem test_wf_pfc_quanta :
    (Instr.pfcReceived 0 { enable := 0, quanta := [0] }).wf = false ∧
    (Instr.pfcReceived 0 { enable := 0, quanta := [65536, 0, 0, 0, 0, 0, 0, 0] }).wf = false := by decide
theorem test_wf_announce_fields : ∀ i ∈ [0, 1, 2, 3, 4, 5, 6, 7, 8], (Instr.announceReceived {
    number := if i = 6 then 256 else 0, logInterval := if i = 7 then 128 else if i = 8 then -129 else 0
    port := 0, gm := 0, source := 0
    priority1 := if i = 0 then 256 else 0, clockClass := if i = 1 then 256 else 0
    accuracy := if i = 2 then 256 else 0, variance := if i = 3 then 65536 else 0
    priority2 := if i = 4 then 256 else 0, steps := if i = 5 then 65536 else 0 }).wf = false := by decide
theorem test_wf_sync_number : (Instr.syncReceived { number := 256, port := 0, master := 0, phase := 0, gm := 0 }).wf = false := by
  decide
theorem test_wf_rows : (Instr.packetReceived 0 [] [[]] [] []).wf = false ∧
    (Instr.packetReceived 0 [[0]] [] [] [List.replicate 9 0]).wf = false := by decide
theorem test_wf_slot_read (l : List Byte) (h : 4194304 < l.length) :
    (Instr.slotCheckDone { answers := true, bytes := l, broken := false }).wf = false ∧
    (Instr.slotSwitchCheckDone { answers := true, bytes := l, broken := false }).wf = false ∧
    (Instr.imageTransferDone { programmed := true, read := { answers := true, bytes := l, broken := false } }).wf
      = false := by
  simp [Instr.wf, SlotRead.wf, h]
theorem test_wf_heron_upsets : ∀ u ∈ [HeronUpset.gateBit 0 0 1024 0 false, .gateBit 0 0 0 64 false,
    .eventBit 0 1024 0 false, .eventBit 0 0 64 false, .entry 0 0 1024, .nextEvent 0 1024, .fired 0 1024],
    (Instr.heronVote [u]).wf = false := by decide
theorem test_wf_upsets : ∀ u ∈ [Upset.mk .singleTables 3 0 [], Upset.mk .packetBuffer 0 0 [72]],
    (Instr.scrubRead .packetBuffer [u]).wf = false := by decide
theorem test_wf_request_length :
    ∀ c ∈ [Instr.discover 0, .read 0, .stage 0, .commit 0, .abort 0, .counterSnapshot 0, .eventSubscribe 0,
      .imageTransfer 0, .slotSwitch 0, .rollbackFloorRaise 0, .reservedOpcode 0 0],
      (c { hid0 with length := 65536 }).wf = false := by decide
theorem test_wf_request_payload : (Instr.read 0 { hid0 with payload := List.replicate 8965 0 }).wf = false := by
  decide +kernel
theorem test_wf_reserved_opcode : ∀ o ∈ [1, 2, 3, 4, 5, 6, 7, 8, 9, 10],
    (Instr.reservedOpcode 0 (BitVec.ofNat 8 o) hid0).wf = false := by decide
theorem test_wf_pulses : (Instr.resetN 0).wf = false ∧ (Instr.freezeN 0 0).wf = false := by decide
theorem test_wf_sound : (Instr.frameReceive 0 [0] false).wf = true ∧ (Instr.reservedOpcode 0 11 hid0).wf = true ∧
    (Instr.read 0 hid0).wf = true := by decide

/-! ### States -/

/-- Out of reset, its supplies up. -/
def up : State := { State.reset with supply := { Supply.init with
  seqOn := true, converters := .running, pgood := true, inReset := false } }

/-- In SERVICE with Heron started, lane plan 0 and no tables. -/
def svc : State := { up with
  boot := { Boot.init with phase := .service, pllLocked := true, cleared := true, otpRead := true }
  ladder := { Ladder.init with done := true }
  heron := { Heron.init with started := true } }

def frz : State := { svc with freeze := { Freeze.init with latched := true } }
def lockd : State := { svc with straps := { BinaryStraps.init with mgmtLock := true } }

/-- What a step leaves. -/
def stepped (s : State) : State := match step s with | .next t => t | _ => s
def ask (c : Instr) (s : State) : State := { s with pending := [c] }

/-- Every command answers a next state. -/
theorem answers (c : Instr) (s : State) : ∃ t, exec c s = .next t := by
  obtain ⟨g, op, h⟩ := exec_is_act c s
  cases g
  · exact ⟨s, h⟩
  · exact ⟨_, h⟩

/-! ### Witnesses: the block -/

theorem test_wit_stepRunsFrontCommand : ({ up with pending := [.wakeN, .s4Exit] } : State).pending = .wakeN :: [.s4Exit] := rfl
theorem test_wit_idleStep : up.pending = [] ∧ running State.reset = false ∧ running up = true ∧
    (1 = if up.power.level = 3 then 32 else 1) ∧
    running { up with power := { Power.init with level := 3 } } = true := by decide
theorem test_wit_anyCommand : ∃ t, exec .railsInRegulation up = .next t := answers _ _
theorem test_wit_stepKeepsImageForm : memWf ({ up with mem := [(0, 1)], pending := [.wakeN] } : State).mem = true ∧
    ∃ t, step { up with mem := [(0, 1)], pending := [.wakeN] } = .next t := ⟨by decide, answers .wakeN _⟩
theorem test_wit_frozenDeviceHolds : frz.freeze.latched = true ∧ whileFrozen .corePllLock = false ∧
    (∃ t, exec (.halfReadLatch 0) frz = .next t) ∧ ∃ t, exec (.readoutStart false) frz = .next t :=
  ⟨rfl, rfl, answers _ _, answers _ _⟩
theorem test_wit_managementLockHolds : lockd.straps.mgmtLock = true ∧ ∃ t, exec (.stage 0 hid0) lockd = .next t :=
  ⟨rfl, answers _ _⟩
theorem test_wit_unproven : hidServes svc = true ∧
    (requestFails (takeReceived 0 1 { hid0 with version := 2 } svc) 0 1 { hid0 with version := 2 }).isSome = true := by
  decide +kernel
theorem test_wit_fusesOnlyBlow : (∃ t, exec .floorRaiseDone svc = .next t) ∧ ∀ x y z, Instr.floorRaiseDone ≠ .otpReadDone x y z :=
  ⟨answers _ _, fun _ _ _ h => by cases h⟩
/-- What a command leaves. -/
def after (c : Instr) (s : State) : State := match exec c s with | .next t => t | _ => s

theorem after_next (c : Instr) (s : State) : exec c s = .next (after c s) := by
  obtain ⟨t, h⟩ := answers c s
  rw [after, h]

def withPort (p : Nat) (x : PortSt) : State := setPort svc p x
def withLink (k : Nat) (x : LinkSt) : State := setLink svc k x
def upPort : PortSt := { PortSt.init with mode := 1, up := true, live := true }
def activeLink : LinkSt := { LinkSt.init with st := .active, finalMask := 1, locked := 1, aligned := 1 }
def withTables (t : Tables) : State := { svc with tables := t }
def withDom (x : DomSt) : State := { svc with dunlin := { Dunlin.init with dom0 := x } }
def lockedDom : DomSt := { DomSt.init with st := .locked }

/-- A region of one word whose outbound data is stale once the watchdog expires. -/
def outRegion : PimapRec := { base := 0, len := 1, kind := 1, banked := false, swapId := 0, base1 := 0 }
/-- Heron at a cycle boundary, the watchdog one miss from its window. -/
def missing : State := { svc with
  tables := { emptyTables with pimap := [(0, outRegion)] }
  heron := { Heron.init with started := true, len := 1, acc := 1 }
  station := { Station.init with hbWindow := 1 } }

/-- A watchdog that compares as the ck ends, and a fault whose entry is due in the next. -/
def expiring : State := { missing with
  heron := { Heron.init with started := true, len := 2 ^ 60 }
  station := { Station.init with hbWindow := 1, wdDue := true } }
def entering : State := { svc with faults := { FaultLog.init with
  waiting := [{ due := 1, code := 0x80, subject := 0, body := List.replicate 44 0 }] } }

theorem test_wit_eventFlagsFollowChanges :
    (∀ x ∈ [expiring, entering, ask (.syncLossTimeout 0) (withDom lockedDom),
      ask (.dcqFault (.lane 0)) (withLink 0 activeLink), ask (.portDown 0 .blockLock) (withPort 0 upPort)],
      (stepped x).supply.inReset = false ∧ (stepped x).power.level ≠ 4 ∧ (stepped x).boot.cleared = true) ∧
    staleBits expiring ≠ staleBits (stepped expiring) ∧
    expiring.station.wdExp = false ∧ (stepped expiring).station.wdExp = true ∧
    entering.faults.made ≠ (stepped entering).faults.made ∧
    timeLock (withDom lockedDom) ≠ timeLock (stepped (ask (.syncLossTimeout 0) (withDom lockedDom))) ∧
    linkCode (link (withLink 0 activeLink) 0) ≠
      linkCode (link (stepped (ask (.dcqFault (.lane 0)) (withLink 0 activeLink))) 0) ∧
    (port (withPort 0 upPort) 0).up ≠ (port (stepped (ask (.portDown 0 .blockLock) (withPort 0 upPort))) 0).up := by
  decide +kernel
theorem test_wit_statusPinsFollow : faultLow svc ≠ faultLow (stepped (ask (.bankBrownOut .p 1599) svc)) ∧
    patnOn entering ≠ patnOn (stepped entering) := by decide +kernel
theorem test_wit_cyclesAdvanceByOne : ckRuns missing = true ∧ boundaryDue missing = true ∧
    missing.heron.started = true ∧ assertsReset .wheelSlot = false := by decide +kernel
theorem test_wit_imageFrame : storesTo (.hostWrite 0 1 ⟨0xF, 0⟩) svc (4 / 4) = false ∧
    storesTo (.hostWrite 0 1 ⟨0xF, 4⟩) svc (3 / 4) = true := by decide +kernel

/-! ### Witnesses: supplies and start-up -/

def dark : State := State.reset
def supplyUp : State := { dark with supply := { Supply.init with seqOn := true, converters := .running } }
def ready : State := { dark with supply := { Supply.init with seqOn := true, converters := .running, pgood := true } }
def switching : State := { svc with hid := { Hidiquel.init with
  switch := some { slot := .a, asker := { port := 0, src := 0, ctag := none, reqTag := 0 }, answer := none
                   resetAt := some 0 } } }

theorem test_wit_suppliesComplete : dark.supply.seqOn = false ∧ 4200 < 4201 ∧ (1620 < 1621 ∧ 4199 < 4200) ∧
    (supplyUp.supply.seqOn = true ∧ Supply.init = Supply.init) ∧ supplyUp.supply.seqOn = true ∧ supplyUp.supply.pgood = false ∧ supplyUp.supply.thermalOff = false ∧
    supplyUp.supply.converters = .running ∧
    (∀ s ∈ [({ dark with supply := { Supply.init with vinLow := true, converters := .stopped } } : State)],
      4400 < 4401 ∧ s.supply.vinLow = true ∧ s.supply.converters = .stopped) := by decide
theorem test_wit_resetCausesComplete : up.supply.pgood = true ∧ railWatched up .vddCore = true ∧
    railWatched { up with power := { Power.init with level := 4 } } .vaux = true ∧ 2000 ≤ 2000 ∧ 499 < 500 ∧
    (500 ≤ 500 ∧ 1999 < 2000) ∧ (4199 < 4200 ∧ up.supply.seqOn = true ∧ up.supply.extpwr = false ∧
      up.supply.vinLow = false ∧ up.supply.converters = .running ∧ up.supply.pgood = true) ∧
    (∀ s ∈ [({ up with supply := { up.supply with converters := .stopped, thermalOff := true } } : State)],
      s.supply.vinLow = false ∧ s.supply.converters ≠ .running) ∧
    (up.supply.inReset = false ∧ up.power.bittern = none) ∧
    (up.supply.seqOn = true ∧ up.supply.thermalOff = false ∧ (140 : Int) ≤ 140) ∧
    (∀ s ∈ [({ up with supply := { up.supply with thermalOff := true } } : State)],
      s.supply.seqOn = true ∧ s.supply.thermalOff = true ∧ (114 : Int) < 115) ∧
    hidServes switching = true ∧ switchResetDue switching = true := by decide +kernel
theorem test_wit_releaseCompletes : ready.supply.pgood = true ∧ ready.supply.inReset = true ∧
    ready.supply.thermalOff = false ∧ ready.power.bittern = none ∧ ready.boot.cleared = false := by decide
theorem test_wit_clockBankAndHeatFaultsComplete :
    (running svc = true ∧ svc.supply.srefFault = false) ∧
    (∀ s ∈ [({ svc with supply := { svc.supply with srefFault := true } } : State)],
      running s = true ∧ s.supply.srefFault = true) ∧
    ((bankOf svc .q).brown = false ∧ 1599 < (if (bankOf svc .q).hi then 2950 else 1600)) ∧
    (∀ s ∈ [({ svc with supply := { svc.supply with bankP := { BankSt.init with hi := true } } } : State)],
      (bankOf s .p).brown = false ∧ 2949 < (if (bankOf s .p).hi then 2950 else 1600)) ∧
    (∀ s ∈ [({ svc with supply := { svc.supply with
        bankP := { BankSt.init with hi := true, brown := true }, bankQ := { BankSt.init with brown := true } } } : State)],
      running s = true ∧ (bankOf s .p).brown = true ∧ (if (bankOf s .p).hi then 3050 else 1650) < 3051 ∧
        (bankOf s .q).brown = true ∧ (if (bankOf s .q).hi then 3050 else 1650) < 1651) ∧
    (if svc.supply.overtemp then (125 : Int) < 115 else 125 ≤ (125 : Int)) ∧
    (∀ s ∈ [({ svc with supply := { svc.supply with overtemp := true } } : State)],
      if s.supply.overtemp then (114 : Int) < 115 else 125 ≤ (114 : Int)) ∧
    ckRuns svc = true ∧ laneHome (withLink 31 activeLink) 31 = some (31, 0) ∧
    (link (withLink 31 activeLink) 31).st = .active := by decide +kernel

def early : State := { up with boot := { Boot.init with phase := .early, pllLocked := true, cleared := true, otpRead := true } }
def trying : State := { svc with boot := { Boot.init with phase := .loadFirst, trying := some .a } }
def img : Image := { version := 0, keySlot := 0, revoke := 0, ignored := 0, linkAbsent := 0, tables := emptyTables, keys := [] }
def waiting : State := { svc with
  boot := { Boot.init with phase := .waitTime, cleared := true }
  tables := { emptyTables with time := { noTime with policy := 1 } } }

theorem test_wit_earlyStartComplete :
    (∀ s ∈ [({ up with ladder := { Ladder.init with active := true }, now := 80000 } : State)],
      running s = true ∧ s.ladder.active = true ∧ usCk (100 + 50 * s.ladder.taken) ≤ s.now) ∧
    (running up = true ∧ up.boot.pllLocked = false ∧ up.boot.otpRead = false) ∧
    (∀ s ∈ [({ up with boot := { Boot.init with pllLocked := true } } : State)],
      s.boot.pllLocked = true ∧ s.boot.cleared = false ∧ s.boot.clearDue ≤ s.now ∧ s.supply.bankQ.unpowered = false) ∧
    otpReadable ⟨fullOtp, OtpBits.init⟩ ⟨fullOtp, OtpBits.init⟩ ⟨OtpBits.init, fullOtp⟩ = true ∧
    otpReadable ⟨OtpBits.init, OtpBits.init⟩ ⟨fullOtp, OtpBits.init⟩ ⟨OtpBits.init, fullOtp⟩ = false := by
  decide +kernel
theorem test_wit_slotsAndServiceComplete :
    (running early = true ∧ early.boot.phase = .early ∧ early.boot.otpRead = true ∧ early.boot.otpBad = false ∧
      early.boot.jedecDone = false ∧ early.boot.standKnown = false) ∧
    (running trying = true ∧ trying.ladder.done = true ∧ trying.boot.trying = some .a ∧
      (checkRegion trying .a ⟨false, [], false⟩).image = none ∧
      earlyFailure (checkRegion trying .a ⟨false, [], false⟩) = true) ∧
    (∀ s ∈ [({ svc with boot := { Boot.init with phase := .config, image := some img } } : State)],
      s.boot.phase = .config ∧ s.boot.image = some img) ∧
    (waiting.boot.phase = .waitTime ∧ waiting.boot.startCond = false ∧ waiting.tables.time.policy = 1 ∧
      waiting.boot.configEnd + msCk waiting.tables.time.timeoutMs ≤ waiting.now) ∧
    (∀ s ∈ [({ waiting with boot := { waiting.boot with startCond := true } } : State)],
      s.boot.phase = .waitTime ∧ s.boot.startCond = true ∧ gridHere s = true) := by decide +kernel

/-! ### Witnesses: Dunlin and Heron -/

def gptp : Tables := { emptyTables with time := { noTime with en0 := true, mask0 := 15, ppsUs := 65535 } }
def acquiring : State := { setPort (withTables gptp) 0 upPort with
  dunlin := { Dunlin.init with dom0 := { DomSt.init with st := .acquire, slavePort := some 0 } } }
def sync0 : SyncInfo := { number := 0, port := 0, master := 0, phase := 7, gm := 1 }
def announce0 : AnnounceInfo :=
  { number := 0, logInterval := 0, port := 0, priority1 := 0, clockClass := 0, accuracy := 0, variance := 0, priority2 := 0, gm := 1
    steps := 254, source := 0 }

theorem test_wit_domainsComplete :
    (ckRuns acquiring = true ∧ domOf acquiring sync0.number = some 0 ∧
      inMask acquiring 0 sync0.port.val = true ∧ (port acquiring sync0.port.val).up = true ∧
      (dom acquiring 0).slavePort = some sync0.port) ∧
    (∀ s ∈ [({ withDom { lockedDom with lastSync := some 0 } with now := 800000 } : State)],
      (dom s 0).st = .locked ∧ (dom s 0).lastSync = some 0 ∧ 0 + msCk s.tables.time.lossMs ≤ s.now) ∧
    (∀ s ∈ [({ svc with dunlin := { Dunlin.init with dom0 := lockedDom, dom1 := lockedDom } } : State)],
      (dom s 0).st = .locked ∧ (dom s 0).lastSync = none ∧ s.dunlin.working = 0 ∧ (dom s (otherDom 0)).st = .locked) ∧
    (∀ s ∈ [({ svc with dunlin := { Dunlin.init with slewPpm := 1 } } : State)],
      s.dunlin.h = 0 ∧ s.dunlin.slewPpm ≠ 0) ∧
    (announce0.steps < 255 ∧ domOf acquiring announce0.number = some 0 ∧ domPort acquiring 0 announce0.port = true ∧
      acquiring.now < acquiring.now + announceTimeout announce0) ∧
    (∀ s ∈ [({ svc with dunlin := { Dunlin.init with localCount := 2 ^ 48 * unitsPerSec } } : State)],
      running s = true ∧ 2 ^ 48 * unitsPerSec ≤ counterValue s 0) := by decide +kernel
theorem test_wit_linkDelayAndLatencyComplete :
    ckRuns acquiring = true ∧ gptpPort acquiring 0 = true ∧ (port acquiring 0).pdelayDue ≤ acquiring.now ∧
    (∀ s ∈ [setPort acquiring 0 { upPort with pdelayT1 := some 0, pdelayResp := some (1, 2) }],
      gptpPort s 0 = true ∧ (port s 0).pdelaySeq = 0 ∧ (port s 0).pdelayT1 = some 0 ∧
        (port s 0).pdelayResp = some (1, 2)) ∧
    ((port acquiring 0).lowPower = false ∧ (port acquiring 0).latencyDue ≤ acquiring.now) := by decide +kernel
theorem test_wit_timePinsComplete :
    (∀ x ∈ [(none, 0), (some 0, 400000000), (some 0, 399999999)], ∀ s ∈ [({ withTables gptp with now := x.2, dunlin :=
        { Dunlin.init with dom0 := lockedDom, ppsLast := x.1 } } : State)],
      ckRuns s = true ∧ ppsRuns s = true ∧ s.tables.time.ppsUs ≠ 0 ∧ secondHere s = true ∧ s.dunlin.ppsLast = x.1) ∧
    0 + 400000000 ≤ 400000000 ∧ 399999999 < 0 + 400000000 ∧
    (∀ s ∈ [({ svc with dunlin := { Dunlin.init with ppsHigh := true } } : State)],
      running s = true ∧ s.dunlin.ppsHigh = true ∧ s.dunlin.ppsEnd ≤ s.now) ∧
    (∀ n ∈ [15, 16], ∀ s ∈ [({ setInput svc 0 { lastEdge := some 0, captures := List.replicate n ⟨true, 0, 0⟩ } with
        now := 8 } : State)],
      running s = true ∧ (input s 0).lastEdge = some 0 ∧ 0 + 10000 ≤ s.now * 1250 + 0 ∧
        (input s 0).captures.length = n) ∧
    (∀ s ∈ [({ setInput svc 1 { lastEdge := some 0, captures := [] } with now := 7 } : State)],
      (input s 1).lastEdge = some 0 ∧ s.now * 1250 + 1249 < 0 + 10000) := by decide +kernel

/-- An echo with tag 3 and turnaround 0, and a link that sent that tag. -/
def echo : Block := 0xBE0000000000035A
/-- An echo whose turnaround stands at the field's end. -/
def echoFar : Block := 0x2E00000FFFFFF35A
def echoing : State := withLink 0 { activeLink with sentTags := [(3, 0, 0)], rtts := List.replicate 8 0 }

theorem test_wit_timeBlocksComplete :
    (serdesRun echoing = true ∧ (link echoing 0).st = .active ∧ inBare echoing = false ∧
      (lanesRec echoing 0).timeBlocks = true ∧ (link echoing 0).asleep = false ∧
      (link echoing 0).wakeEnd ≤ echoing.now ∧ (link echoing 0).timeDue ≤ echoing.now) ∧
    (∀ s ∈ [withLink 0 { activeLink with timeOwed := true }], (link s 0).timeOwed = true ∧ timingLane s 0 = 0) ∧
    (blockType echo = 0x5A ∧ crc8Good echo = true ∧ echoTurn echo ≠ 2 ^ 24 - 1 ∧
      blockType echoFar = 0x5A ∧ crc8Good echoFar = true ∧ echoTurn echoFar = 2 ^ 24 - 1 ∧
      (recentTags echoing 0).find? (fun x => x.1 == echoTag echo) = some (3, 0, 0) ∧
      (recentTags (withLink 0 activeLink) 0).find? (fun x => x.1 == echoTag echo) = none) ∧
    (link (withLink 0 activeLink) 0).rtts.length < 8 ∧
    ¬(link echoing 0).rtts.length < 8 ∧
    (echoArrival echoing 0 0 - 0 - (echoTurn echo * 2 ^ 24 : Nat) - median (link echoing 0).rtts).natAbs ≤
      2 * unitsPerNs ∧
    (∀ s ∈ [withLink 0 { activeLink with pathValid := true, missed := 17 }],
      (link s 0).pathValid = true ∧ 17 ≤ (link s 0).missed) := by decide +kernel

/-- A port's gates of two entries, and an event record at offset 0. -/
def gates2 : SMap GatesRec := [(0, { port := 0, vector := 0x0F, hold := false, interval := 4000 }),
  (1, { port := 0, vector := 0xF0, hold := true, interval := 4000 })]
def events1 : SMap EventsRec := [(0, { offset := 0, id := 7, patn := true, out0 := 1, out1 := 3 })]
def copy1 : HeronCopy := { HeronCopy.init with gates := gates2, events := events1 }
def heron1 : State := { svc with
  heron := { Heron.init with started := true, copyA := copy1, copyB := copy1, copyC := copy1 }
  tables := { emptyTables with gates := gates2, events := events1 } }
/-- Copy A outvoted on event word 0; and A and B left, differing. -/
def upset1 : List HeronUpset := [.vector 0 0 1]
def heron2 : State := { heron1 with heron := { heron1.heron with copyC := { copy1 with live := false } } }

theorem test_wit_heronComplete :
    ckRuns heron1 = true ∧ heron1.heron.started = true ∧ (∀ s ∈ [({ heron1 with heron := { heron1.heron with
      acc := 4000 * ckUnits, len := 8000 * ckUnits } } : State)], gateDue s 0 (cycleOffset s) = true) ∧
    eventDue heron1 = true ∧
    (∀ v ∈ [each upset1 heronUpset (heronWork heron1)],
      (liveCopies v).length = 3 ∧ ∀ a ∈ (liveCopies v)[0]?, ∀ b ∈ (liveCopies v)[1]?, ∀ c ∈ (liveCopies v)[2]?,
        (firstDiffer (shown v a) (majShown (shown v a) (shown v b) (shown v c))).isSome = true) ∧
    (∀ v ∈ [each upset1 heronUpset (heronWork heron2)],
      (liveCopies v).length = 2 ∧ ∀ a ∈ (liveCopies v)[0]?, ∀ b ∈ (liveCopies v)[1]?,
        (firstDiffer (shown v a) (shown v b)).isSome = true) := by decide +kernel

/-! ### Witnesses: the wheel and Ethernet -/

/-- A frame of 60 bytes, and the record of stream 5 that it fits. -/
def frame0 : Frame := plainFrame 1 (List.replicate 60 0) 0 1000000
def streams5 : StreamsRec :=
  { queue := 5, members := 1, rtag := true, cls := 0, rate := 1000, burst := 65536, lenMode := 0, overhead := 20
    refillFull := false, staleSkip := false, cutThrough := false, buffers := 8, deadline := 800, maxFrame := 9022
    template := List.replicate 18 0 }
def shortRec : StreamsRec := { streams5 with maxFrame := 64 }
def wheeling : State := setStream (withTables { emptyTables with streams := [(5, streams5)] }) 5
  { StreamSt.init with place := .fine 0, queue := [frame0] }
def late (s : State) : State := { s with heron := { s.heron with acc := 2 * ckUnits } }
def old0 : Frame := { frame0 with deadline := 1 }

/-- No head of a due stream is past its deadline. -/
def noLateHead (s : State) : Bool :=
  (dueStreams s).all (fun x => (stream s x.2).queue.head?.all (fun g => !lateHead s g))

theorem test_wit_wheelComplete :
    (ckRuns wheeling = true ∧ wheeling.heron.started = true ∧ firstDue wheeling = some 5 ∧
      mFind wheeling.tables.streams 5 = some streams5 ∧ (stream wheeling 5).queue = frame0 :: [] ∧
      releasesNow wheeling < 8 ∧ firstDue (noteRelease (releaseHead 5 wheeling)) = none ∧ noLateHead wheeling = true) ∧
    (∀ s ∈ [({ wheeling with released := (0, 8) } : State)],
      s.heron.started = true ∧ 8 ≤ releasesNow s ∧ noLateHead s = true) ∧
    (∀ s ∈ [late (setStream wheeling 5 { StreamSt.init with place := .fine 0, queue := [old0] })],
      dueStreams s = [(0, 5)] ∧ (stream s 5).queue = [old0] ∧ lateHead s old0 = true) ∧
    firstDue svc = none ∧
    (∀ s ∈ [({ svc with heron := { svc.heron with acc := 8192 * ckUnits } } : State)],
      s.heron.started = true ∧ s.coarse < hck s / 8192) ∧
    (∀ s ∈ [late (setStream svc 1023 { StreamSt.init with queue := [old0] })],
      (stream s 1023).queue = old0 :: [] ∧ old0.started = false ∧ old0.deadline < hck s) ∧
    (∀ s ∈ [late (setClassQueue svc 3 7 [old0])], classQueue s 3 7 = old0 :: [] ∧ old0.deadline < hck s) := by
  decide +kernel

def sending (e : TxEnd) : Tx := { cls := 0, express := false, frame := { frame0 with started := true }, start := 0, ends := e, finish := 0 }
def portsRec0 : PortsRec :=
  { mode := 1, preempt := true, verification := true, pauseTx := true, pauseRx := true, holdUs := 1000
    express := 0xF0, pausable := 0x0F, ctStart := 0, verifyMs := 128, maxFrame := 9022, addFrag := 0, phyAddr := 31
    mac := 0 }
/-- A port with a PORTS record, in mode 1 by strap. -/
def ported : State := { svc with
  tables := { emptyTables with ports := [(0, portsRec0)] }
  ladder := { svc.ladder with pins := (List.range 8).map (fun i => { LadderPin.init with
    settled := true, code := if 3 ≤ i && i < 7 then 1 else 0 }) } }
def queued0 : State := setClassQueue (setPort ported 0 upPort) 0 0 [frame0]
/-- A long pre-emptable frame on the wire, and an express frame waiting. -/
def long0 : Tx := { cls := 0, express := false, frame := plainFrame 2 (List.replicate 1000 0) 0 1000000, start := 0
                    ends := .frame, finish := 0 }
def preempting : State := { setClassQueue (setPort ported 0 { upPort with verify := .verified, tx := some long0 }) 0 7
  [frame0] with now := 100 }

theorem test_wit_transmissionComplete :
    (ckRuns queued0 = true ∧ mayTransmit queued0 0 = true ∧ (port queued0 0).tx = none ∧ (port queued0 0).control = [] ∧
      pickClass queued0 0 classesDown = some 0 ∧ nextFrame queued0 0 0 = some frame0 ∧ frameErrors queued0 frame0 = []) ∧
    (∀ s ∈ [setPort ported 0 upPort], mayTransmit s 0 = true ∧ (port s 0).tx = none ∧ (port s 0).control = [] ∧
      pickClass s 0 classesDown = none) ∧
    (∀ s ∈ [setPort ported 0 { upPort with control := [pfcBytes 0 0 0] }], mayTransmit s 0 = true ∧
      (port s 0).tx = none ∧ (port s 0).control = pfcBytes 0 0 0 :: []) ∧
    (mayTransmit preempting 0 = true ∧ mayPreempt preempting 0 long0 = true ∧ wantsWire preempting 0 = true) ∧
    (∀ e ∈ [TxEnd.frame, .fragment, .stomp],
      ∀ s ∈ [({ setPort ported 0 { upPort with tx := some (sending e) } with now := 1000 } : State)],
        (port s 0).tx = some (sending e) ∧ sendingOver s 0 (sending e) = true) := by decide +kernel

/-- A frame of 60 bytes with its FCS; and with the EtherType of MAC control, of BARE's management, and another. -/
def wireFrame (dst : List Byte) (type : List Byte) : List Byte :=
  withFcs (dst ++ List.replicate 6 0 ++ type ++ List.replicate 46 0)
def plainWire : List Byte := wireFrame (List.replicate 6 0) [0x08, 0x00]
def rxPort : State := setPort ported 0 upPort
def mgmtTables : Tables := { emptyTables with mgmt := some { etherType := 0x88B5, ports := 1, mgmtAddr := 1, devAddr := 2 } }

theorem test_wit_receptionComplete :
    (∀ s ∈ [({ rxPort with rxCells := [(0, 1064)] } : State)],
      (port s 0).up = true ∧ canTake s 0 (pcpOf (ethHdr plainWire)) (cellsOf plainWire.length) = false) ∧
    (canTake rxPort 0 (pcpOf (ethHdr plainWire)) (cellsOf plainWire.length) = true ∧
      macError rxPort 0 plainWire true = some 3 ∧ macError rxPort 0 (plainWire.take 63) false = some 1 ∧
      macError (setPort (withTables { emptyTables with ports := [(0, { portsRec0 with maxFrame := 64 })] }) 0 upPort) 0
        (List.replicate 65 0) false = some 2 ∧
      macError rxPort 0 (plainWire.take 63 ++ [0]) false = some 0 ∧ macError rxPort 0 plainWire false = none) ∧
    (∀ b ∈ [wireFrame (List.replicate 6 0) [0x88, 0x08]], isMacControl b = true ∧ macOpcode b ≠ 0x0101 ∧
      macError rxPort 0 b false = none) ∧
    (isMacControl plainWire = false ∧ dunlinTakes rxPort 0 (ethHdr plainWire) = false) ∧
    dunlinTakes acquiring 0 (ethHdr (wireFrame [0x01, 0x80, 0xC2, 0, 0, 0x0E] [0x88, 0xF7])) = true ∧
    (∀ s ∈ [setPort (withTables mgmtTables) 0 upPort],
      managementFrame s (ethHdr (wireFrame [0, 0, 0, 0, 0, 2] [0x88, 0xB5])) = true ∧ s.boot.otpBad = false ∧
        hidRxCells s + cellsOf 64 ≤ 32) ∧
    (managementFrame rxPort (ethHdr plainWire) = false ∧
      rxPort.tables.filters.find? (fun y => filterMatches y.2 0 (ethHdr plainWire)) = none) ∧
    (∀ r ∈ [ListenRec.mk 0 0 0 0 1 0 false 64 0],
      ∀ f ∈ [FrerRec.mk 0 2 1 false],
        ∀ s ∈ [({ setListener svc 0 { ListenerSt.init with recovering := false } with
            now := 800
            tables := { emptyTables with listen := [(0, r)], frer := [(0, f)] } } : State)],
          (listener s 0).recovering = false ∧ mFind s.tables.listen 0 = some r ∧
            mFind s.tables.frer r.recovery = some f ∧ (listener s 0).lastPassed + usCk f.timeoutUs ≤ s.now) := by
  decide +kernel
theorem test_wit_pauseComplete :
    (ckRuns rxPort = true ∧ (port rxPort 0).up = true ∧ portsRec rxPort 0 = some portsRec0 ∧
      portsRec0.pauseRx = true ∧ (0x81 : BitVec 8).getLsbD 0 = true ∧ gated rxPort 0 0 = false ∧
      hasBit portsRec0.pausable 0 = true ∧ (port rxPort 0).pausedUntil.length = 8 ∧
      (0x81 : BitVec 8).getLsbD 7 = true ∧ gated rxPort 0 7 = false ∧ hasBit portsRec0.pausable 7 = false) ∧
    (∀ s ∈ [({ rxPort with tables := { rxPort.tables with gates := gates2 } } : State)],
      portsRec s 0 = some portsRec0 ∧ gated s 0 7 = true) ∧
    (∀ s ∈ [({ rxPort with tables := { rxPort.tables with ports := [(0, { portsRec0 with pauseRx := false })] } } : State)],
      ckRuns s = true ∧ (port s 0).up = true ∧ (portsRec s 0).map (·.pauseRx) = some false) ∧
    (0x0102 : BitVec 16) ≠ 0x0101 ∧
    (∀ b ∈ [withFcs (pfcBytes 1 7 5)], canTake rxPort 0 (pcpOf (ethHdr b)) (cellsOf b.length) = true ∧
      macError rxPort 0 b false = none ∧ isMacControl b = true ∧ macOpcode b = 0x0101) ∧
    (∀ s ∈ [({ setPort rxPort 0 { upPort with pausedUntil := List.replicate 8 5 } with now := 5 } : State)],
      (port s 0).pausedUntil.getD 7 0 ≠ 0 ∧ (port s 0).pausedUntil.getD 7 0 ≤ s.now) ∧
    (∀ x ∈ [(false, 31), (true, 20), (true, 21)],
      portsRec rxPort 0 = some portsRec0 ∧ ∀ s ∈ [({ setPort rxPort 0 { upPort with pfcOn := List.replicate 8 x.1 } with rxCells := [(3, x.2)] } : State)],
        pfcClass s 0 3 = true ∧ (port s 0).pfcOn.getD 3 false = x.1 ∧ rxHeld s 0 3 = x.2 ∧
          (port s 0).pfcDue.getD 3 0 ≤ s.now) := by decide +kernel

def fragment (start : Bool) (n : Fin 4) (good : Bool) : Mpacket := Mpacket.mk start 2 n false good [0]
def reasm0 : Reasm := { frameCount := 2, fragCount := 3, bytes := [], cls := 0, cells := 0, lost := false }
def reassembling : State := setPort ported 0 { upPort with reasm := some reasm0 }
def lastFragment (start : Bool) : Mpacket := Mpacket.mk start 2 3 true true plainWire

theorem test_wit_preemptionComplete :
    (∀ n ∈ [2, 3], ∀ s ∈ [setPort ported 0 { upPort with verify := .running n 0 }],
      ckRuns s = true ∧ (port s 0).verify = .running n 0 ∧ 0 ≤ s.now ∧ (port s 0).up = true) ∧
    preemptFlag rxPort 0 = true ∧ preemptFlag (withPort 0 upPort) 0 = false ∧
    ((fragment true 0 true).start = true ∧ (port rxPort 0).reasm = none ∧ (fragment true 0 true).final = false ∧
      (fragment true 0 true).good = true ∧
      canTake rxPort 0 (pcpOf (ethHdr (fragment true 0 true).bytes)) (cellsOf (fragment true 0 true).bytes.length) = true) ∧
    ((lastFragment true).start = true ∧ (lastFragment true).final = true) ∧
    (preemptFlag reassembling 0 = true ∧ (fragment false 3 true).start = false ∧
      (port reassembling 0).reasm = some reasm0 ∧ reasm0.lost = false ∧
      (fragment false 3 true).frameCount.val = 2 ∧ (fragment false 3 true).fragCount.val = 3 ∧
      canTake reassembling 0 0 (cellsOf (reasm0.bytes ++ (fragment false 3 true).bytes).length - reasm0.cells) = true ∧
      canTake { reassembling with rxCells := [(0, 1064)] } 0 0
        (cellsOf (reasm0.bytes ++ (fragment false 3 true).bytes).length - reasm0.cells) = false) ∧
    ((lastFragment false).start = false ∧ (lastFragment false).final = true ∧ (lastFragment false).frameCount.val = 2 ∧
      (lastFragment false).fragCount.val = 3 ∧ canTake reassembling 0 0
        (cellsOf (reasm0.bytes ++ (lastFragment false).bytes).length - reasm0.cells) = true) ∧
    ((fragment false 2 true).fragCount.val ≠ 3 ∧ (fragment false 3 false).good = false) := by decide +kernel
theorem test_wit_portLinkComplete :
    (∀ x ∈ [(1, LinkLoss.blockLock), (2, .remoteFault), (3, .syncLost), (5, .syncLost), (4, .clause37Restart), (6, .sgmiiLinkBit)],
      ∀ s ∈ [withPort 3 { upPort with mode := x.1 }], (port s 3).up = true ∧ lossPossible (port s 3).mode x.2 = true) ∧
    (∀ m ∈ [1, 4, 6], mayComeUp (withPort 0 { PortSt.init with mode := m, linkBit := true }) 0 = true) ∧
    (∀ s ∈ [withPort 0 { upPort with live := false, holdEnd := some 0 }],
      (port s 0).up = true ∧ (port s 0).live = false ∧ (port s 0).holdEnd = some 0 ∧ 0 ≤ s.now) ∧
    (∀ y ∈ [PhySt.resetting 0, .running], ∀ s ∈ [withPort 0 { upPort with mode := 6, phy := y }],
      ckRuns s = true ∧ (port s 0).mode = 6 ∧ s.supply.bankQ.brown = false ∧ s.mdio.queue = [] ∧ s.mdio.freeAt ≤ s.now ∧
        firstBelow 4 (pollDue s) = some 0 ∧ (port s 0).phy = y ∧ (phyAddress s 0).isSome = true) ∧
    (∀ s ∈ [({ svc with mdio := { queue := [(0, 31, 4, 1), (1, 30, 4, 1)], freeAt := 0 } } : State)],
      s.mdio.queue = (0, 31, 4, 1) :: [(1, 30, 4, 1)] ∧ 0 ≤ 1 ∧ s.supply.bankQ.brown = false ∧ s.mdio.freeAt ≤ s.now) ∧
    (∀ s ∈ [withPort 0 { upPort with mode := 6, phy := .absent 0 }],
      (port s 0).phy = .absent 0 ∧ 0 ≤ s.now ∧ (port s 0).mode = 6 ∧ (phyAddress s 0).isSome = true) := by decide +kernel
def cutTx : Tx := { cls := 0, express := false, frame := { frame0 with whole := false, cut := true, stream := some 5 }, start := 0
                    ends := .frame, finish := 0 }
theorem test_wit_cutThroughComplete :
    (∀ s ∈ [({ setPort ported 0 { upPort with tx := some cutTx } with now := 100 } : State)],
      ckRuns s = true ∧ (port s 0).tx = some cutTx ∧ underruns s 0 cutTx = true) ∧
    (∀ f ∈ [{ frame0 with carriedBad := true }], ∀ s ∈ [setStream svc 5 { StreamSt.init with tunnels := [(3, f)] }],
      (stream s 5).tunnels.find? (fun e => e.2.carriedBad) = some (3, f)) ∧
    (∀ f ∈ [{ frame0 with bytes := List.replicate 59 0 }],
      ∀ s ∈ [setStream (withTables { emptyTables with streams := [(5, shortRec)] }) 5 { StreamSt.init with tunnels := [(3, f)] }],
        (stream s 5).tunnels.find? (fun e => tunnelTooLong s 5 e.2) = some (3, f)) := by decide +kernel

/-! ### Witnesses: Dziak links -/

/-- Link 0 ACTIVE, its VC 0 mapped with 16 units; and a packet with SEQ n on VC 0. -/
def vcmap1 : SMap VcmapRec := [(0, { link := 0, vc := 0, units := 16, action := 0, queue := 0 })]
def linked : State := setLane (setVc (setLink (withTables { emptyTables with vcmap := vcmap1 }) 0 activeLink) 0 0
  { VcSt.init with bv := 16 }) 0 { LaneSt.init with rxHist := some 0 }
def pktHdr (seq pseq : Nat) : Block := mkHdr seq 0 1 0 true true pseq
def pktTail (seq pseq : Nat) : Block := mkTail (pktHdr seq pseq) [0] 4095 0 0 true
/-- Rows of one lane whose history is `h`: the scrambled blocks, each with its sync header and parity. -/
def rowsOf : BitVec 58 → List (Nat × Block) → List (List LaneWord)
  | _, [] => []
  | h, (c, b) :: r => [laneWord c (scramble h b).1] :: rowsOf (scramble h b).2 r
def packetRows (seq pseq : Nat) (data : List Block) : List (List LaneWord) :=
  rowsOf 0 ((syncControl, pktHdr seq pseq) :: data.map (fun d => (syncData, d)) ++ [(syncTail, pktTail seq pseq)])
def event (n : Nat) (data : List Block) : RxEvent := .packet (pktHdr n 0) data (pktTail n 0)
/-- The state in which a packet is sorted: its rows read, its tail's S and credit taken. -/
def returned (n : Nat) (s : State) : State := let t := pktTail n 0
  applyReturn 0 (tailS t) true (tailVc t) (tailCl t) (tailEmpty t) (readRows 0 (packetRows n 0 [0]) s).2
def full (s : State) : State := setVc s 0 0 { VcSt.init with bv := 16, ac := 16 }

theorem test_wit_packetSortingComplete_fails :
    (carries linked 0 = true ∧ popCount 8 (link linked 0).finalMask = 1 ∧ (link linked 0).rxError = false ∧
      (packetRows 0 0 [0]).all (fun r => r.length == 1) = true) ∧
    (readRows 0 (rowsOf 0 [(syncTail, 0)]) linked).1 = [.failed 1] ∧
    (readRows 0 ((packetRows 0 0 [0]).map (fun r => r.map (fun w => w ^^^ 4))) linked).1 = [] ∧
    (readRows 0 ((packetRows 0 0 [0]).set 1 [0]) linked).1 = [.failed 0] ∧
    (readRows 0 (packetRows 0 0 [1]) linked).1 = [event 0 [1]] ∧ packetFails (pktHdr 0 0) [1] (pktTail 0 0) = some 0 ∧
    (readRows 0 (packetRows 0 0 [0, 0]) linked).1 = [event 0 [0, 0]] ∧
      packetFails (pktHdr 0 0) [0, 0] (pktTail 0 0) = some 1 ∧
    (∀ s ∈ [setLink linked 0 { activeLink with rxError := true }], carries s 0 = true ∧ (link s 0).rxError = true) := by
  decide +kernel
theorem test_wit_packetSortingComplete :
    (∀ n ∈ [0, 4095, 2049, 1, 2048], (readRows 0 (packetRows n 0 [0]) linked).1 = [event n [0]] ∧
      packetFails (pktHdr n 0) [0] (pktTail n 0) = none ∧ (link (returned n linked) 0).st = .active) ∧
    (hdrSeq (pktHdr 0 0) = ((link (returned 0 linked) 0).rxS + 1) % 4096 ∧
      hasRoom (returned 0 linked) 0 (hdrVc (pktHdr 0 0)) (packetCost 1) = true ∧
      hasRoom (returned 0 (full linked)) 0 (hdrVc (pktHdr 0 0)) (packetCost 1) = false ∧
      (link (returned 0 (full linked)) 0).rxError = false) ∧
    (∀ n ∈ [4095, 2049], hdrSeq (pktHdr n 0) ≠ ((link (returned n linked) 0).rxS + 1) % 4096 ∧
      ((link (returned n linked) 0).rxS + 4096 - hdrSeq (pktHdr n 0)) % 4096 ≤ 2046 ∧
      builtNow (returned n linked) 0 0x3C = []) ∧
    (∀ n ∈ [1, 2048], hdrSeq (pktHdr n 0) ≠ ((link (returned n linked) 0).rxS + 1) % 4096 ∧
      2046 < ((link (returned n linked) 0).rxS + 4096 - hdrSeq (pktHdr n 0)) % 4096) := by decide +kernel
theorem test_wit_blocksSurviveTheLane : blockType (pktHdr 0 0) = 0x2D ∧
    ([packetBlocks 0 0 0 (pktHdr 0 0) [0] (pktTail 0 0)].map (fun l => l.map (fun c => (c.sync, c.body)))).flatten =
      (packetBlocks 0 0 0 (pktHdr 0 0) [0] (pktTail 0 0)).map (fun c => (c.sync, c.body)) ∧
    (∀ h d, RxFrame.outside ≠ .inside h d) := ⟨by decide +kernel, by simp, by intro h d e; cases e⟩

/-- Lane plan 11: links 2j and 2j + 1 in pairs; the pair's last PSEQ is 100. -/
def paired : State := setPair { linked with ladder := { svc.ladder with pins := (List.range 8).map (fun i =>
    { LadderPin.init with settled := true, code := if i = 2 then 11 else 0 }) } } 0 0
  { PairSt.init with last := 100, isReset := false }

theorem test_wit_pairEliminationComplete :
    (∀ n ∈ [101, 100, 69, 100 + 32767, 100 + 32768, 68], ∀ u ∈ [returned 0 paired],
      carries paired 0 = true ∧ (readRows 0 (packetRows 0 n [0]) paired).1 = [.packet (pktHdr 0 n) [0] (pktTail 0 n)] ∧
        packetFails (pktHdr 0 n) [0] (pktTail 0 n) = none ∧
        tailS (pktTail 0 n) = tailS (pktTail 0 0) ∧ tailCl (pktTail 0 n) = tailCl (pktTail 0 0) ∧
        (link u 0).st = .active ∧ hdrSeq (pktHdr 0 n) = ((link u 0).rxS + 1) % 4096 ∧
        hasRoom u 0 (hdrVc (pktHdr 0 n)) (packetCost 1) = true ∧ hdrKind (pktHdr 0 n) < 2 ∧
        (vcRec u 0 (hdrVc (pktHdr 0 n))).isSome = true ∧ eliminates u 0 = true) ∧
    (∀ n ∈ [101, 100 + 32767], eliminate (pair (returned 0 paired) 0 0) (hdrPseq (pktHdr 0 n)) = .passed) ∧
    (∀ n ∈ [100, 69], eliminate (pair (returned 0 paired) 0 0) (hdrPseq (pktHdr 0 n)) = .duplicate) ∧
    (∀ n ∈ [100 + 32768, 68], eliminate (pair (returned 0 paired) 0 0) (hdrPseq (pktHdr 0 n)) = .rogue) := by
  decide +kernel

def stored0 : Stored :=
  { seq := 0, vc := 0, cost := 1, hdr := pktHdr 0 0, payload := [0], count := 0, sentAt := some 0, charged := false
    marked := false }
def replaying : State := setLink linked 0 { activeLink with store := [stored0], episode := some 0 }
def msg0 : TxMsg := { kind := 0, bytes := List.replicate 257 0, pos := 0, deadline := 0, pseq := 0 }
def sendable (cl : Nat) : State := { setVc linked 0 0 { VcSt.init with bv := 16, txQ := [msg0], cl := cl } with now := 1 }

theorem test_wit_packetSendingComplete :
    (mayPacket replaying 0 = true ∧ (link replaying 0).episode = some 0 ∧
      (link replaying 0).store.dropWhile (fun p => p.seq != 0) = stored0 :: [] ∧ stored0.marked = false) ∧
    (mayPacket (sendable 4) 0 = true ∧ (link (sendable 4) 0).episode = none ∧ pickVc (sendable 4) 0 = some 0 ∧
      (vc (sendable 4) 0 0).txQ = msg0 :: [] ∧ 256 = min 256 (msg0.bytes.length - msg0.pos) ∧
      storeRoom (sendable 4) 0 256 = true) ∧
    (ckRuns (sendable 3) = true ∧ (vc (sendable 3) 0 0).txQ = msg0 :: [] ∧ msg0.pos = 0 ∧
      msg0.deadline < (sendable 3).now ∧ hasCredit (sendable 3) 0 0 = false ∧
      waitsTooLong (sendable 3) 0 0 = some 0) ∧
    (∀ s ∈ [setVc (sendable 4) 0 0 { vc (sendable 4) 0 0 with txQ := [msg0, msg0] }],
      ckRuns s = true ∧ waitsTooLong s 0 0 = some 1) ∧
    (∀ s ∈ [setVc linked 0 0 { VcSt.init with bv := 16, freed := 4 }],
      carries s 0 = true ∧ (vcRec s 0 0).isSome = true ∧ returnDue s 0 0 = true ∧ builtNow s 0 0x3C = []) ∧
    ((lanesRec linked 0).auditUs ≠ 0 ∧ (link linked 0).auditDue ≤ linked.now) := by decide +kernel

/-- Blocks with their CRC-8: ACKs of S 0 (VC 0, CL 16) and of S 2,047 without a return, a NAK of S 4,095, AUDITs of S 4,095
with AC 5, 3 and 2 for VC 0, and an AUDIT of S 2,047. -/
def ack0 : Block := 0xE800000020100033
def ackOld : Block := 0x920000000007FF33
def nak0 : Block := 0x72000000000FFF3C
def aud5 : Block := 0xED000000050FFF55
def aud3 : Block := 0x99000000030FFF55
def aud2 : Block := 0x8F000000020FFF55
def audOld : Block := 0xBA0000000007FF55

theorem test_wit_linkUpkeepComplete_timer : ∀ s ∈ [setLink linked 0 { activeLink with ackDue := some 0 }],
    carries s 0 = true ∧ (link s 0).ackDue = some 0 ∧ 0 ≤ s.now ∧ builtNow s 0 0x3C = [] := by decide +kernel
theorem test_wit_linkUpkeepComplete_release :
    blockGood .ack ack0 = true ∧ returnOf .ack ack0 = (0, true, 0, 16, false) ∧
      1 = beyond replaying 0 0 ∧ 1 ≤ 2047 ∧ 1 ≤ (link replaying 0).store.length := by decide +kernel
theorem test_wit_linkUpkeepComplete_beyond :
    blockGood .ack ackOld = true ∧ returnOf .ack ackOld = (2047, false, 0, 0, false) ∧
      2047 < beyond replaying 0 2047 := by decide +kernel
theorem test_wit_linkUpkeepComplete_replays :
    (∀ u ∈ [applyReturn 0 (ackS nak0) (ackCrv nak0) (ackVc nak0) (ackCl nak0) (ackEmpty nak0) (bumpLink 0 5 replaying)],
        (link replaying 0).timerAt ≠ some replaying.now ∧ carries replaying 0 = true ∧ blockGood .nak nak0 = true ∧ (link u 0).st = .active ∧
          (link u 0).store = stored0 :: [] ∧ stored0.marked = false ∧ 0 < (lanesRec u 0).limitN) ∧
    (∀ s ∈ [setLink linked 0 { link replaying 0 with timerAt := some 0 }],
      (link s 0).timerAt = some s.now ∧ (∀ u ∈ [applyReturn 0 (ackS nak0) (ackCrv nak0) (ackVc nak0) (ackCl nak0)
        (ackEmpty nak0) (undoTimer 0 (bumpLink 0 5 s))], (link u 0).st = .active ∧
          (link u 0).store.map (fun p => (p.seq, p.marked)) = [(0, false)])) ∧
    (∀ s ∈ [({ setLink linked 0 { activeLink with store := [{ stored0 with count := 3 }] } with now := 80000 } : State)],
      carries s 0 = true ∧ replayDue s 0 = some (nsCk (lanesRec s 0).replayNs) ∧ nsCk (lanesRec s 0).replayNs ≤ s.now ∧
        3 < (lanesRec s 0).limitN) ∧
    (link linked 0).st = .active := by decide +kernel
theorem test_wit_linkUpkeepComplete_audits :
    (∀ x ∈ [vc (setVc linked 0 0 { VcSt.init with partnerBv := 2, cRel := 5 }) 0 0],
      blockGood .audit aud5 = true ∧ (link linked 0).released = ackS aud5 ∧
        auditDelta x (auditAc aud5) = 0 ∧ auditDelta x (auditAc aud3) = 2 ∧
        2 ≤ x.partnerBv ∧ auditDelta x (auditAc aud2) = 3 ∧ x.partnerBv < 3) ∧
    (blockGood .audit audOld = true ∧
      2047 < beyond linked 0 (ackS audOld)) := by decide +kernel
theorem test_wit_linkUpkeepComplete_ends :
    (∀ s ∈ [setLink svc 0 { LinkSt.init with st := .sync, retrains := 3 }],
      ckRuns s = true ∧ (link s 0).st ≠ .off ∧ (link s 0).st ≠ .detect ∧ (lanesRec s 0).limitM ≤ (link s 0).retrains) ∧
    (∀ s ∈ [setLink svc 0 { LinkSt.init with st := .sync, excluded := 1 }], keptLanes s 0 = 0) ∧
    (expectedType (link linked 0).st (blockType 0x82) = false ∧ expectedType (link linked 0).st (blockType 0x33) = true ∧
      checkedType (blockType 0x33) = true ∧ crc8Good 0x33 = false ∧ linked.supply.srefFault = false) ∧
    (∀ s ∈ [({ setPair paired 15 7 { PairSt.init with isReset := false } with now := 800000 } : State)],
      inBare s = false ∧ eliminates s 30 = true ∧ inPlan s 30 = true ∧ (pair s 15 7).isReset = false ∧
        (pair s 15 7).lastPass + msCk 1 ≤ s.now) := by decide +kernel

/-! ### Witnesses: training and Curlew -/

def inState (st : LinkState) : State := withLink 0 { LinkSt.init with st := st }
/-- Training blocks with their CRC-8: TS1, PARAM of index 12 and of index 11 with content 0, PARAM_ACK of mask 0xFFF and
of 0x7FF, EQ_REQ of lane 0 with setting 5, EQ_DONE of lane 0, READY of S 0 with mask 1 and with mask 2. -/
def ts1 : Block := 0x8A00000000000080
def param12 : Block := 0xD800000000000C82
def param11 : Block := 0x0700000000000B82
def ackAll : Block := 0x73000000000FFF83
def ackSome : Block := 0x6A0000000007FF83
def eqReq : Block := 0xC800000000005085
def eqReq7 : Block := 0x1700000000005785
def eqDone : Block := 0xAE00000000005086
def readyOne : Block := 0xAB00000000100087
def readyTwo : Block := 0xFD00000000200087
/-- Link 0 in PARAM with its partner's twelve PARAM blocks, equal to its own. -/
def agreeing : State := withLink 0 { LinkSt.init with
  st := .param, rate := 1, paramSeen := 0x0FFF, locked := 1
  params := (List.range 12).map (fun i => (i, BitVec.ofNat 64 (paramContent (inState .param) 0 i))) }

theorem test_wit_trainingStatesComplete_ends :
    (∀ s ∈ [inState .detect], serdesRun s = true ∧ (link s 0).st = .detect ∧ (link s 0).beaconDue ≤ s.now) ∧
    trainingGood 0x80 ts1 = true ∧
    (∀ s ∈ [({ withLink 0 { activeLink with backoff := 64 } with now := 800000000 } : State)],
      (link s 0).st = .active ∧ (link s 0).backoff ≠ 1 ∧ (link s 0).activeSince + msCk 1000 ≤ s.now) ∧
    (∀ s ∈ [withLink 0 { LinkSt.init with st := .speedup, rate := 1, agreed := 2 }],
      (link s 0).st = .speedup ∧ (link s 0).rate ≠ (link s 0).agreed ∧ (link s 0).speedLeft = none ∧
        (link s 0).rowDue ≤ s.now) := by decide +kernel
theorem test_wit_trainingStatesComplete_lanes :
    (hasBit (keptLanes (inState .sync) 0) 0 = true ∧ (link (inState .sync) 0).st ≠ .off ∧
      (link (inState .sync) 0).st ≠ .detect ∧
      setBit (link (inState .sync) 0).locked 0 &&& keptLanes (inState .sync) 0 = keptLanes (inState .sync) 0 ∧
      clrBit (link (inState .sync) 0).locked 0 &&& keptLanes (inState .sync) 0 ≠ keptLanes (inState .sync) 0) ∧
    (∀ s ∈ [inState .speedup], (link s 0).st = .speedup ∧ (link s 0).rate = (link s 0).agreed ∧
      setBit (link s 0).locked 0 &&& keptLanes s 0 = keptLanes s 0) ∧
    (∀ s ∈ [withLink 0 { LinkSt.init with st := .align, locked := 1 }], (link s 0).st = .align ∧ keptLanes s 0 ≠ 0 ∧
      ((1 : BitVec 8).toNat &&& (link s 0).locked) &&& keptLanes s 0 = keptLanes s 0 ∧
      ((2 : BitVec 8).toNat &&& (link s 0).locked) &&& keptLanes s 0 ≠ keptLanes s 0) := by decide +kernel
theorem test_wit_trainingStatesComplete_param :
    (trainingGood 0x82 param12 = true ∧ 12 ≤ bf param12 8 4 ∧ trainingGood 0x82 param11 = true ∧
      bf param11 8 4 < 12 ∧ (link (inState .param) 0).paramAcked = false) ∧
    (trainingGood 0x83 ackSome = true ∧ bf ackSome 8 16 ≠ 0x0FFF) ∧
    (trainingGood 0x83 ackAll = true ∧ bf ackAll 8 16 = 0x0FFF ∧ (link agreeing 0).st = .param ∧
      (link agreeing 0).paramSeen = 0x0FFF ∧ paramsAgree agreeing 0 = true ∧ allLocked agreeing 0 = true ∧ keptLanes agreeing 0 ≠ 0 ∧
      keptLanes agreeing 0 - (keptLanes agreeing 0 &&& bf (partnerParam agreeing 0 0) 30 8) = 0 ∧
      bf (partnerParam agreeing 0 0) 12 2 = 1) := by decide +kernel
theorem test_wit_equalizeAndRetrainComplete :
    (serdesRun (inState .equalize) = true ∧ (link (inState .equalize) 0).st = .equalize ∧
      trainingGood 0x85 eqReq = true ∧ physLane (inState .equalize) 0 (bf eqReq 8 3) = some 0 ∧
      trainingGood 0x85 eqReq7 = true ∧ physLane (inState .equalize) 0 (bf eqReq7 8 3) = none) ∧
    (trainingGood 0x86 eqDone = true ∧ hasBit (keptLanes (inState .equalize) 0) (bf eqDone 8 3) = true ∧
      (link (inState .equalize) 0).readySent = 0 ∧ (link (inState .equalize) 0).eqSent &&&
        setBit (link (inState .equalize) 0).eqRecv 0 &&& (link (inState .equalize) 0).locked &&&
          keptLanes (inState .equalize) 0 ≠ keptLanes (inState .equalize) 0) ∧
    (∀ s ∈ [withLink 0 { LinkSt.init with st := .equalize, eqSent := 1, locked := 1 }],
      (link s 0).eqSent &&& setBit (link s 0).eqRecv 0 &&& (link s 0).locked &&& keptLanes s 0 = keptLanes s 0) := by decide +kernel
/-- Plan 9's link 0, four working lanes and a spare, its READY with mask 15 sent; and READY with mask 14. -/
def spared : State := { withLink 0 { LinkSt.init with
    st := .equalize, eqSent := 31, eqRecv := 31, locked := 31, readySent := 15 } with
  ladder := { svc.ladder with pins := (List.range 8).map (fun i =>
    { LadderPin.init with settled := true, code := if i = 2 then 9 else 0 }) } }
def readyLess : Block := 0xA200000000E00087

theorem test_wit_equalizeAndRetrainComplete_ready :
    (∀ s ∈ [withLink 0 { LinkSt.init with st := .equalize, readySent := 1 }],
      trainingGood 0x87 readyOne = true ∧ (link s 0).readySent ≠ 0 ∧
        (link s 0).readySent &&& bf readyOne 20 8 = (link s 0).readySent ∧
        (link s 0).readySent &&& setBit (link s 0).readyRecv 0 = (link s 0).readySent ∧
        (link s 0).readySent &&& setBit (link s 0).readyRecv 1 ≠ (link s 0).readySent ∧
        trainingGood 0x87 readyTwo = true ∧ (link s 0).readySent &&& bf readyTwo 20 8 = 0 ∧
        ((link s 0).readySent &&& workingMask s 0) -
          ((link s 0).readySent &&& workingMask s 0 &&& bf readyTwo 20 8) ≠ 0) ∧
    (trainingGood 0x87 readyLess = true ∧ bf readyLess 20 8 = 14 ∧ workingMask spared 0 = 15 ∧
      (link spared 0).readySent = 15 ∧ (∀ v ∈ [excludeLanes 0 1 7 spared],
        equalized v 0 &&& (ownFinal v 0 &&& (15 ||| (allLanes spared 0 - workingMask spared 0))) = 30 ∧ 30 &&& 14 ≠ 30)) ∧
    (∀ x ∈ [(LinkState.sync, 1, 0), (.align, 1, 1), (.speedup, 1, 0), (.sync, 0, 0), (.detect, 0, 0)],
      ∀ s ∈ [withLink 0 { LinkSt.init with st := x.1, locked := x.2.1, aligned := x.2.2 }],
        (link s 0).st = x.1 ∧ (link s 0).stateDue ≤ s.now ∧ (finishedLanes s 0 = 0 ↔ x.2.1 = 0)) ∧
    (∀ s ∈ [setLane (withLink 0 activeLink) 0 { LaneSt.init with closedRun := 2 }],
      (link s 0).st = .active ∧ RetrainCause.closedEye ≠ .timeout ∧ (closedLane s 0).isSome = true) := by decide +kernel

/-- A map whose eye is open at every phase of threshold 16 and every threshold of phase 32: width 64, height 32. -/
def openMap : BitVec 2048 := BitVec.allOnes 2048
def calRec1 : CalRec := { rate := 6, openId := 0, closeId := 0, quiet := false, dfe := true, lanes := 1 }
def calTables : Tables := { emptyTables with cal := some calRec1 }
def equalizing (x : Nat) : State := { setLane (withLink 0 { LinkSt.init with st := .equalize }) 0 { LaneSt.init with
  partnerSetting := x, eqPoints := 2048 } with now := 1000000000 }
def mapping : State := { withLink 0 activeLink with now := 1000000000 }

theorem test_wit_lanesComplete :
    (serdesRun mapping = true ∧ mapRuns mapping 0 false = true ∧
      (mapped (lane mapping 0) (withoutSpoiled (lane mapping 0).spoiled 0)).eyeWidth < 4 ∧
      4 ≤ (mapped (lane mapping 0) (withoutSpoiled (lane mapping 0).spoiled openMap)).eyeWidth ∧
      mapping.quiet = false ∧ ({ mapping with quiet := true } : State).quiet = true) ∧
    (∀ x ∈ [14, 15], mapRuns (equalizing x) 0 true = true ∧ laneHome (equalizing x) 0 = some (0, 0) ∧
      (link (equalizing x) 0).keepEq = false ∧ (lane (equalizing x) 0).partnerSetting = x ∧
      openPoints openMap ≤ (lane (equalizing x) 0).eqPoints ∧ 8 ≤ (lane (equalizing x) 0).eyeWidth ∧
      4 ≤ (lane (equalizing x) 0).eyeHeight) ∧
    (∀ s ∈ [setLink (withTables calTables) 0 activeLink],
      laneActive s 0 = true ∧ s.tables.cal = some calRec1 ∧ calRec1.dfe = true ∧ laneHome s 0 = some (0, 0) ∧
        adapts s 0 = true ∧ (lane s 0).dfeDue ≤ 67 * s.now ∧ calDueNow s 0 = true ∧ (link s 0).asleep = false) ∧
    (∀ s ∈ [setLane (setLink (withTables calTables) 0 activeLink) 0 { LaneSt.init with calWait := some 64 }],
      (link s 0).timeOwed = false ∧ (lane s 0).queue = [] ∧ calMay s 0 0 = true ∧ 64 ≤ (lane s 0).calWait.getD 0) ∧
    (blockType 0x99 = 0x99 ∧ (0x99 : Block) ≠ calBody) := by decide +kernel

/-! ### Witnesses: the process image port and Avocet -/

def halves : State := { svc with straps := { BinaryStraps.init with pipW16 := true } }
def banked0 : PimapRec := { base := 0, len := 1, kind := 0, banked := false, swapId := 0, base1 := 0 }

theorem test_wit_halfReadsNeverTorn :
    halves.supply.inReset = false ∧ halves.power.level ≠ 4 ∧ halves.supply.bankP.brown = false ∧
    halves.straps.pipW16 = true ∧ (0x1FFFE : BitVec 17).toNat = 2 * 65535 ∧
    (0x1FFFF : BitVec 17).toNat = 2 * 65535 + 1 ∧
    (({ halves with halfLatch := some (65535, 7) } : State).halfLatch = some (65535, 7)) ∧ halves.halfLatch = none ∧
    svc.straps.pipW16 = false ∧ pipWrites halves = true := by decide +kernel
theorem test_wit_hostWritesLand :
    (pipWrites svc = true ∧ accessWord svc 0xFFBF = 0xFFBF ∧ accessWord svc 0x0FFC0 = 0xFFC0 + 0 ∧
      accessBytes svc 0 0 = 0 ∧ accessBytes svc 0 1 ≠ 0 ∧ svc.boot.cleared = true ∧ up.boot.cleared = false ∧
      pipWrites up = true ∧ inBare svc = false) ∧
    (∀ s ∈ [({ svc with boot := { svc.boot with phase := .bare } } : State)],
      pipWrites s = true ∧ inBare s = true ∧ s.boot.cleared = true) ∧
    (hostWriteTarget svc 4 0xFFBF = some 0xFFBF ∧ writtenNow svc 0xFFBF = false ∧
      uncorrectable (flips svc .processImage 0 0xFFBF) = false ∧
      uncorrectable (flips (each [Upset.mk .processImage 0 0xFFBF [0, 71]] addUpset svc) .processImage 0 0xFFBF) = true ∧
      hostWriteTarget (withTables { emptyTables with pimap := [(0, banked0)] }) 0 0 = none) ∧
    (∀ s ∈ [({ svc with power := { Power.init with level := 3 } } : State)], pipWrites s = true ∧ s.power.level = 3) ∧
    (∀ n ∈ [18, 19, 20, 21, 22, 23, 24, 36, 37, 38, 39, 61, 62, 63],
      accessWord svc (BitVec.ofNat 17 (0xFFC0 + n)) = 0xFFC0 + n) ∧
    (0xFFC0 + 36 = 0xFFD8 + (12 : Fin 13).val) := by decide +kernel

def pulsing : State := { svc with station := { Station.init with events := 1, rearmEnd := some 0 } }
def asserted : State := { svc with station := { Station.init with events := 3 } }

theorem test_wit_flagWritesComplete :
    (pipWrites up = true ∧ up.boot.cleared = false) ∧
    (pipWrites asserted = true ∧ asserted.boot.cleared = true ∧ patnOn asserted = true ∧
      asserted.station.events &&& ~~~(1 &&& ~~~setNow asserted 24) &&& ~~~asserted.station.attnMask ≠ 0 ∧
      asserted.station.events &&& ~~~mergeWord asserted.station.attnMask 1 0xF ≠ 0 ∧ (0xF : BitVec 4) ≠ 0) ∧
    (∀ s ∈ [({ svc with station := { Station.init with doorbell := 0x80000000 } } : State)],
      inService s = true ∧ s.station.doorbell.getLsbD 31 = true ∧ namesDoorbell s 31 = false ∧
        ¬(s.station.rungAt = s.now ∧ s.station.rung.getLsbD 31 = true)) ∧
    (running pulsing = true ∧ pulsing.station.rearmEnd = some 0 ∧ 0 ≤ pulsing.now ∧
      patnOn (after .rearmPulseEnd pulsing) = true) := by decide +kernel

/-- A descriptor of channel 0: a trigger, a source space and address, a count. -/
def dma0 (trig space src count : Nat) : DmaRec := DmaRec.mk 0 0 trig 0 space 0 0 0 true true true false 255 src 0 count
def onTrigger (r : DmaRec) (x : ChanSt) : State := { setChan svc 0 x with
  avocet := { Avocet.init with running := true }, now := 1
  tables := { emptyTables with
    listen := [(0, ListenRec.mk 0 0 0 0 1 0 false 64 0)], vcmap := vcmap1, dma := [(0, r)] } }
def waitingOn (r : DmaRec) : ChanSt := { ChanSt.init with status := .waiting, active := some (0, r), triggers := [0] }
def busyOn (r : DmaRec) : ChanSt := { ChanSt.init with status := .busy, active := some (0, r) }
def message0 : Msg := Msg.mk 0 [1] 1 1 0 0 100 [] [] true false 0 0 false false
def hand (s : State) : State := setVc (setListener s 0 { ListenerSt.init with held := [(frame0, 100)] }) 0 0
  { VcSt.init with rxMsgs := [message0] }

theorem test_wit_avocetTriggersComplete : ∀ r ∈ [dma0 1 0 0 64],
    (∀ s ∈ [onTrigger r (waitingOn r)], ckRuns s = true ∧ s.avocet.running = true ∧ triggerDue s 0 = true ∧
      isWaiting s 0 = true ∧ (chan s 0).pendingFlag = false ∧ (chan s 0).triggers.head? = some 0 ∧
      (chan s 0).activeFrom ≤ 0) ∧
    (∀ s ∈ [onTrigger r { waitingOn r with activeFrom := 1 }], triggerDue s 0 = true ∧ isWaiting s 0 = true ∧
      (chan s 0).pendingFlag = false ∧ (chan s 0).triggers.head? = some 0 ∧ 0 < (chan s 0).activeFrom) ∧
    (∀ s ∈ [onTrigger r { waitingOn r with pendingFlag := true }], triggerDue s 0 = true ∧ isWaiting s 0 = true ∧
      (chan s 0).pendingFlag = true) ∧
    (∀ b ∈ [false, true], ∀ s ∈ [onTrigger r { busyOn r with
        shadow := some (0, r), triggers := [0], pendingFlag := b }],
      triggerDue s 0 = true ∧ (chan s 0).status = .busy ∧ (chan s 0).pendingFlag = b) ∧
    (∀ s ∈ [onTrigger r { waitingOn r with triggers := [], startsNow := true }],
      triggerDue s 0 = false ∧ startDue s 0 = true) := by decide +kernel
theorem test_wit_avocetTriggersComplete_sources : ∀ r ∈ [dma0 1 1 0 64],
    skipDue (onTrigger r (busyOn r)) 0 = true ∧
    (∀ s ∈ [hand (onTrigger r (busyOn r))], runningRec s 0 = some r ∧ (chan s 0).issued = 0 ∧ r.srcSpace = 1 ∧
      (listener s (srcListener r)).held = (frame0, 100) :: []) := by decide +kernel
theorem test_wit_avocetTriggersComplete_grants : ∀ r ∈ [dma0 1 0 0 64],
    ∀ s ∈ [setChan (setChan (onTrigger r (busyOn r)) 1 (busyOn r)) 2 (busyOn r)],
      asksRead s 2 = true ∧ 2 ∉ readGrants s ∧ mSorted s.chans = true ∧ 1 ∈ readGrants s ∧ asksRead s 0 = true := by
  decide +kernel

/-- A transfer all of whose 64 bytes were written in ck 0, the half completion made or not. -/
def landing (r : DmaRec) (half : Bool) (sh : Option (Nat × DmaRec)) : State := onTrigger r { busyOn r with
  shadow := sh, halfDone := half, bytes := List.replicate 64 7, taken := 64, wrote := 64, wroteAt := 0 }
theorem hardwareTarget_plain (r : DmaRec) (w : Nat) : hardwareTarget (landing r false none) w = w := rfl

theorem test_wit_avocetCompletionsComplete : ∀ r ∈ [dma0 1 0 0 64],
    (∀ s ∈ [landing r false none], ckRuns s = true ∧ s.avocet.running = true ∧ runningRec s 0 = some r ∧ r.dstSpace = 0 ∧
      groupDue s (chan s 0) = true ∧ writeError s 0 r = none ∧ r.dst % 2 ^ 18 + (chan s 0).wrote ≤ 4 * 0xFFC0 ∧
      (chan s 0).landed ≤ 63 ∧ 63 < (chan s 0).wrote ∧ (chan s 0).bytes[63]? = some 7 ∧
      halfDue (landGroup 0 s) 0 = true ∧ r.half = true ∧ r.patn = true) ∧
    (∀ s ∈ [landing r true none], fullDue (landGroup 0 s) 0 = true ∧ r.full = true ∧ (chan s 0).shadow = none) ∧
    (∀ s ∈ [landing r true (some (0, dma0 0 0 0 64))],
      fullDue (landGroup 0 s) 0 = true ∧ (chan s 0).shadow = some (0, dma0 0 0 0 64)) := by decide +kernel
theorem test_wit_avocetCompletionsComplete_errors :
    (∀ r ∈ [dma0 1 0 (2 ^ 18 - 1) 2], ∀ s ∈ [onTrigger r (busyOn r)],
      s.avocet.running = true ∧ (busError s 0).isSome = true) ∧
    (∀ s ∈ [({ hand svc with now := 100 } : State)], ckRuns s = true ∧
      (listener s 0).held = (frame0, 100) :: [] ∧ 100 ≤ s.now ∧ agedMessage s 0 0 = some 0 ∧
      (vc s 0 0).rxMsgs[0]? = some message0) := by decide +kernel

/-! ### Witnesses: Hidiquel -/

/-- SERVICE with a MGMT record for every port. -/
def mgd : State := withTables { emptyTables with
  mgmt := some { etherType := 0x88B5, ports := 15, mgmtAddr := 1, devAddr := 2 }, time := { noTime with cycle := 8000 } }

/-- A request with its tag, as a station of session 0 and key 0 signs it. -/
def signed (op : Nat) (b : List Byte) : HidFrame :=
  let r := { hid0 with length := b.length, payload := b }
  { r with tag := cmac 0 (hidSigned r.dst r.src (requestHeader op r) (requestPayload r)) }

theorem leNat_leBytes_fits (n v : Nat) (h : v < 256 ^ n) : leNat (leBytes n v) = v := by
  induction n generalizing v with
  | zero => simp at h; simp [leBytes, leNat, h]
  | succ n ih =>
    simp only [leBytes, leNat]
    rw [ih (v / 256) (by rw [pow_succ] at h; omega)]
    simp; omega

theorem beNat_reverse (l : List Byte) : beNat l.reverse = leNat l := by
  induction l with
  | nil => rfl
  | cons b r ih => simp only [List.reverse_cons, beNat, leNat, List.foldl_append] at *; rw [ih]; simp; omega

theorem signed_tag (op : Nat) (b : List Byte) : requestTag (signed op b) = (signed op b).tag.toNat := by
  have h : ∀ t : BitVec 96, beNat (slice (b ++ beBytes 12 t.toNat) b.length 12) = t.toNat := by
    intro t
    have hl : (beBytes 12 t.toNat).length = 12 := by simp [beBytes, leBytes]
    have : slice (b ++ beBytes 12 t.toNat) b.length 12 = beBytes 12 t.toNat := by
      simp [slice, hl]
    rw [this, beBytes, beNat_reverse, leNat_leBytes_fits _ _ (by have := t.isLt; omega)]
  exact h _

/-- A signed request passes every check of R288 where the station's session, key and serial number are 0. -/
theorem signed_proven (op : Nat) (b : List Byte) (s : State) (hb : b.length ≤ 1440)
    (h : hidServes s = true ∧ hasBit (mgmtMask s) 0 = true ∧ s.hid.rx = [] ∧ s.hid.session = 0 ∧ s.hid.rxHigh = 0 ∧
      s.hid.key = 0 ∧ s.otp.serial = 0) : Proven 0 op (signed op b) s := by
  obtain ⟨h1, h2, h3, h4, h5, h6, h7⟩ := h
  refine ⟨h1, ?_⟩
  have ht : takeReceived 0 op (signed op b) s = s := by simp [takeReceived, h3, findIx]
  have hp : requestPayload (signed op b) = b := by simp [requestPayload, signed]
  rw [ht]
  simp only [requestFails, signed_tag, h4, h5, h6, h7, hp]
  simp [signed, hid0, requestHeader, requestPayload]
  rw [if_neg (by simp [h2]), if_neg (by omega)]

theorem test_wit_responsesJoinTheirQueue (a : Asker) (ha : a = { port := 0, src := 0, ctag := none, reqTag := 0 }) :
    hidTxCells mgd + 1 ≤ 32 ∧ (classQueue mgd a.port.val (responseClass a)).length < 256 ∧ 64 ≤ maxFrame mgd a.port.val ∧
    frameLen (plainFrame mgd.frameIds (responseBytes mgd a 1 0 []) (hck mgd) (hck mgd + oneCycle mgd)) = 64 := by
  subst ha
  refine ⟨by decide +kernel, by decide +kernel, by decide +kernel, ?_⟩
  simp [frameLen, plainFrame, responseBytes, hidBytes, ethPrefix, hidHeader, beBytes, leBytes]

/-- A station as `signed_proven` asks for it. -/
def fresh (s : State) : Bool := hidServes s && hasBit (mgmtMask s) 0 && decide (s.hid.rx = [] ∧ s.hid.session = 0 ∧
  s.hid.rxHigh = 0 ∧ s.hid.key = 0 ∧ s.otp.serial = 0)
theorem fresh_proven (op : Nat) (b : List Byte) (s : State) (hb : b.length ≤ 1440) (h : fresh s = true) :
    Proven 0 op (signed op b) s := signed_proven op b s hb (by simpa [fresh, and_assoc] using h)

/-- Payloads: one range of COUNTER SNAPSHOT; a removal staged under set 1; COMMIT of set 1 at 10 ms; an IMAGE TRANSFER
chunk of slot B, first and not last, and the one after it. -/
def range1 : List Byte := [0, 0, 0, 0, 0, 0, 0, 0x20, 1, 0, 0, 0]
def stage1 : List Byte := [1, 0, 1, 0, 0, 0, 0, 12, 0, 0, 0, 0]
def commitAt (ms : Nat) : List Byte := [1, 0, 0, 0] ++ leBytes 8 0 ++ leBytes 4 (ms * 1000000) ++ [0, 0, 0, 0]
def chunk (flags off : Nat) : List Byte := [1] ++ leBytes 1 flags ++ leBytes 2 256 ++ leBytes 4 off ++ List.replicate 256 0
def asker0 : Asker := { port := 0, src := 0, ctag := none, reqTag := 0 }
def xfer0 (busy : Option Asker) (last : Bool) : Xfer :=
  { slot := .b, next := 256, lastOffset := 0, lastLen := 256, idleDue := 0, busy := busy, lastChunk := last }
def transferring (busy : Option Asker) (last : Bool) : State := { mgd with
  hid := { Hidiquel.init with xfer := some (xfer0 busy last) } }
/-- Heron in its first cycle of 10 us, the tables sound. -/
def running0 : State := { mgd with
  tables := { mgd.tables with time := { noTime with en0 := true, cycle := 8000 } }
  heron := { Heron.init with started := true, cycle := 1, len := 8000 * ckUnits } }

theorem test_wit_readingRequestsComplete :
    fresh mgd = true ∧ ([] : List Byte).length ≤ 1440 ∧
    (∀ n ∈ [4, 256], n % 4 = 0 ∧ 0 < n ∧ n ≤ 256) ∧ (∀ n ∈ [0, 3, 260], n % 4 ≠ 0 ∨ n = 0 ∨ 256 < n) ∧
    (12 ≤ range1.length ∧ range1.length % 8 = 4 ∧ (range1.length - 4) / 8 ≤ 16) ∧ (11 < 12 ∧ 16 % 8 ≠ 4 ∧ 16 < (140 - 4) / 8) ∧
    (∀ s ∈ [({ mgd with hid := { Hidiquel.init with snaps := [Snap.mk asker0 true [(0x20000000, 1, 0)]] } } : State)],
      s.hid.snaps = [Snap.mk asker0 true [(0x20000000, 1, 0)]] ∧
        (snapRead s (Snap.mk asker0 true [(0x20000000, 1, 0)])).2 = [0x20000000]) ∧
    inBare mgd = false ∧ [(8, 0)].all subscriptionOk = true ∧ [(9, 0)].all subscriptionOk = false ∧
    [(5, 31), (6, 0xFF)].all subscriptionOk = true := by decide +kernel
theorem test_wit_stagingRequestsComplete :
    (fresh mgd = true ∧ inBare mgd = false ∧ mgd.straps.mgmtLock = false ∧ 4 ≤ stage1.length ∧ mgd.commit = none ∧
      mgd.staged = none ∧ (stageEntries (fld stage1 2 2) (stage1.drop 4)) = some [(0x0C000000, [])] ∧
      entryStatus 0x0C000000 [] = 0 ∧ entryStatus 0x02000000 [] ≠ 0) ∧
    (fresh running0 = true ∧ (commitAt 10).length = 20 ∧ fld (commitAt 10) 4 8 < 2 ^ 48 ∧
      fld (commitAt 10) 12 4 < 1000000000 ∧ running0.heron.started = true ∧ (stagedSet running0 1).number = 1 ∧
      1000000 * unitsPerNs ≤ (epochOf running0 (10000000 * unitsPerNs)).1 ∧
      10000000 * unitsPerNs ≤ workingCount running0 + 3600 * unitsPerSec) := by decide +kernel
theorem test_wit_stagingRequestsComplete_commits :
    commitBad running0 (stagedSet running0 1) = [] ∧
    (∀ x ∈ [Staged.mk 1 [(0x03000000, none)]], ∀ s ∈ [({ running0 with staged := some x } : State)],
      fresh s = true ∧ stagedSet s 1 = x ∧ commitBad s (stagedSet s 1) = [(3, 0)]) ∧
    (∀ s ∈ [({ running0 with commit := some { number := 1, time := 10000000 * unitsPerNs } } : State)],
      fresh s = true ∧ s.commit = some { number := fld (commitAt 10) 0 2, time := 10000000 * unitsPerNs } ∧
        100000 * unitsPerNs ≤ (epochOf s (10000000 * unitsPerNs)).1) ∧
    (∀ s ∈ [({ running0 with commit := some { number := 1, time := 0 } } : State)],
      fresh s = true ∧ (epochOf s 0).1 < 100000 * unitsPerNs) := by decide +kernel
theorem test_wit_imageTransferCompletes :
    (fresh mgd = true ∧ mgd.straps.mgmtLock = false ∧ (chunk 1 0).length = 8 + 256 ∧ fld (chunk 1 0) 2 2 = 256 ∧
      fld (chunk 1 0) 0 1 ≤ 1 ∧ mgd.supply.bankQ.brown = false ∧ mgd.boot.runSlot ≠ some .b ∧ flashBusy mgd = false ∧
      hasBit (fld (chunk 1 256) 1 1) 0 = true ∧ fld (chunk 1 256) 4 4 ≠ 0 ∧
      chunkStatus 256 (fld (chunk 1 0) 4 4) false = 0 ∧ mgd.hid.xfer = none ∧ hasBit (fld (chunk 1 0) 1 1) 0 = true) ∧
    (∀ s ∈ [transferring none false], fresh s = true ∧ flashBusy s = false ∧ s.hid.xfer = some (xfer0 none false) ∧
      fld (chunk 0 256) 4 4 = (xfer0 none false).next ∧ hasBit (fld (chunk 0 256) 1 1) 0 = false ∧
      chunkStatus 256 256 true = 0 ∧ fld (chunk 0 0) 4 4 = (xfer0 none false).lastOffset ∧ (xfer0 none false).lastLen = 256 ∧
      (xfer0 none false).idleDue ≤ s.now) ∧
    (∀ l ∈ [false, true], hidServes (transferring (some asker0) l) = true ∧
      (transferring (some asker0) l).hid.xfer = some (xfer0 (some asker0) l) ∧
      (xfer0 (some asker0) l).busy = some asker0 ∧ (xfer0 (some asker0) l).lastChunk = l) := by decide +kernel

def switch0 : Switch := { slot := .b, asker := asker0, answer := none, resetAt := none }
def switching0 : State := { mgd with hid := { Hidiquel.init with switch := some switch0 } }
def raising (n : Nat) : State := { mgd with hid := { Hidiquel.init with raise := some { target := n, asker := asker0 } } }

theorem test_wit_switchAndRaiseComplete :
    (fresh mgd = true ∧ ([1, 0, 0, 0] : List Byte).length = 4 ∧ 1 < fld [2, 0, 0, 0] 0 1 ∧ fld [1, 0, 0, 0] 0 1 ≤ 1 ∧
      mgd.hid.xfer = none ∧ mgd.hid.switch = none ∧ fresh (transferring none false) = true ∧
      (transferring none false).hid.xfer.isSome = true) ∧
    (hidServes switching0 = true ∧ switching0.hid.switch = some switch0 ∧ switch0.answer = none ∧ switch0.resetAt = none ∧
      (checkRegion switching0 .b ⟨false, [], false⟩).code ≠ 0 ∧ (switchWords switching0 .b).isSome = true) ∧
    (mgd.straps.mgmtLock = false ∧ inBare mgd = false ∧ mgd.hid.raise = none ∧ otpFloor mgd.otp = 0 ∧
      127 < fld [128, 0, 0, 0] 0 1 ∧ fld [0, 0, 0, 0] 0 1 = otpFloor mgd.otp ∧
      otpFloor mgd.otp < fld [127, 0, 0, 0] 0 1 ∧ fld [127, 0, 0, 0] 0 1 ≤ 127) ∧
    (∀ n ∈ [0, 127], hidServes (raising n) = true ∧ (raising n).hid.raise = some { target := n, asker := asker0 } ∧
      otpFloor (raising n).otp ≤ n ∧ n ≤ 127) := by decide +kernel

/-! ### Witnesses: power, Turnstone and the scrubber -/

/-- The straps' tolerance unbounded (LTOL code 15), a POWER record that lets the device go to S4. -/
def power4 : PowerRec :=
  { deepest := 4, wakeMagic := true, wakeLink := true, wakePin := true, filterEn := 0, guardUs := 0
    netTol := 0xFFFFFFFF, filters := List.replicate 1152 0 }
def sleepy : State := { svc with
  ladder := { svc.ladder with pins := (List.range 8).map (fun i => { LadderPin.init with
    settled := true, code := if i = 7 then 15 else if i = 3 then 4 else 0 }) }
  tables := { emptyTables with power := some power4 }
  station := { Station.init with hostLtr := 0xFFFFFFFF }
  heron := { Heron.init with started := true, len := 800000000 * ckUnits }
  now := 3200, power := { Power.init with quietSince := some 0 } }
def atLevel (n : Nat) (s : State) : State := { s with power := { s.power with level := n } }
def asleep0 : LinkSt := { activeLink with asleep := true, deep := true }

theorem test_wit_levelsComplete :
    (ckRuns sleepy = true ∧ shallowLevel sleepy = 2 ∧ sleepy.power.level = 0) ∧
    (ckRuns (atLevel 2 svc) = true ∧ shallowLevel (atLevel 2 svc) = 0 ∧ shallowLevel (atLevel 2 svc) < 2 ∧
      (link (setLink (atLevel 2 svc) 0 asleep0) 0).asleep = true) ∧
    (∀ s ∈ [setPort (atLevel 2 svc) 0 { upPort with lowPower := true }],
      (port s 0).lowPower = true ∧ (port s 0).sendAfter = 0) ∧
    (svc.boot.cleared = true ∧ svc.power.efftolDue ≤ svc.now) := by decide +kernel
theorem test_wit_lightSleepCompletes :
    (∀ n ∈ [1, 2], ∀ s ∈ [({ atLevel n (withLink 0 { activeLink with timeDue := 801 }) with now := 800 } : State)],
      ckRuns s = true ∧ 1 ≤ s.power.level ∧ laneIdle s 0 = true ∧ wakeCalled s 0 = false) ∧
    (∀ d ∈ [false, true], ∀ s ∈ [withLink 0 { asleep0 with deep := d }],
      (link s 0).asleep = true ∧ wakeCalled s 0 = true) ∧
    (∀ n ∈ [2, 3], ∀ s ∈ [({ atLevel n (withLink 0 asleep0) with now := 8000000 } : State)],
      running s = true ∧ (link s 0).asleep = true ∧ (link s 0).sleepSince + 8000000 ≤ s.now ∧
        (lanesRec s 0).timeBlocks = true) ∧
    (∀ s ∈ [({ atLevel 2 (withPort 0 upPort) with now := 800 } : State)],
      2 ≤ s.power.level ∧ (port s 0).up = true ∧ (port s 0).lowPower = false ∧ portIdle s 0 = true) ∧
    (∀ s ∈ [({ withPort 0 { upPort with lowPower := true, sendAfter := 1 } with now := 1 } : State)],
      (port s 0).lowPower = true ∧ (port s 0).sendAfter ≠ 0 ∧ (port s 0).sendAfter ≤ s.now) := by decide +kernel

def bittern0 : Bittern := { record := power4, address := 2, mgmtAddress := 1, port := 0, faultN := false, woken := false }
def inS4 (x : Bittern) : State := { State.reset with
  supply := { Supply.init with pgood := true }, power := { Power.init with level := 4, bittern := some x } }
/-- A magic frame for address 2: six bytes 0xFF, then the address sixteen times. -/
def magicBody : List Byte := List.replicate 6 0xFF ++ List.replicate 6 0 ++ [8, 0] ++ List.replicate 6 0xFF ++
  (List.replicate 16 [0, 0, 0, 0, 0, 2]).flatten

theorem test_wit_deepSleepsComplete :
    (∀ s ∈ [({ sleepy with boot := { svc.boot with runSlot := some .a } } : State)],
      ckRuns s = true ∧ quietLong s = true ∧ s3Allowed s = true) ∧
    (running (atLevel 3 missing) = true ∧ (atLevel 3 missing).power.level = 3 ∧ wakeHolds (atLevel 3 missing) (.frame 0) = true ∧
      wakeHolds (atLevel 3 missing) .tolerance = true ∧ boundaryDue (atLevel 3 missing) = true ∧
      boundaryDue (atLevel 3 sleepy) = false) ∧
    (running (atLevel 0 sleepy) = true ∧ sleepy.tables.power = some power4 ∧ s4Allowed sleepy true = true) := by
  decide +kernel
theorem test_wit_deepSleepsComplete_bittern :
    ((inS4 bittern0).power.bittern = some bittern0 ∧ frameWakes bittern0 (withFcs magicBody) = true ∧
      bittern0.record.wakeLink = true ∧ bittern0.record.wakePin = true) ∧
    (∀ x ∈ [{ bittern0 with woken := true }], (inS4 x).power.bittern = some x ∧ x.woken = true) := by decide +kernel
def armed : State := { svc with straps := { BinaryStraps.init with freezeArm := true } }
theorem test_wit_freezeAndReadoutComplete :
    (running up = true ∧ 10 ≤ 10 ∧ up.ladder.done = false ∧ up.freeze.held = false) ∧
    (running armed = true ∧ armed.ladder.done = true ∧ armed.straps.freezeArm = true ∧ svc.straps.freezeArm = false ∧
      armed.supply.bankQ.unpowered = false) ∧
    (frozen frz = true ∧ frz.readout.running = false) ∧
    (∀ n ∈ [0, 1], ∀ s ∈ [({ frz with readout := { Readout.init with running := true, pos := n } } : State)],
      frozen s = true ∧ s.readout.running = true ∧ s.readout.pos = n) := by decide +kernel
/-- A word of the process image with no flipped bit, one and two. -/
def flipped (bits : List Nat) : State := each [Upset.mk .processImage 0 0 bits] addUpset { svc with now := 16 }
theorem test_wit_scrubbingCompletes_hostWord :
    ∀ s ∈ [({ svc with scrubs := [(memCode .processImage, { next := 0xFFC0 + 63, due := 0 })] } : State)],
      (scrub s (memCode .processImage)).due ≤ s.now ∧ (scrub s (memCode .processImage)).next = 0xFFC0 + 63 := by
  decide +kernel
theorem test_wit_scrubbingCompletes : ∀ l ∈ [[], [71], [0, 71]],
    ckRuns (flipped l) = true ∧ (flipped l).boot.pllLocked = true ∧
      (scrub (flipped l) (memCode .processImage)).due ≤ (flipped l).now ∧
      (scrub (flipped l) (memCode .processImage)).next = 0 ∧ (flips (flipped l) .processImage 0 0).length = l.length := by
  decide +kernel

/-! ### Witnesses: addressing and frames -/

theorem test_wit_halvesOfAWord : 65535 < 65536 ∧ halves.straps.pipW16 = true ∧ svc.straps.pipW16 = false ∧
    halves.supply.inReset = false ∧ halves.power.level ≠ 4 ∧ halves.supply.bankP.brown = false ∧ halves.halfLatch = none := by
  decide
theorem test_wit_frames : (∀ x ∈ [(Instr.corePllLock, [Family.supply, .boot, .power, .turnstone]),
      (.wheelSlot, [.time, .heron, .wheel, .ethernet]), (.ackTimer 0, [.dziak, .training]),
      (.hostWrite 0 1 ⟨1, 0⟩, [.pip, .avocet, .hidiquel])], familyOf x.1 ∈ x.2) ∧
    Part.mem ∉ writes .corePllLock := by decide

/-! ### Worked cases of the manual -/

/-- The Orrevik board's ladder (02, "Case: straps and supplies of the Orrevik board"). -/
def orrevikPins : List LadderPin := [356, 6320, 1500, 266, 1124, 266, 26000, 356].map (fun v =>
  { LadderPin.init with settled := true, code := codeOf v })
def orrevik : State := { svc with ladder := { svc.ladder with pins := orrevikPins } }

theorem test_orrevik_straps : stationId orrevik = 0x2C ∧ plan orrevik = 7 ∧ planLinks (plan orrevik) = 22 ∧
    (List.range 4).map (strapMode orrevik) = [1, 6, 1, 0] ∧ ltolUs orrevik = some 5 ∧ codeOf 474 = 3 := by decide +kernel
/-- Plan 7 (00 and 09): pump drives on links 16 to 18, a controller on link 20 with lane 26 its logical lane 2. -/
theorem test_orrevik_plan : laneHome orrevik 14 = some (14, 0) ∧ linkLanes orrevik 16 = [16, 17] ∧
    linkLanes orrevik 19 = [22, 23] ∧ laneHome orrevik 26 = some (20, 2) ∧ linkLanes orrevik 21 = [28, 29, 30, 31] ∧
    inPlan orrevik 22 = false := by decide +kernel
/-- 14, "Case: Orrevik in S1": LTOL 5 us, HOSTLTR 5 us, network tolerance 50 us, D of 2. -/
def orrevikS1 : State := { orrevik with
  tables := { emptyTables with power := some { power4 with deepest := 2, guardUs := 2, netTol := 50 }, netTol := 50 }
  station := { Station.init with hostLtr := 5 }
  heron := { Heron.init with started := true, len := 400000 * ckUnits } }
theorem test_orrevik_s1 : (after .powerLevelChange orrevikS1).power.level = 1 ∧
    (after .efftolUpdate orrevikS1).station.effTol = 5 := by decide +kernel
/-- 05, "Case: losing network A's grandmaster": domain 1 reads 240 ns ahead at the loss; h becomes -240 ns, removed at
100 ppm; five cycles end it. -/
def orrevikTime : State := { svc with
  tables := { emptyTables with time := { noTime with en0 := true, en1 := true, alignment := 1, cycle := 400000 } }
  heron := { Heron.init with started := true, len := 400000 * ckUnits }
  dunlin := { Dunlin.init with
    rebased := true, dom0 := { lockedDom with lockedSince := true }
    dom1 := { lockedDom with count := 240 * unitsPerNs, lockedSince := true } } }
theorem test_orrevik_switch : ∀ t ∈ [stepped (after (.syncLossTimeout 0) orrevikTime)],
    t.dunlin.working = 1 ∧ t.dunlin.h = -240 * unitsPerNs ∧ t.dunlin.slewPpm = 100 ∧ t.dunlin.dom0.st = .holdover ∧
      aligning t = true ∧ (tick t).heron.acc = 2 * ckUnits + ckUnits * 100 / 1000000 := by decide +kernel
/-- 06 R122: D of a frame of 64 bytes at 10 Gb/s is 54 ck, and of 1,522 bytes at 1,000 Mb/s 9,869 ck. -/
theorem test_wire_times : wireCk upPort 64 = 54 ∧ wireCk { upPort with mode := 5 } 1522 = 9869 := by decide
/-- 08 R185: the IEEE 802.3 CRC-32 of the digits 1 to 9 is 0xCBF43926. -/
theorem test_crc32 : crc32 [0x31, 0x32, 0x33, 0x34, 0x35, 0x36, 0x37, 0x38, 0x39] = 0xCBF43926 := by decide +kernel
/-- FIPS 180-4: the SHA-256 of "abc". -/
theorem test_sha256 : sha256 [0x61, 0x62, 0x63] =
    0xBA7816BF8F01CFEA414140DE5DAE2223B00361A396177A9CB410FF61F20015AD := by decide +kernel
/-- FIPS 197, appendix C.1: the inverse cipher. -/
theorem test_aes_inverse : aesDecrypt 0x000102030405060708090A0B0C0D0E0F 0x69C4E0D86A7B0430D8CDB78070B4C55A =
    0x00112233445566778899AABBCCDDEEFF := by decide +kernel
/-- RFC 4493, example 1: the CMAC of the empty message, its first 96 bits (13 R302). -/
theorem test_cmac : cmac 0x2B7E151628AED2A6ABF7158809CF4F3C [] = 0xBB1D6929E95937287FA37D12 := by decide +kernel
/-- RFC 6979, A.2.5: the P-256 and SHA-256 signature of "sample" is good. -/
theorem test_ecdsa : ecdsaVerify
    (beBytes 32 0x60FED4BA255A9D31C961EB74C6356D68C049B8923B61FA6CE669622E60F29FB6 ++
      beBytes 32 0x7903FE1008B8BC99A41AE9E95628BC64F2F1B20C2D7E9F5177A3C294D4462299)
    (sha256 [0x73, 0x61, 0x6D, 0x70, 0x6C, 0x65])
    (beBytes 32 0xEFD48B2AACB6A8FD1140DD9CD45E81D69D2C877B56AAF991C34D0EA84EAF3716 ++
      beBytes 32 0xF7CB1C942D657C41D436C7A1B6E29F65F3E900DBB9AFF4064DC4AB2F843ACDA8) = true := by decide +kernel
/-- 00 R7: in 16-bit mode PA 2n + 1 holds bits 31 to 16. -/
theorem test_half_write : ∀ t ∈ [after (.hostWrite 1 0xBEEF ⟨3, 0⟩) halves],
    readByte t 2 = 0xEF ∧ readByte t 3 = 0xBE ∧ readByte t 0 = 0 ∧ t.mem.length = 2 := by decide +kernel
/-- 02 R29: a RESET_N pulse of 499 ns does nothing; one of 2 us resets. -/
theorem test_reset_n : after (.resetN 499) svc = svc ∧ (after (.resetN 2000) svc).supply.inReset = true ∧
    (after (.resetN 2000) svc).boot.phase = .reset := by decide +kernel
/-- 10 R245: an unnamed doorbell is set, then cleared and counted in the next ck; before SERVICE it waits. -/
theorem test_doorbell : (after (.doorbellRing 4) svc).station.doorbell = 4 ∧
    (∀ t ∈ [stepped (after (.doorbellRing 4) svc)], t.station.doorbell = 0 ∧ readCtr t 0x20 0 22 = 1) ∧
    (after (.doorbellRing 4) { early with straps := BinaryStraps.init }).station.doorbell = 4 := by decide +kernel
/-- 07 R152: a pause of 0xFFFF quanta at 10 Gb/s lasts 65,535 x 51.2 ns. -/
theorem test_pause : (port (after (.pfcReceived 0 { enable := 1, quanta := [0xFFFF, 0, 0, 0, 0, 0, 0, 0] }) rxPort) 0).pausedUntil
    = [2684314, 0, 0, 0, 0, 0, 0, 0] := by decide +kernel
/-- A step runs the front command and keeps the rest of the queue. -/
theorem test_step : step { missing with pending := [.cycleBoundary, .wakeN] } =
    exec .cycleBoundary { missing with pending := [.wakeN] } ∧
    (after .cycleBoundary { missing with pending := [.wakeN] }).pending = [.wakeN] ∧
    (after .cycleBoundary missing).heron.cycle = 1 := ⟨rfl, by decide +kernel, by decide +kernel⟩
end Sys2Proof.Tests
end

section
/-!
SUPPORT. The two halves of a word in 16-bit mode (00 R7): what an access addresses by its PA address, and what a host
read puts on PD.
-/
namespace Sys2Proof.Machine

variable {s : State} {pa : BitVec 17} {n : Nat} {d : Word} {be : BitVec 4} {e : Emission}

/-! ### PA[0] names the half -/

theorem getLsbD_zero_of_even (h : pa.toNat = 2 * n) : pa.getLsbD 0 = false := by
  rw [BitVec.getLsbD, Nat.testBit_zero, h]
  simp

theorem getLsbD_zero_of_odd (h : pa.toNat = 2 * n + 1) : pa.getLsbD 0 = true := by
  rw [BitVec.getLsbD, Nat.testBit_zero, h]
  simp [Nat.add_mod]

/-! ### Word, data and byte enables of an access -/

theorem accessWord_half (hw : s.straps.pipW16 = true) : accessWord s pa = pa.toNat / 2 := by simp [accessWord, hw]

theorem accessWord_whole (hw : s.straps.pipW16 = false) : accessWord s pa = pa.toNat % 65536 := by
  simp [accessWord, hw]

theorem accessData_low (hw : s.straps.pipW16 = true) (h : pa.getLsbD 0 = false) :
    accessData s pa d = d &&& 0xFFFF := by
  simp only [accessData, hw, h, ↓reduceIte, Bool.false_eq_true]

theorem accessData_high (hw : s.straps.pipW16 = true) (h : pa.getLsbD 0 = true) : accessData s pa d = d <<< 16 := by
  simp only [accessData, hw, h, ↓reduceIte]

theorem accessData_whole (hw : s.straps.pipW16 = false) : accessData s pa d = d := by simp [accessData, hw]

theorem accessBytes_low (hw : s.straps.pipW16 = true) (h : pa.getLsbD 0 = false) :
    accessBytes s pa be = be &&& 3 := by
  simp only [accessBytes, hw, h, ↓reduceIte, Bool.false_eq_true]

theorem accessBytes_high (hw : s.straps.pipW16 = true) (h : pa.getLsbD 0 = true) :
    accessBytes s pa be = (be &&& 3) <<< 2 := by
  simp only [accessBytes, hw, h, ↓reduceIte]

theorem accessBytes_whole (hw : s.straps.pipW16 = false) : accessBytes s pa be = be := by simp [accessBytes, hw]

/-- The lower half of an access's data is bits [15:0] of the word. -/
theorem getLsbD_accessData_low (hw : s.straps.pipW16 = true) (h : pa.getLsbD 0 = false) (i : Fin 16) :
    (accessData s pa d).getLsbD i.val = d.getLsbD i.val := by
  have mask : (0xFFFF : Word).getLsbD i.val = true := by decide +revert
  rw [accessData_low hw h, BitVec.getLsbD_and, mask, Bool.and_true]

/-- The upper half is bits [31:16]. -/
theorem getLsbD_accessData_high (hw : s.straps.pipW16 = true) (h : pa.getLsbD 0 = true) (i : Fin 16) :
    (accessData s pa d).getLsbD (16 + i.val) = d.getLsbD i.val := by
  have hi : 16 + i.val < 32 := by omega
  rw [accessData_high hw h, BitVec.getLsbD_shiftLeft]
  simp [hi]

/-- The lower half enables bytes 0 and 1 alone. -/
theorem getLsbD_accessBytes_low (hw : s.straps.pipW16 = true) (h : pa.getLsbD 0 = false) (j : Fin 2) :
    (accessBytes s pa be).getLsbD j.val = be.getLsbD j.val ∧ (accessBytes s pa be).getLsbD (2 + j.val) = false := by
  rw [accessBytes_low hw h]
  revert be j
  decide

/-- The upper half enables bytes 2 and 3 alone. -/
theorem getLsbD_accessBytes_high (hw : s.straps.pipW16 = true) (h : pa.getLsbD 0 = true) (j : Fin 2) :
    (accessBytes s pa be).getLsbD (2 + j.val) = be.getLsbD j.val ∧ (accessBytes s pa be).getLsbD j.val = false := by
  rw [accessBytes_high hw h]
  revert be j
  decide

/-! ### Host reads -/

theorem mem_out_emit : e ∈ (emit e s).out := by simp

theorem mem_out_readHalf_low (h : pa.getLsbD 0 = false) :
    .pd s.now pa ((lowHalf (hostWord s (pa.toNat / 2))).setWidth 32) ∈ (readHalf pa s).out := by
  simp only [readHalf, h, ↓reduceIte, Bool.false_eq_true]
  exact mem_out_emit

theorem mem_out_readHalf_high (h : pa.getLsbD 0 = true) (hl : s.halfLatch = none) :
    .pd s.now pa ((highHalf (hostWord s (pa.toNat / 2))).setWidth 32) ∈ (readHalf pa s).out := by
  simp only [readHalf, h, hl, ↓reduceIte]
  exact mem_out_emit

theorem mem_out_readWhole : .pd s.now pa (hostWord s (pa.toNat % 65536)) ∈ (readWhole pa s).out :=
  mem_out_emit

/-- Out of reset and S4, with VDDIO_P up, a host read takes place (10 R234). -/
theorem exec_halfReadLatch_on (hr : s.supply.inReset = false) (hl : s.power.level ≠ 4)
    (hb : s.supply.bankP.brown = false) :
    exec (.halfReadLatch pa) s = .next (publish s (if s.straps.pipW16 then readHalf pa s else readWhole pa s)) :=
  act_on (op := fun s => if s.straps.pipW16 then readHalf pa s else readWhole pa s) (by simp [hr, hl, hb])

/-- What such a read puts on the wires in 16-bit mode. -/
theorem exec_halfReadLatch_half (hw : s.straps.pipW16 = true) (hr : s.supply.inReset = false)
    (hl : s.power.level ≠ 4) (hb : s.supply.bankP.brown = false) (h : e ∈ (readHalf pa s).out) :
    ∃ t, exec (.halfReadLatch pa) s = .next t ∧ e ∈ t.out :=
  ⟨_, exec_halfReadLatch_on hr hl hb, mem_out_publish (by simpa [hw] using h)⟩

/-- What such a read puts on the wires in 32-bit mode. -/
theorem exec_halfReadLatch_whole (hw : s.straps.pipW16 = false) (hr : s.supply.inReset = false)
    (hl : s.power.level ≠ 4) (hb : s.supply.bankP.brown = false) (h : e ∈ (readWhole pa s).out) :
    ∃ t, exec (.halfReadLatch pa) s = .next t ∧ e ∈ t.out :=
  ⟨_, exec_halfReadLatch_on hr hl hb, mem_out_publish (by simpa [hw] using h)⟩

/-- Settles O56: PA[0] chooses the half and the other bits of PA the word, for the operands of a write and for what a
read puts on PD. -/
theorem halvesOfAWord : Obligations.HalvesOfAWord := by
  unfold Obligations.HalvesOfAWord
  rintro s n d be lo hi pa hn rfl rfl rfl
  have elo : (BitVec.ofNat 17 (2 * n)).toNat = 2 * n := Nat.mod_eq_of_lt (by omega)
  have ehi : (BitVec.ofNat 17 (2 * n + 1)).toNat = 2 * n + 1 := Nat.mod_eq_of_lt (by omega)
  have epa : (BitVec.ofNat 17 n).toNat = n := Nat.mod_eq_of_lt (by omega)
  have wlo : (BitVec.ofNat 17 (2 * n)).toNat / 2 = n := by omega
  have whi : (BitVec.ofNat 17 (2 * n + 1)).toNat / 2 = n := by omega
  have wpa : (BitVec.ofNat 17 n).toNat % 65536 = n := by omega
  have blo := getLsbD_zero_of_even elo
  have bhi := getLsbD_zero_of_odd ehi
  constructor
  · intro hw
    refine ⟨(accessWord_half hw).trans wlo, (accessWord_half hw).trans whi,
      fun i => ⟨getLsbD_accessData_low hw blo i, getLsbD_accessData_high hw bhi i⟩, fun j => ?_,
      fun hr hl hb hnone => ⟨exec_halfReadLatch_half hw hr hl hb ?_, exec_halfReadLatch_half hw hr hl hb ?_⟩⟩
    · obtain ⟨low, lowOff⟩ := getLsbD_accessBytes_low (be := be) hw blo j
      obtain ⟨high, highOff⟩ := getLsbD_accessBytes_high (be := be) hw bhi j
      exact ⟨low, lowOff, high, highOff⟩
    · simpa only [wlo] using mem_out_readHalf_low (s := s) blo
    · simpa only [whi] using mem_out_readHalf_high bhi hnone
  · intro hw
    refine ⟨(accessWord_whole hw).trans wpa, accessData_whole hw, accessBytes_whole hw,
      fun hr hl hb => exec_halfReadLatch_whole hw hr hl hb ?_⟩
    simpa only [wpa] using mem_out_readWhole (s := s) (pa := BitVec.ofNat 17 n)

end Sys2Proof.Machine
end

section
/-!
SUPPORT. The cycle number (01 R11): which commands leave Heron's clock, by family, and what Dunlin's rebase and each
step of a cycle boundary (01 R10) do to it.
-/
namespace Sys2Proof.Machine

variable {s t : State}

/-! ### What leaves Heron's clock -/

/-- Every part but Heron's clock. -/
def offClock : List Part := everyPart.erase .heronClock

@[simp] theorem mem_offClock {p : Part} : p ∈ offClock ↔ p ≠ .heronClock ∧ p ≠ .pending := by
  cases p <;> decide

/-- What leaves Heron's clock leaves the cycle number, and whether a boundary is due. -/
theorem cycle_of_offClock (h : SameBut offClock s t) : t.heron.cycle = s.heron.cycle := by
  have clock : clockOf s.heron = clockOf t.heron := h .heronClock (by simp)
  simp_all [clockOf]

theorem boundaryDue_of_offClock (h : SameBut offClock s t) : boundaryDue t = boundaryDue s := by
  have clock : clockOf s.heron = clockOf t.heron := h .heronClock (by simp)
  simp_all [clockOf, boundaryDue]

/-! ### Dunlin: a rebase gives a cycle its own length again and counts no cycle (05 R107) -/

@[simp] theorem cycle_rebase {b : Bool} : (rebase b s).heron.cycle = s.heron.cycle := by simp [rebase]

@[simp] theorem cycle_hotSwitch : (hotSwitch s).heron.cycle = s.heron.cycle := by simp [hotSwitch]

@[simp] theorem cycle_setDom {d : Dom} {x : DomSt} : (setDom d x s).heron.cycle = s.heron.cycle :=
  cycle_of_offClock (by simp)

@[simp] theorem cycle_idleRate {d : Dom} : (idleRate d s).heron.cycle = s.heron.cycle := cycle_of_offClock (by simp)

@[simp] theorem cycle_callSwitch {d : Dom} : (callSwitch d s).heron.cycle = s.heron.cycle :=
  cycle_of_offClock (by simp)

@[simp] theorem cycle_chooseWorking {d : Dom} : (chooseWorking d s).heron.cycle = s.heron.cycle := by
  simp only [chooseWorking]
  (repeat' split) <;> simp

@[simp] theorem cycle_enterDom {d : Dom} {st : DomState} : (enterDom d st s).heron.cycle = s.heron.cycle := by
  simp only [enterDom]
  (repeat' split) <;> simp

@[simp] theorem cycle_takeGm {d : Dom} {gm : BitVec 64} : (takeGm d gm s).heron.cycle = s.heron.cycle := by
  simp only [takeGm]
  (repeat' split) <;> simp

@[simp] theorem cycle_stepDom {d : Dom} {off : Int} : (stepDom d off s).heron.cycle = s.heron.cycle := by
  simp only [stepDom]
  split <;> simp

@[simp] theorem cycle_trimDom {d : Dom} {off : Int} : (trimDom d off s).heron.cycle = s.heron.cycle := by
  simp only [trimDom]
  (repeat' split) <;> simp

@[simp] theorem cycle_servo {d : Dom} {off : Int} : (servo d off s).heron.cycle = s.heron.cycle := by
  simp only [servo]
  split <;> simp

@[simp] theorem cycle_takeSync {d : Dom} {x : SyncInfo} : (takeSync d x s).heron.cycle = s.heron.cycle := by
  simp only [takeSync]
  split <;> simp

@[simp] theorem cycle_chooseMaster {d : Dom} : (chooseMaster d s).heron.cycle = s.heron.cycle := by
  simp only [chooseMaster]
  split <;> simp

@[simp] theorem cycle_takeAnnounce {d : Dom} {x : AnnounceInfo} :
    (takeAnnounce d x s).heron.cycle = s.heron.cycle := by
  simp only [takeAnnounce]
  split <;> simp

/-! ### Heron -/

@[simp] theorem cycle_beginCycle : (beginCycle s).heron.cycle = s.heron.cycle := by
  simp only [beginCycle]
  split <;> simp

@[simp] theorem cycle_countCycle : (countCycle s).heron.cycle = s.heron.cycle + 1 := rfl

/-- Of a boundary's steps (01 R10) only the count moves the cycle number. -/
theorem cycle_boundaryOf {go : Bool} : (boundaryOf go s).heron.cycle = s.heron.cycle + 1 := by
  have ended : (endStep (passedOver go s)).heron.cycle = s.heron.cycle := cycle_of_offClock (by simp)
  have committed : ∀ u, (commitStep u).heron.cycle = u.heron.cycle := fun u => cycle_of_offClock (by simp)
  have opened : ∀ d u, (boundaryDuties d (openCycle go u)).heron.cycle = u.heron.cycle :=
    fun d u => cycle_of_offClock (by simp)
  rw [boundaryOf, opened, cycle_beginCycle, committed, cycle_countCycle, ended]

theorem cycle_inOneCk {n : Nat} {f : Bool → State → State} (h : ∀ go, (f go s).heron.cycle = n) :
    (inOneCk f s).heron.cycle = n := by
  simp only [inOneCk]
  split <;> simp [h]

theorem cycle_boundary : (boundary s).heron.cycle = s.heron.cycle + 1 := cycle_inOneCk fun _ => cycle_boundaryOf

theorem cycle_heronWork : (heronWork s).heron.cycle = s.heron.cycle + if boundaryDue s then 1 else 0 := by
  rw [heronWork]
  refine cycle_inOneCk fun go => ?_
  have due : ∀ u, (takeDue go u).heron.cycle = u.heron.cycle := fun u => cycle_of_offClock (by simp)
  rw [due]
  split
  · exact cycle_boundaryOf
  · rfl

theorem cycle_voteUnder {l : List HeronUpset} :
    (voteUnder l s).heron.cycle = s.heron.cycle + if boundaryDue s then 1 else 0 := by
  have struck : ∀ (m : List HeronUpset) u, SameBut offClock u (each m heronUpset u) := fun m u => by simp
  have voted : ∀ u, (vote u).heron.cycle = u.heron.cycle := fun u => cycle_of_offClock (by simp)
  rw [voteUnder, voted, cycle_of_offClock (struck _ _), cycle_heronWork, boundaryDue_of_offClock (struck _ _),
    cycle_of_offClock (struck _ _)]

theorem act_cycle {g : Bool} {op : State → State} (h : act g op s = .next t)
    (hop : (op s).heron.cycle = s.heron.cycle) : t.heron.cycle = s.heron.cycle := by
  rcases act_next h with ⟨-, rfl⟩ | ⟨-, rfl⟩
  · rfl
  · simpa using hop

/-! ### The commands that leave Heron's clock, by family -/

/-- A request that MGMT_LOCK or BARE refuses leaves the clock where its work does. -/
theorem keepsClock_lockedRequest {p : Port} {n : Nat} {r : HidFrame} {a b : Bool}
    {work : State → State × Option (Nat × List Byte)} (hw : ∀ u, SameBut offClock u (work u).1) :
    SameBut offClock s (request p n r (lockedOr a b work) s) :=
  (same_request (fun _ => (same_lockedOr hw).2 SameBut.refl) (by simp)).2 SameBut.refl

section
variable {c : Instr} (h : exec c s = .next t)
include h

theorem keepsClock_wheel (hf : familyOf c = .wheel) : SameBut offClock s t := by
  cases c
  case wheelSlot | coarseSlot | deadlineExpiry | transmitSelection | transmitComplete =>
    simp only [exec, execWheelSlot, execCoarseSlot, execDeadlineExpiry, execTransmitSelection,
      execTransmitComplete] at h
    exact act_frame h fun _ => by (repeat' split) <;> simp
  all_goals nomatch hf

theorem keepsClock_ethernet (hf : familyOf c = .ethernet) : SameBut offClock s t := by
  cases c
  case frameReceive | recoveryResetTimeout | pfcReceived | macControlIgnored | pauseExpiry | pfcSend | pfcRefresh |
    verifyTimer | verifyMpacketReceived | mpacketReceived | portDown | portUp | linkUpHoldEnd | sgmiiInbandWord |
    phyPoll | phyRestart | ctUnderrun | tunnelFcsError | tunnelOverlength =>
    simp only [exec, execFrameReceive, execRecoveryResetTimeout, execPfcReceived, execMacControlIgnored,
      execPauseExpiry, execPfcSend, execPfcRefresh, execVerifyTimer, execVerifyMpacketReceived,
      execMpacketReceived, execPortDown, execPortUp, execLinkUpHoldEnd, execSgmiiInbandWord, execPhyPoll,
      execPhyRestart, execCtUnderrun, execTunnelFcsError, execTunnelOverlength] at h
    exact act_frame h fun _ => by (repeat' split) <;> simp
  all_goals nomatch hf

theorem keepsClock_dziak (hf : familyOf c = .dziak) : SameBut offClock s t := by
  cases c
  case packetReceived | pairResetTimeout | ackTimer | ackReceived | nakReceived | replayTimeout | linkDown |
    packetSend | creditWaitDeadline | creditReturn | auditSend | auditReceived | controlBlockDiscard =>
    simp only [exec, execPacketReceived, execPairResetTimeout, execAckTimer, execAckReceived, execNakReceived,
      execReplayTimeout, execLinkDown, execPacketSend, execCreditWaitDeadline, execCreditReturn, execAuditSend,
      execAuditReceived, execControlBlockDiscard] at h
    exact act_frame h fun _ => by (repeat' split) <;> simp
  all_goals nomatch hf

theorem keepsClock_training (hf : familyOf c = .training) : SameBut offClock s t := by
  cases c
  case detectBeacon | backoffReset | ts1Detected | blockLock | alignComplete | paramReceived | paramAckReceived |
    speedCountdownEnd | eqReqReceived | eqDoneReceived | readyReceived | trainingTimeout | retrain |
    eyeMapComplete | dfeAdapt | calBlockSend | calBlockReceived =>
    simp only [exec, execDetectBeacon, execBackoffReset, execTs1Detected, execBlockLock, execAlignComplete,
      execParamReceived, execParamAckReceived, execSpeedCountdownEnd, execEqReqReceived, execEqDoneReceived,
      execReadyReceived, execTrainingTimeout, execRetrain, execEyeMapComplete, execDfeAdapt, execCalBlockSend,
      execCalBlockReceived] at h
    exact act_frame h fun _ => by (repeat' split) <;> simp
  all_goals nomatch hf

theorem keepsClock_pip (hf : familyOf c = .pip) : SameBut offClock s t := by
  cases c
  case hostWrite | halfReadLatch | eventFlagClear | attnmaskWrite | doorbellRing | hostltrWrite | rearmPulseEnd =>
    simp only [exec, execHostWrite, execHalfReadLatch, execEventFlagClear, execAttnmaskWrite, execDoorbellRing,
      execHostltrWrite, execRearmPulseEnd] at h
    exact act_frame h fun _ => by simp
  all_goals nomatch hf

theorem keepsClock_avocet (hf : familyOf c = .avocet) : SameBut offClock s t := by
  cases c
  case avocetTrigger | avocetHalfCompletion | avocetFullCompletion | avocetBusError | listenAgeDiscard |
    lanepoolAgeDiscard =>
    simp only [exec, execAvocetTrigger, execAvocetHalfCompletion, execAvocetFullCompletion, execAvocetBusError,
      execListenAgeDiscard, execLanepoolAgeDiscard] at h
    exact act_frame h fun _ => by simp
  all_goals nomatch hf

theorem keepsClock_turnstone (hf : familyOf c = .turnstone) : SameBut offClock s t := by
  cases c
  case scrubRead | freezeN | readoutStart | readoutEnd | readoutNibble =>
    simp only [exec, execScrubRead, execFreezeN, execReadoutStart, execReadoutEnd, execReadoutNibble] at h
    exact act_frame h fun _ => by simp
  all_goals nomatch hf

variable (hc : .heronClock ∉ writes c)
include hc

theorem keepsClock_supply (hf : familyOf c = .supply) : SameBut offClock s t := by
  cases c
  case powerOn | railBrownOut | resetN | vinUndervoltage | xinLoss | thermalShutdown => simp [writes, everyPart] at hc
  case railsInRegulation | resetRelease | srefclkFault | srefclkRecovery | bankBrownOut | bankBrownOutRecovery |
    overtemperature | dcqFault | vinRestart =>
    simp only [exec, execRailsInRegulation, execResetRelease, execSrefclkFault, execSrefclkRecovery,
      execBankBrownOut, execBankBrownOutRecovery, execOvertemperature, execDcqFault, execVinRestart] at h
    exact act_frame h fun _ => by (repeat' split) <;> simp
  all_goals nomatch hf

theorem keepsClock_boot (hf : familyOf c = .boot) : SameBut offClock s t := by
  cases c
  case heronStart => simp [writes] at hc
  case ladderReading | corePllLock | processImageClearDone | otpReadDone | jedecIdReadDone | slotCheckDone |
    configDone | localTimeout =>
    simp only [exec, execLadderReading, execCorePllLock, execProcessImageClearDone, execOtpReadDone,
      execJedecIdReadDone, execSlotCheckDone, execConfigDone, execLocalTimeout] at h
    exact act_frame h fun _ => by (repeat' split) <;> simp
  all_goals nomatch hf

theorem keepsClock_time (hf : familyOf c = .time) : SameBut offClock s t := by
  cases c
  case syncReceived | syncLossTimeout | announceReceived => simp [writes] at hc
  case alignmentComplete | pdelayReqSend | pdelayReceived | signalingReceived | ppsOutPulse | ppsOutPulseEnd |
    timeInputEdge | serdesLatencyRemeasure | timeBlockSend | echoReceived | echoMissing | dunlinSecondsWrap =>
    simp only [exec, execAlignmentComplete, execPdelayReqSend, execPdelayReceived, execSignalingReceived,
      execPpsOutPulse, execPpsOutPulseEnd, execTimeInputEdge, execSerdesLatencyRemeasure, execTimeBlockSend,
      execEchoReceived, execEchoMissing, execDunlinSecondsWrap] at h
    exact act_frame h fun _ => by (repeat' split) <;> simp
  all_goals nomatch hf

theorem keepsClock_heron (hf : familyOf c = .heron) : SameBut offClock s t := by
  cases c
  case cycleBoundary | heronVote => simp [writes] at hc
  case gateEntry | heronEvent =>
    simp only [exec, execGateEntry, execHeronEvent] at h
    exact act_frame h fun _ => by simp
  all_goals nomatch hf

theorem keepsClock_hidiquel (hf : familyOf c = .hidiquel) : SameBut offClock s t := by
  cases c
  case slotSwitchReset => simp [writes, everyPart] at hc
  case stage | commit | abort | eventSubscribe | imageTransfer | rollbackFloorRaise =>
    simp only [exec, execStage, execCommit, execAbort, execEventSubscribe, execImageTransfer,
      execRollbackFloorRaise] at h
    exact act_frame h fun _ => keepsClock_lockedRequest fun u => by simp
  case discover | read | counterSnapshot | imageTransferDone | transferIdleTimeout | slotSwitch | floorRaiseDone |
    reservedOpcode | slotSwitchCheckDone =>
    simp only [exec, execDiscover, execRead, execCounterSnapshot, execImageTransferDone, execTransferIdleTimeout,
      execSlotSwitch, execFloorRaiseDone, execReservedOpcode, execSlotSwitchCheckDone] at h
    exact act_frame h fun _ => by (repeat' split) <;> simp
  all_goals nomatch hf

theorem keepsClock_power (hf : familyOf c = .power) : SameBut offClock s t := by
  cases c
  case s3Exit | s4Entry => simp [writes, everyPart] at hc
  case laneSleep | laneWake | sleepKeepalive | powerLevelChange | efftolUpdate | s3Entry | bitternFrame |
    bitternLinkChange | wakeN | s4Exit | portLowPowerEntry | portLowPowerExit =>
    simp only [exec, execLaneSleep, execLaneWake, execSleepKeepalive, execPowerLevelChange, execEfftolUpdate,
      execS3Entry, execBitternFrame, execBitternLinkChange, execWakeN, execS4Exit, execPortLowPowerEntry,
      execPortLowPowerExit] at h
    exact act_frame h fun _ => by simp
  all_goals nomatch hf

/-- A command for which `writes` does not list Heron's clock leaves it. -/
theorem exec_keepsClock : SameBut offClock s t := by
  cases hf : familyOf c
  case supply => exact keepsClock_supply h hc hf
  case boot => exact keepsClock_boot h hc hf
  case time => exact keepsClock_time h hc hf
  case heron => exact keepsClock_heron h hc hf
  case wheel => exact keepsClock_wheel h hf
  case ethernet => exact keepsClock_ethernet h hf
  case dziak => exact keepsClock_dziak h hf
  case training => exact keepsClock_training h hf
  case pip => exact keepsClock_pip h hf
  case avocet => exact keepsClock_avocet h hf
  case hidiquel => exact keepsClock_hidiquel h hc hf
  case power => exact keepsClock_power h hc hf
  case turnstone => exact keepsClock_turnstone h hf

/-! ### The cycle number under a command -/

omit h hc in
/-- The commands for which `writes` lists Heron's clock. -/
theorem heronClock_mem_writes (hm : .heronClock ∈ writes c) : assertsReset c = true ∨ c = .cycleBoundary ∨
    c = .heronStart ∨ (∃ l, c = .heronVote l) ∨ (∃ w, c = .s3Exit w) ∨ (∃ x, c = .syncReceived x) ∨
    (∃ d, c = .syncLossTimeout d) ∨ ∃ x, c = .announceReceived x := by
  cases c <;> simp [writes, assertsReset] at hm ⊢

end

/-- Dunlin's commands that may rebase H count no cycle: no loss of the working domain, hot switch, slewing or step
alignment does (05 R105, R107). -/
theorem cycle_of_syncReceived {x : SyncInfo} (h : exec (.syncReceived x) s = .next t) :
    t.heron.cycle = s.heron.cycle := by
  simp only [exec, execSyncReceived] at h
  exact act_cycle h (by split <;> simp)

theorem cycle_of_syncLossTimeout {d : Dom} (h : exec (.syncLossTimeout d) s = .next t) :
    t.heron.cycle = s.heron.cycle := by
  simp only [exec, execSyncLossTimeout] at h
  exact act_cycle h cycle_enterDom

theorem cycle_of_announceReceived {x : AnnounceInfo} (h : exec (.announceReceived x) s = .next t) :
    t.heron.cycle = s.heron.cycle := by
  simp only [exec, execAnnounceReceived] at h
  exact act_cycle h (by split <;> simp)

/-- Nothing but a boundary, Heron's start, the exit from S3, a vote and the internal reset changes the number. -/
theorem exec_keepsCycle {c : Instr} (h : exec c s = .next t) (hb : c ≠ .cycleBoundary) (hh : c ≠ .heronStart)
    (hs : ∀ w, c ≠ .s3Exit w) (hv : ∀ l, c ≠ .heronVote l) (hr : assertsReset c = false) :
    t.heron.cycle = s.heron.cycle := by
  by_cases hc : .heronClock ∈ writes c
  · rcases heronClock_mem_writes hc with e | e | e | ⟨l, e⟩ | ⟨w, e⟩ | ⟨x, rfl⟩ | ⟨d, rfl⟩ | ⟨x, rfl⟩
    · exact absurd e (by simp [hr])
    · exact absurd e hb
    · exact absurd e hh
    · exact absurd e (hv l)
    · exact absurd e (hs w)
    · exact cycle_of_syncReceived h
    · exact cycle_of_syncLossTimeout h
    · exact cycle_of_announceReceived h
  · exact cycle_of_offClock (exec_keepsClock h hc)

/-- Settles O12: of a boundary's steps only the count moves the cycle number, once, and the other commands leave
Heron's clock or, where they rebase H, its cycle number. -/
theorem cyclesAdvanceByOne : Obligations.CyclesAdvanceByOne := by
  unfold Obligations.CyclesAdvanceByOne
  intro s
  refine ⟨fun hck hdue => ⟨_, act_on (by simp [hck, hdue]), ?_⟩,
    fun l hck hst => ⟨_, act_on (by simp [hck, hst]), ?_⟩,
    fun c t h hb hh hs hv hr => exec_keepsCycle h hb hh hs hv hr⟩
  · simp [cycle_boundary]
  · simp [cycle_voteUnder]

end Sys2Proof.Machine
end

section
/-!
SUPPORT. Where a host write lands (10 R230, R232, R235, R236, R243): below the station block by the word it reaches,
within it by the word's class.
-/
namespace Sys2Proof.Machine

variable {s t u o : State} {v : Word} {be : BitVec 4} {lag w n i : Nat}

/-! ### Bytes of a word (10 R230) -/

theorem byte_address (hi : i < 4) : (4 * w + i) / 4 = w ∧ (4 * w + i) % 4 = i := by omega

theorem readByte_writeWord_on (hi : i < 4) (hb : be.getLsbD i = true) :
    readByte (writeWord w v be s) (4 * w + i) = byteOf v i := by
  obtain ⟨ew, ei⟩ := byte_address (w := w) hi
  rw [readByte_writeWord, ew, ei, if_pos ⟨rfl, hb⟩]

theorem readByte_writeWord_off (hi : i < 4) (hb : be.getLsbD i = false) :
    readByte (writeWord w v be s) (4 * w + i) = readByte s (4 * w + i) := by
  obtain ⟨ew, ei⟩ := byte_address (w := w) hi
  rw [readByte_writeWord, ew, ei, if_neg (by simp [hb])]

theorem enables_all (hi : i < 4) : (15 : BitVec 4).getLsbD i = true := by
  interval_cases i <;> rfl

theorem ne_all_of_off (hi : i < 4) (hb : be.getLsbD i = false) : be ≠ 15 := by
  rintro rfl
  rw [enables_all hi] at hb
  exact Bool.noConfusion hb

/-- A merge of all four bytes takes the new word, whatever the old one. -/
theorem mergeWord_all {a b : Word} : mergeWord a v 15 = mergeWord b v 15 := by
  have bytes : (List.range 4).map (fun i => if (15 : BitVec 4).getLsbD i then byteOf v i else byteOf a i) =
      (List.range 4).map (fun i => if (15 : BitVec 4).getLsbD i then byteOf v i else byteOf b i) :=
    List.map_congr_left fun i hi => by simp only [enables_all (List.mem_range.1 hi), ↓reduceIte]
  simp only [mergeWord, bytes]

/-! ### Counting (13 R301) -/

theorem countedBy_bumpDev (h : t.counters = s.counters) : CountedBy 1 0x20 0 n s (bumpDev n t) := by
  simp [CountedBy, bumpDev, bump, readCtr, bumpBy, h]

theorem CountedBy.of_counters {k c j : Nat} (hc : CountedBy k c j n s t) (h : u.counters = t.counters) :
    CountedBy k c j n s u := by
  simpa only [CountedBy, readCtr, h] using hc

/-- The device's own frames leave the counters that are not theirs. -/
theorem CountedBy.publish {k c j : Nat} (hc : CountedBy k c j n s t) (hf : frameCounter (ctrId c j n) = false) :
    CountedBy k c j n s (publish o t) :=
  (readCtr_publish hf).trans hc

/-! ### A write judges the word that it merges into (10 R232; 15 R329) -/

theorem judgeMerge_sound (hu : uncorrectable (flips s .processImage 0 w) = false) :
    judgeMerge w s = correctWord .processImage 0 w s := by
  simp [judgeMerge, hu]

theorem judgeMerge_error (hu : uncorrectable (flips s .processImage 0 w) = true) :
    judgeMerge w s = clearUpset .processImage 0 w (noteImageError w (setSram w (storedWord s w) s)) := by
  simp [judgeMerge, hu]

theorem station_correctWord : (correctWord .processImage 0 w s).station = s.station := by
  simp only [correctWord]
  split <;> rfl

theorem station_noteImageError : (clearUpset .processImage 0 w (noteImageError w s)).station = s.station := rfl

/-- An uncorrectable word below the station block takes its stored bits as they are. -/
theorem judgeMerge_region (hw : w < 0xFFC0) (hu : uncorrectable (flips s .processImage 0 w) = true) :
    judgeMerge w s =
      clearUpset .processImage 0 w (noteImageError w (writeWord w (storedWord s w) 15 s)) := by
  rw [judgeMerge_error hu, setSram, if_neg (by omega)]

theorem storeWord_merges (h0 : be ≠ 0) (h15 : be ≠ 15) :
    storeWord w v be s = writeWord w v be (judgeMerge w s) := by
  rw [storeWord, if_neg h15, if_neg h0]

theorem readByte_storeWord_on (hi : i < 4) (hb : be.getLsbD i = true) :
    readByte (storeWord w v be s) (4 * w + i) = byteOf v i := by
  have h0 : be ≠ 0 := by rintro rfl; simp at hb
  simp only [storeWord, if_neg h0]
  split <;> exact readByte_writeWord_on hi hb

section
variable (hi : i < 4) (h0 : be ≠ 0) (hb : be.getLsbD i = false)
include hi h0 hb

/-- A byte that is not enabled stays, where the word it is merged into is sound. -/
theorem readByte_storeWord_sound (hu : uncorrectable (flips s .processImage 0 w) = false) :
    readByte (storeWord w v be s) (4 * w + i) = readByte s (4 * w + i) := by
  rw [storeWord_merges h0 (ne_all_of_off hi hb), readByte_writeWord_off hi hb, judgeMerge_sound hu]
  have kept : SameBut [.upsets, .faults] s (correctWord .processImage 0 w s) := by simp
  have mem : s.mem = (correctWord .processImage 0 w s).mem := kept .mem (by simp)
  simp only [readByte, mem]

/-- Where the word is uncorrectable, its stored bits stay, and the error is counted. -/
theorem storeWord_error (hw : w < 0xFFC0) (hu : uncorrectable (flips s .processImage 0 w) = true) :
    readByte (storeWord w v be s) (4 * w + i) = byteOf (storedWord s w) i ∧
      CountedBy 1 0x20 0 24 s (storeWord w v be s) := by
  rw [storeWord_merges h0 (ne_all_of_off hi hb), judgeMerge_region hw hu, readByte_writeWord_off hi hb]
  exact ⟨readByte_writeWord_on hi (enables_all hi), CountedBy.of_counters (countedBy_bumpDev rfl) rfl⟩

end

/-! ### Words of the station block that the host owns (10 R242, R243) -/

/-- A host-owned word of the station block, by its number. -/
def hostField (n : Nat) (x : Station) : Word :=
  match n with
  | 19 => x.hostLtr | 20 => x.heartbeat | 21 => x.hbWindow | 22 => x.attnMask | 62 => x.hostInfo0 | _ => x.hostInfo1

/-- The numbers of the host-owned words: HOSTLTR, HEARTBEAT, HBWINDOW, ATTNMASK and HOSTINFO. -/
def hostNumbers : List Nat := [19, 20, 21, 22, 62, 63]

theorem mem_hostNumbers : n ∈ hostNumbers ↔ n = 19 ∨ n = 20 ∨ n = 21 ∨ n = 22 ∨ n = 62 ∨ n = 63 := by
  simp [hostNumbers]

/-- What a write of some bytes of an SRAM word merges into: the word, or the stored bits of an uncorrectable one. -/
def mergedInto (s : State) (w : Nat) : Word :=
  if uncorrectable (flips s .processImage 0 w) then storedWord s w else sramWord s w

section
variable (hn : n ∈ hostNumbers)
include hn

theorem stationWord_host (hc : s.boot.cleared = true) : stationWord s n = hostField n s.station := by
  rcases mem_hostNumbers.1 hn with rfl | rfl | rfl | rfl | rfl | rfl <;> simp [stationWord, hc, hostField]

theorem hostField_setHostWord : hostField n (setHostWord n v s).station = v := by
  rcases mem_hostNumbers.1 hn with rfl | rfl | rfl | rfl | rfl | rfl <;> rfl

theorem hostField_publish : hostField n (publish o t).station = hostField n t.station := by
  rcases mem_hostNumbers.1 hn with rfl | rfl | rfl | rfl | rfl | rfl <;> simp [hostField]

theorem sramWord_host (hc : s.boot.cleared = true) : sramWord s (0xFFC0 + n) = hostField n s.station := by
  rw [sramWord, if_pos (Nat.le_add_right ..), Nat.add_sub_cancel_left, stationWord_host hn hc]

theorem mergedInto_host (hc : s.boot.cleared = true) : mergedInto s (0xFFC0 + n) =
    if uncorrectable (flips s .processImage 0 (0xFFC0 + n)) then
      hostField n s.station ^^^ flipMask (flips s .processImage 0 (0xFFC0 + n))
    else hostField n s.station := by
  simp only [mergedInto, storedWord, sramWord_host hn hc]

/-- What a merge finds in the word: its value, or the stored bits of an uncorrectable one. -/
theorem stationWord_judgeMerge (hc : s.boot.cleared = true) :
    stationWord (judgeMerge (0xFFC0 + n) s) n = mergedInto s (0xFFC0 + n) := by
  have kept : SameBut [.mem, .upsets, .hostWords, .counters, .faults] s (judgeMerge (0xFFC0 + n) s) := by simp
  have boot : s.boot = (judgeMerge (0xFFC0 + n) s).boot := kept .boot (by simp)
  rw [stationWord_host hn (boot ▸ hc), mergedInto]
  cases hu : uncorrectable (flips s .processImage 0 (0xFFC0 + n))
  · rw [judgeMerge_sound hu, station_correctWord, if_neg Bool.false_ne_true, sramWord_host hn hc]
  · rw [judgeMerge_error hu, station_noteImageError, setSram, if_pos (Nat.le_add_right ..), Nat.add_sub_cancel_left,
      hostField_setHostWord hn, if_pos rfl]

/-- A write to a host-owned word lands in the bytes it enables of what the word holds. -/
theorem hostField_storeHostWord (hc : s.boot.cleared = true) :
    hostField n (storeHostWord n v be s).station = mergeWord (mergedInto s (0xFFC0 + n)) v be := by
  simp only [storeHostWord]
  rw [hostField_setHostWord hn]
  split
  · subst be
    exact mergeWord_all
  · rw [stationWord_judgeMerge hn hc]

end

/-! ### ATTNCOUNT (10 R246) -/

/-- What calls for an EVENTS bit lies in six parts of the state (10 R244). -/
theorem changeBits_zero {l : List Part} (h : SameBut l o t) (hl : .regions ∉ l ∧ .faults ∉ l ∧ .status ∉ l ∧
    .dunlin ∉ l ∧ .links ∉ l ∧ .ports ∉ l) : changeBits o t = 0 := by
  obtain ⟨hr, hf, hs, hd, hk, hp⟩ := hl
  have regions : o.regions = t.regions := h .regions hr
  have faults : o.faults = t.faults := h .faults hf
  have dunlin : o.dunlin = t.dunlin := h .dunlin hd
  have links : o.links = t.links := h .links hk
  have status : statusOf o.station = statusOf t.station := h .status hs
  have expired : o.station.wdExp = t.station.wdExp := congrArg (·.2.2.2.1) status
  have ports : ∀ p, portOf (port o p) = portOf (port t p) := h .ports hp
  have up : ∀ p, (port o p).up = (port t p).up := fun p => congrArg (·.up) (ports p)
  have live : ∀ p, (port o p).live = (port t p).live := fun p => congrArg (·.live) (ports p)
  simp [changeBits, staleBits, region, timeLock, dom, link, regions, faults, dunlin, links, expired, up, live]

theorem patnOn_congr (boot : u.boot = t.boot) (supply : u.supply = t.supply) (level : u.power.level = t.power.level)
    (events : u.station.events = t.station.events) (mask : u.station.attnMask = t.station.attnMask)
    (pulse : u.station.rearmEnd = t.station.rearmEnd) : patnOn u = patnOn t := by
  simp only [patnOn, inService, boot, supply, level, events, mask, pulse]

theorem drivePins_station (h : patnOn t = patnOn o) : (drivePins o t).station = t.station := by
  have same : ∀ e, patnOn (emit e t) = patnOn t := fun _ => rfl
  simp only [drivePins]
  split <;> simp [same, h]

/-- ATTNCOUNT stays where no event flag is called for and PATN_N keeps its level. -/
theorem attnCount_publish (hb : changeBits o t = 0) (hp : patnOn t = patnOn o) :
    (publish o t).station.attnCount = t.station.attnCount := by
  simp only [publish, hb]
  split
  · rw [drivePins_station hp]
  · obtain ⟨-, station⟩ := unheard_changeFrames (o := o) (n := t) (t := raiseFlags 0 0 0 0 t)
    have kept : SameBut [] (changeFrames o t (raiseFlags 0 0 0 0 t)) t := (same_changeFrames.2
      (same_raiseFlags.2 SameBut.refl)).symm
    have power : (changeFrames o t (raiseFlags 0 0 0 0 t)).power = t.power := kept .power (by simp)
    have same : patnOn (changeFrames o t (raiseFlags 0 0 0 0 t)) = patnOn t :=
      patnOn_congr (kept .boot (by simp)) (kept .supply (by simp)) (by rw [power])
        (by rw [station]; exact BitVec.or_zero) (by rw [station]; rfl) (by rw [station]; rfl)
    rw [drivePins_station (same.trans hp), station]
    rfl

/-! ### The classes of the station block's words (10 R243) -/

/-- Of the host-owned words ATTNMASK alone does more: it may re-arm PATN_N (10 R246). -/
theorem writeStation_host (hn : n ∈ hostNumbers) (hm : n ≠ 22) : writeStation n v be s = storeHostWord n v be s := by
  rcases mem_hostNumbers.1 hn with rfl | rfl | rfl | rfl | rfl | rfl
  case inr.inr.inr.inl => exact absurd rfl hm
  all_goals rfl

/-- The words that only the device writes. -/
theorem writeStation_device (hn : n ≤ 18 ∨ 39 ≤ n ∧ n ≤ 61) : writeStation n v be s = ignoreWrite s := by
  unfold writeStation
  split
  case h_23 => rfl
  all_goals omega

/-- The doorbells and the flag words take the bits of the enabled bytes. -/
theorem writeStation_masked (hl : 23 ≤ n) (hh : n ≤ 36) :
    writeStation n v be s = writeStation n (v &&& beMask be) 15 s := by
  have masked : v &&& beMask be &&& beMask 15 = v &&& beMask be := and_beMask_all
  interval_cases n <;> simp only [writeStation, masked]

/-! ### Landing (01 R19; 03 R46, R60; 10 R243; 14 R317) -/

/-- A host write discards the half-read latch (10 R233). -/
def unlatched (s : State) : State := { s with halfLatch := none }

@[simp] theorem unlatched_fields : (unlatched s).station = s.station ∧ (unlatched s).boot = s.boot ∧
    (unlatched s).upsets = s.upsets ∧ (unlatched s).counters = s.counters ∧ (unlatched s).now = s.now ∧
    (unlatched s).power = s.power ∧ (unlatched s).supply = s.supply := ⟨rfl, rfl, rfl, rfl, rfl, rfl, rfl⟩

@[simp] theorem same_unlatched {l : List Part} (h : .halfLatch ∈ l) : SameBut l t (unlatched s) ↔ SameBut l t s := by
  simp [unlatched, h]

/-- The state after a host write that lands. -/
def landed (lag w : Nat) (v : Word) (be : BitVec 4) (s : State) : State :=
  publish s (landWrite lag w v be (unlatched s))

@[simp] theorem wakeS3_fields : (wakeS3 s).station = s.station ∧ (wakeS3 s).boot = s.boot ∧
    (wakeS3 s).upsets = s.upsets ∧ (wakeS3 s).counters = s.counters ∧ (wakeS3 s).now = s.now ∧
    (wakeS3 s).supply = s.supply ∧ (wakeS3 s).power.level = s.power.level := by
  simp only [wakeS3]
  split <;> exact ⟨rfl, rfl, rfl, rfl, rfl, rfl, rfl⟩

section
variable (hp : pipWrites s = true)
include hp

theorem exec_hostWrite {pa : BitVec 17} {data : Word} {x : Strobe} : exec (.hostWrite pa data x) s =
    .next (landed x.lag.val (accessWord s pa) (accessData s pa data) (accessBytes s pa x.be) s) := by
  simp only [exec, execHostWrite]
  exact act_on hp

theorem exec_hostltrWrite : exec (.hostltrWrite v be) s = .next (landed 0 0xFFD3 v be s) := by
  simp only [exec, execHostltrWrite]
  exact act_on hp

theorem exec_attnmaskWrite : exec (.attnmaskWrite v be) s = .next (landed 0 0xFFD6 v be s) := by
  simp only [exec, execAttnmaskWrite]
  exact act_on hp

theorem exec_doorbellRing : exec (.doorbellRing v) s = .next (landed 0 0xFFD7 v 15 s) := by
  simp only [exec, execDoorbellRing]
  exact act_on hp

theorem exec_eventFlagClear {k : Fin 13} :
    exec (.eventFlagClear k v) s = .next (landed 0 (0xFFD8 + k.val) v 15 s) := by
  simp only [exec, execEventFlagClear]
  exact act_on hp

end

theorem landed_none : SameBut [.halfLatch] s (landed lag w v 0 s) := by
  rw [landed, landWrite_none]
  simp

/-- A write that is ignored changes IGNWR and its counter, each by one (10 R243). -/
theorem publish_ignoreWrite {l : List Part} (hl : .ignWr ∈ l ∧ .counters ∈ l) (hs : SameBut l s u)
    (hi : u.station.ignWr = s.station.ignWr) (hc : u.counters = s.counters) :
    SameBut l s (publish o (ignoreWrite u)) ∧
      (publish o (ignoreWrite u)).station.ignWr = s.station.ignWr + 1 ∧
      CountedBy 1 0x20 0 20 s (publish o (ignoreWrite u)) := by
  have counted : CountedBy 1 0x20 0 20 s (ignoreWrite u) := by
    rw [ignoreWrite]
    exact countedBy_bumpDev hc
  exact ⟨by simpa [hl] using hs, by simp [ignoreWrite, hi], counted.publish (by decide)⟩

/-- The stored bits of a word below the station block. -/
theorem storedWord_region (hw : w < 0xFFC0) :
    storedWord s w = readWord s w ^^^ flipMask (flips s .processImage 0 w) := by
  rw [storedWord, sramWord, if_neg (Nat.not_le.2 hw)]

section
variable (h0 : be ≠ 0)
include h0

theorem landed_early (hc : s.boot.cleared = false) : SameBut [.halfLatch, .counters] s (landed lag w v be s) ∧
    CountedBy 1 0x20 0 19 s (landed lag w v be s) := by
  rw [landed, landWrite_early h0 (by simpa using hc)]
  exact ⟨by simp, (countedBy_bumpDev (by simp)).publish (by decide)⟩

variable (hc : s.boot.cleared = true)
include hc

/-! Below the station block. -/

section
variable (hw : w < 0xFFC0)
include hw

theorem landed_region : landed lag w v be s = publish s (writeRegion lag w v be (unlatched s)) := by
  rw [landed, landWrite, if_neg h0]
  simp [hc, Nat.not_le.2 hw]

theorem landed_bare (hb : inBare s = true) : SameBut [.halfLatch] s (landed lag w v be s) := by
  have bare : inBare (unlatched s) = true := hb
  rw [landed_region h0 hc hw, writeRegion, if_pos bare]
  simp

variable (hb : inBare s = false)
include hb

theorem landed_ignored (ht : hostWriteTarget s lag w = none) :
    SameBut [.halfLatch, .ignWr, .counters] s (landed lag w v be s) ∧
      (landed lag w v be s).station.ignWr = s.station.ignWr + 1 ∧ CountedBy 1 0x20 0 20 s (landed lag w v be s) := by
  have bare : inBare (unlatched s) = false := hb
  have target : hostWriteTarget (unlatched s) lag w = none := ht
  have ignored : writeRegion lag w v be (unlatched s) = ignoreWrite (unlatched s) := by
    simp [writeRegion, bare, target]
  rw [landed_region h0 hc hw, ignored]
  exact publish_ignoreWrite (by simp) (by simp) rfl rfl

theorem landed_stored {x : Nat} (ht : hostWriteTarget s lag w = some x) (hn : writtenNow s x = false) :
    landed lag w v be s = publish s (storeWord x v be (unlatched s)) := by
  have bare : inBare (unlatched s) = false := hb
  have target : hostWriteTarget (unlatched s) lag w = some x := ht
  have free : writtenNow (unlatched s) x = false := hn
  simp [landed_region h0 hc hw, writeRegion, bare, target, free]

/-- Below the station block a write lands in the bytes it enables; the others keep their bits, the stored ones where
the word is uncorrectable. -/
theorem landed_byte {x : Nat} (ht : hostWriteTarget s lag w = some x) (hx : x < 0xFFC0) (hn : writtenNow s x = false)
    (i : Fin 4) :
    (be.getLsbD i.val = true → readByte (landed lag w v be s) (4 * x + i.val) = byteOf v i.val) ∧
    (be.getLsbD i.val = false → uncorrectable (flips s .processImage 0 x) = false →
      readByte (landed lag w v be s) (4 * x + i.val) = readByte s (4 * x + i.val)) ∧
    (be.getLsbD i.val = false → uncorrectable (flips s .processImage 0 x) = true →
      readByte (landed lag w v be s) (4 * x + i.val) = byteOf (storedWord s x) i.val ∧
        CountedBy 1 0x20 0 24 s (landed lag w v be s)) := by
  rw [landed_stored h0 hc hw hb ht hn]
  have published : readByte (publish s (storeWord x v be (unlatched s))) = readByte (storeWord x v be (unlatched s)) :=
    by simp
  have bytes : readByte (unlatched s) = readByte s := rfl
  have flipped : flips (unlatched s) = flips s := rfl
  have stored : storedWord (unlatched s) x = storedWord s x := by
    rw [storedWord_region hx, storedWord_region hx]
    rfl
  rw [published, ← bytes, ← flipped, ← stored]
  refine ⟨readByte_storeWord_on i.isLt, fun hoff hu => readByte_storeWord_sound i.isLt h0 hoff hu,
    fun hoff hu => ?_⟩
  obtain ⟨kept, counted⟩ := storeWord_error (v := v) i.isLt h0 hoff hx hu
  exact ⟨kept, CountedBy.publish counted (by decide)⟩

end

/-! In the station block. -/

theorem landed_station (hw : 0xFFC0 ≤ w) :
    landed lag w v be s = publish s (writeStation (w - 0xFFC0) v be (wakeS3 (unlatched s))) := by
  rw [landed, landWrite_station h0 (by simpa using hc) hw]

/-- A write to word 0xFFC0 + n, the address written as the statements write it. -/
theorem landed_word (hw : w = 0xFFC0 + n) :
    landed lag w v be s = publish s (writeStation n v be (wakeS3 (unlatched s))) := by
  rw [landed_station h0 hc (by omega), hw, Nat.add_sub_cancel_left]

theorem landed_wakes (hw : 0xFFC0 ≤ w) (hl : s.power.level = 3) : (landed lag w v be s).power.woken = true := by
  have kept : ∀ u, (writeStation (w - 0xFFC0) v be u).power = u.power := fun u =>
    ((same_writeStation (w := [.upsets, .hostWords, .doorbell, .ignWr, .rearm, .chans, .counters, .faults])
      (by simp)).2 SameBut.refl .power (by simp)).symm
  rw [landed_station h0 hc hw]
  simp [kept, wakeS3, hl]

/-- Within the station block the ck in which PWE_N rose makes no difference. -/
theorem landed_lag {a b : Nat} (hw : 0xFFC0 ≤ w) : landed a w v be s = landed b w v be s := by
  rw [landed_station h0 hc hw, landed_station h0 hc hw]

theorem landed_masked (hw : w = 0xFFC0 + n) (hl : 23 ≤ n) (hh : n ≤ 36) :
    landed lag w v be s = landed 0 w (v &&& beMask be) 15 s := by
  rw [landed_word h0 hc hw, landed_word (by decide) hc hw, writeStation_masked hl hh]

theorem landed_device (hw : w = 0xFFC0 + n) (hn : n ≤ 18 ∨ 39 ≤ n ∧ n ≤ 61) :
    SameBut [.halfLatch, .ignWr, .counters, .power] s (landed lag w v be s) ∧
      (landed lag w v be s).station.ignWr = s.station.ignWr + 1 ∧ CountedBy 1 0x20 0 20 s (landed lag w v be s) := by
  rw [landed_word h0 hc hw, writeStation_device hn]
  exact publish_ignoreWrite (by simp) (by simp) (by simp) (by simp)

theorem landed_host (hw : w = 0xFFC0 + n) (hn : n ∈ hostNumbers) (hm : n ≠ 22) :
    hostField n (landed lag w v be s).station = mergeWord (mergedInto s w) v be := by
  have cleared : (wakeS3 (unlatched s)).boot.cleared = true := by simpa using hc
  have flipped : flips (wakeS3 (unlatched s)) = flips s := by funext; simp [flips]
  rw [landed_word h0 hc hw, hostField_publish hn, writeStation_host hn hm, hostField_storeHostWord hn cleared, hw,
    mergedInto_host hn cleared, mergedInto_host hn hc, flipped]
  simp only [wakeS3_fields, unlatched_fields]

theorem landed_ignWr (hw : w = 0xFFC0 + 37) :
    (landed lag w v be s).station.ignWr = mergeWord s.station.ignWr v be := by
  rw [landed_word h0 hc hw]
  simp [writeStation]

theorem landed_attnCount (hw : w = 0xFFC0 + 38) : (landed lag w v be s).station.attnCount =
    mergeWord s.station.attnCount v be + (if s.station.attnAt = some s.now then 1 else 0) := by
  have kept : SameBut [.halfLatch, .power] s (writeStation 38 v be (wakeS3 (unlatched s))) := by simp [writeStation]
  have pin : patnOn (writeStation 38 v be (wakeS3 (unlatched s))) = patnOn s := by
    apply patnOn_congr <;> simp [writeStation]
  rw [landed_word h0 hc hw, attnCount_publish (changeBits_zero kept (by simp)) pin]
  simp [writeStation]

end

/-- Settles O40: what a host write leaves, by the class of the word that it addresses. -/
theorem hostWritesLand : Obligations.HostWritesLand := by
  unfold Obligations.HostWritesLand
  intro s pa data v w be b lag hp haddress hdata hbytes
  have lands : exec (.hostWrite pa data ⟨be, lag⟩) s = .next (landed lag.val w v b s) := by
    rw [exec_hostWrite hp, haddress, hdata, hbytes]
  simp only [lands]
  refine ⟨fun h0 => ⟨_, rfl, h0 ▸ landed_none⟩, fun h0 hc => ⟨_, rfl, landed_early h0 hc⟩,
    fun h0 hc => ⟨?_, ?_, ?_, ?_, ?_, ?_, ?_, ?_, ?_, ?_, ?_⟩⟩
  · exact fun hw hbare => ⟨_, rfl, landed_bare h0 hc hw hbare⟩
  · exact fun hw hbare => ⟨fun ht => ⟨_, rfl, landed_ignored h0 hc hw hbare ht⟩,
      fun x ht hx hn => ⟨_, rfl, landed_byte h0 hc hw hbare ht hx hn⟩⟩
  · exact fun hw => ⟨_, rfl, landed_wakes h0 hc hw⟩
  · exact fun n hw hn => ⟨_, rfl, landed_device h0 hc hw hn⟩
  · rintro old rfl
    exact ⟨fun hw => ⟨_, rfl, landed_host h0 hc (n := 20) hw (by decide) (by decide)⟩,
      fun hw => ⟨_, rfl, landed_host h0 hc (n := 21) hw (by decide) (by decide)⟩,
      fun hw => ⟨_, rfl, landed_host h0 hc (n := 62) hw (by decide) (by decide)⟩,
      fun hw => ⟨_, rfl, landed_host h0 hc (n := 63) hw (by decide) (by decide)⟩⟩
  · exact fun hw => ⟨_, rfl, landed_ignWr h0 hc hw⟩
  · exact fun hw => ⟨_, rfl, landed_attnCount h0 hc hw⟩
  · intro hw
    rw [exec_hostltrWrite hp, hw, landed_lag h0 hc (by decide)]
  · intro hw
    rw [exec_attnmaskWrite hp, hw, landed_lag h0 hc (by decide)]
  · intro hw
    rw [exec_doorbellRing hp, hw, landed_masked h0 hc (n := 23) rfl (by decide) (by decide)]
  · intro i hw
    rw [exec_eventFlagClear hp, hw, landed_masked h0 hc (n := 24 + i.val) (by omega) (by omega) (by omega)]

end Sys2Proof.Machine
end

section
/-!
SUPPORT. Frames of the families of supplies, start-up, power and Turnstone: a command changes the parts that `writes`
lists for it, and one that asserts the internal reset (02 R29) leaves the queue of waiting commands alone.
-/
namespace Sys2Proof.Machine

variable {s t : State}

/-- What leaves the image leaves each of its bytes. -/
theorem readByte_of_sameBut {l : List Part} (h : SameBut l s t) (hm : .mem ∉ l) (a : Nat) :
    readByte t a = readByte s a := by
  have image : s.mem = t.mem := h .mem hm
  simp [readByte, image]

/-- The queue of waiting commands is the one part that a reset does not list. -/
theorem sameBut_everyPart : SameBut everyPart s t ↔ t.pending = s.pending := by
  constructor
  · intro h
    exact (h .pending (by decide)).symm
  · intro queue p hp
    cases p
    case pending => exact queue.symm
    all_goals exact absurd (by decide) hp

/-! ### No reset touches the queue -/

@[simp] theorem pending_fullReset : (fullReset s).pending = s.pending := by rw [fullReset_eq]

@[simp] theorem pending_loseRails : (loseRails s).pending = s.pending := by simp [loseRails]

@[simp] theorem pending_shutDown : (shutDown s).pending = s.pending := by
  simp only [shutDown, latchCause]
  split <;> simp

@[simp] theorem pending_powerCycle : (powerCycle s).pending = s.pending := by
  simp only [powerCycle, pending_fullReset]
  split <;> simp

@[simp] theorem pending_bitternSends {p : Nat} : (bitternSends p s).pending = s.pending := by
  simp only [bitternSends]
  split <;> rfl

/-! ### The frames, by family -/

section
variable {c : Instr} (h : exec c s = .next t)
include h

theorem exec_frame_supply (hf : familyOf c = .supply) : SameBut (writes c) s t := by
  cases c
  case powerOn | railBrownOut | resetN | vinUndervoltage | xinLoss | thermalShutdown =>
    simp only [exec, execPowerOn, execRailBrownOut, execResetN, execVinUndervoltage, execXinLoss,
      execThermalShutdown, whenB, readExtpwr, latchCause] at h
    refine act_frame h fun _ => sameBut_everyPart.2 ?_
    (repeat' split) <;> simp
  case railsInRegulation | resetRelease | srefclkFault | srefclkRecovery | bankBrownOut | bankBrownOutRecovery |
    overtemperature | dcqFault | vinRestart =>
    simp only [exec, execRailsInRegulation, execResetRelease, execSrefclkFault, execSrefclkRecovery,
      execBankBrownOut, execBankBrownOutRecovery, execOvertemperature, execDcqFault, execVinRestart] at h
    exact act_frame h fun _ => by (repeat' split) <;> simp [writes]
  all_goals nomatch hf

theorem exec_frame_boot (hf : familyOf c = .boot) : SameBut (writes c) s t := by
  cases c
  case ladderReading | corePllLock | processImageClearDone | otpReadDone | jedecIdReadDone | slotCheckDone |
    configDone | localTimeout | heronStart =>
    simp only [exec, execLadderReading, execCorePllLock, execProcessImageClearDone, execOtpReadDone,
      execJedecIdReadDone, execSlotCheckDone, execConfigDone, execLocalTimeout, execHeronStart] at h
    exact act_frame h fun _ => by (repeat' split) <;> simp [writes]
  all_goals nomatch hf

theorem exec_frame_power (hf : familyOf c = .power) : SameBut (writes c) s t := by
  cases c
  case s4Entry =>
    simp only [exec, execS4Entry] at h
    refine act_frame h fun _ => sameBut_everyPart.2 ?_
    split <;> simp [lowerPins]
  case laneSleep | laneWake | sleepKeepalive | powerLevelChange | efftolUpdate | s3Entry | s3Exit | bitternFrame |
    bitternLinkChange | wakeN | s4Exit | portLowPowerEntry | portLowPowerExit =>
    simp only [exec, execLaneSleep, execLaneWake, execSleepKeepalive, execPowerLevelChange, execEfftolUpdate,
      execS3Entry, execS3Exit, execBitternFrame, execBitternLinkChange, execWakeN, execS4Exit,
      execPortLowPowerEntry, execPortLowPowerExit] at h
    exact act_frame h fun _ => by simp [writes]
  all_goals nomatch hf

theorem exec_frame_turnstone (hf : familyOf c = .turnstone) : SameBut (writes c) s t := by
  cases c
  case scrubRead | freezeN | readoutStart | readoutEnd | readoutNibble =>
    simp only [exec, execScrubRead, execFreezeN, execReadoutStart, execReadoutEnd, execReadoutNibble] at h
    exact act_frame h fun _ => by simp [writes]
  all_goals nomatch hf

end

/-- Settles O57: the frame of each of the four families, and what leaves the image leaves its bytes. -/
theorem supplyAndPowerFrames : Obligations.SupplyAndPowerFrames := by
  unfold Obligations.SupplyAndPowerFrames
  intro c s t hf h
  have frame : SameBut (writes c) s t := by
    simp only [List.mem_cons, List.not_mem_nil, or_false] at hf
    rcases hf with hf | hf | hf | hf
    · exact exec_frame_supply h hf
    · exact exec_frame_boot h hf
    · exact exec_frame_power h hf
    · exact exec_frame_turnstone h hf
  exact ⟨frame, fun hm => readByte_of_sameBut frame hm⟩

end Sys2Proof.Machine
end

section
/-!
SUPPORT. Supplies and reset: power-on, PGOOD and the converters (02 R28, R29, R41), what the release of the internal
reset samples and starts (R25, R32, R34; 03 R44), and the state right after reset.
-/
namespace Sys2Proof.Machine

variable {s t o : State}

/-! ### Supplies -/

@[simp] theorem supply_powerCycle : (powerCycle s).supply = Supply.init := rfl

/-- The supplies that EXTPWR's reading starts from: the latches of a sequencer that has not run, or those of a
power-on-reset. -/
theorem supply_readExtpwr {vin : Nat} {x : Bool} : (readExtpwr vin x s).supply = { s.supply with
    seqOn := true, extpwr := x, cause := .empty
    converters := if x then .off else if 4200 < vin then .running else .stopped
    vinLow := !x && !decide (4200 < vin) } := rfl

theorem pgood_mem_out_setPgood (h : s.supply.pgood = false) : .level s.now .pgood 1 ∈ (setPgood true s).out := by
  simp [setPgood, h, bitW]

/-- Settles O14: POWER_ON acts once until a power-on-reset, RAILS_IN_REGULATION releases PGOOD, and VIN_RESTART
restarts the converters. -/
theorem suppliesComplete : Obligations.SuppliesComplete := by
  unfold Obligations.SuppliesComplete
  intro s
  simp only [exec, execPowerOn, execRailsInRegulation, execVinRestart]
  refine ⟨fun vin vdd x afresh u hrise hu => ?_, fun vin vdd x hseq => act_off (by simp [hseq]),
    fun hseq hpgood hrails => ⟨_, act_on ?_, by simp, mem_out_publish (pgood_mem_out_setPgood hpgood)⟩,
    fun mv hmv hlow hstop => ⟨_, act_on (by simp [hmv, hlow, hstop]), by simp⟩⟩
  · have rises : sequencerRises vin vdd = true := by simpa [sequencerRises] using hrise
    rcases hu with ⟨hseq, rfl⟩ | ⟨hseq, hafresh, rfl⟩
    · exact ⟨_, act_on (by simp [hseq, rises]), by simp [supply_readExtpwr, whenB, hseq]⟩
    · exact ⟨_, act_on (by simp [hafresh, rises]), by simp [supply_readExtpwr, whenB, hseq]⟩
  · rcases hrails with hext | hconv <;> simp [*]

/-! ### Release of the internal reset -/

@[simp] theorem enterOvertemp_fields : (enterOvertemp s).now = s.now ∧ (enterOvertemp s).free = s.free ∧
    (enterOvertemp s).straps = s.straps ∧ (enterOvertemp s).ladder = s.ladder ∧ (enterOvertemp s).boot = s.boot ∧
    (enterOvertemp s).freeze = s.freeze ∧ (enterOvertemp s).supply = { s.supply with overtemp := true } := by
  simp only [enterOvertemp, wakeS3]
  split <;> exact ⟨rfl, rfl, rfl, rfl, rfl, rfl, rfl⟩

/-- Entering overtemperature counts it, and moves no other counter. -/
theorem counters_enterOvertemp : (enterOvertemp s).counters = (bumpDev 44 s).counters := by
  simp only [enterOvertemp, wakeS3]
  split <;> rfl

/-- What the release samples, starts and draws (02 R25, R32, R34; 03 R44; 13 R287). -/
theorem release_fields {x : ReleaseSample} : (release x s).now = 0 ∧ (release x s).straps = x.straps ∧
    (release x s).ladder = { s.ladder with active := true } ∧
    (release x s).freeze = { s.freeze with held := x.freezeLow } ∧ (release x s).boot = s.boot ∧
    (release x s).supply = { s.supply with
      inReset := false, xinOk := true, bankP := bankAt x.bankPMv, bankQ := bankAt x.bankQMv
      overtemp := decide (125 ≤ x.celsius) || s.supply.overtemp } ∧
    (release x s).hid.session = Config.sessionValue s.free := by
  by_cases hot : 125 ≤ x.celsius <;> simp [release, hot, drawSession]

theorem countedBy_bumpDev_of_readCtr {n : Nat} (h : readCtr t 0x20 0 n = readCtr s 0x20 0 n) :
    CountedBy 1 0x20 0 n s (bumpDev n t) := by
  simp [CountedBy, bumpDev, bump, h]

/-- A release counts the reset (03 R44), an overtemperature at it under another number. -/
theorem countedBy_release {x : ReleaseSample} : CountedBy 1 0x20 0 11 s (release x s) := by
  refine countedBy_bumpDev_of_readCtr ?_
  have other : ∀ u : State, readCtr (enterOvertemp u) 0x20 0 11 = readCtr u 0x20 0 11 := fun u => by
    simp only [readCtr, counters_enterOvertemp]
    exact (readCtr_bumpBy (s := u)).trans (if_neg (by decide))
  simp only [drawSession_subs]
  split
  · exact other _
  · rfl

/-- Until the image is clear publish only drives the pins, so that Hidiquel keeps the session drawn (13 R287). -/
theorem hid_publish_uncleared (hc : t.boot.cleared = false) : (publish o t).hid = t.hid := by
  simp only [publish, hc, drivePins, Bool.not_false, Bool.or_true, ↓reduceIte]
  (repeat' split) <;> rfl

/-- Settles O16: RESET_RELEASE takes its sample, starts the ladder, the ck count and Hidiquel's session, and counts. -/
theorem releaseCompletes : Obligations.ReleaseCompletes := by
  unfold Obligations.ReleaseCompletes
  intro s x hpgood hreset hcool hbittern
  obtain ⟨hnow, hstraps, hladder, hfreeze, hboot, hsupply, hsession⟩ := release_fields (x := x) (s := s)
  simp only [exec, execResetRelease]
  refine ⟨_, act_on (by simp [hpgood, hreset, hcool, hbittern]), by simp [hnow], by simp [hstraps],
    by simp [hladder], by simp [hfreeze], by simp [hsupply, bankAt], countedBy_release.publish (by decide),
    fun hc => ?_⟩
  rw [hid_publish_uncleared (hboot ▸ hc), hsession]

/-! ### The state right after reset -/

/-- No byte of the image is listed, so each reads zero (03 R46). -/
theorem readByte_reset {a : Nat} : readByte State.reset a = 0 := rfl

/-- No link is listed, so each is OFF with a back-off of 1 ms (09 R213). -/
theorem link_reset {k : Nat} : link State.reset k = LinkSt.init := rfl

/-- No counter is listed, so each reads zero (13 R301). -/
theorem readCtr_reset {c i n : Nat} : readCtr State.reset c i n = 0 := rfl

/-- FAULT_N is low in reset (02 R29; 15 R326). -/
theorem faultLow_reset : faultLow State.reset = true := by decide

/-- No entry has been made, so that FLOG has its start value (15 R334). -/
theorem flogWord_reset : flogWord State.reset = 0x3F := by decide

/-- Settles O55: each keyed part reads as its value at reset, and each plain field stands in State.reset. -/
theorem resetState : Obligations.ResetState := by
  unfold Obligations.ResetState
  have links : ∀ k, (link State.reset k).backoff = 1 ∧ (link State.reset k).st = .off := fun k => by
    rw [link_reset]; exact ⟨rfl, rfl⟩
  exact ⟨rfl, rfl, faultLow_reset, rfl, rfl, rfl, rfl, rfl, rfl, rfl, rfl, rfl, fun _ => readByte_reset, rfl, rfl,
    flogWord_reset, rfl, links, rfl, rfl, rfl, rfl, rfl, fun _ _ _ => readCtr_reset⟩

end Sys2Proof.Machine
end

section
/-!
SUPPORT. Faults of clocks, banks and temperature, and of dual-clock queues (02 R31; 15 R330, R333; 01 R17): which ports
are down and which links are in SYNC after one, what a bank's state becomes, and what is counted and logged.
-/
namespace Sys2Proof.Machine

variable {s t u o : State} {l : List Part}

/-! ### What a frame leaves readable -/

theorem up_of_sameBut (h : SameBut l s t) (hl : .ports ∉ l) {p : Nat} : (port t p).up = (port s p).up := by
  have ports : portOf (port s p) = portOf (port t p) := h .ports hl p
  exact (congrArg PortSt.up ports).symm

theorem link_of_sameBut (h : SameBut l s t) (hl : .links ∉ l) : link t = link s := by
  have links : s.links = t.links := h .links hl
  funext k
  simp [link, links]

theorem bankOf_of_sameBut (h : SameBut l s t) (hl : .supply ∉ l) : bankOf t = bankOf s := by
  have supply : s.supply = t.supply := h .supply hl
  funext b
  simp only [bankOf, supply]

theorem laneHome_of_sameBut (h : SameBut l s t) (hl : .ladder ∉ l) : laneHome t = laneHome s := by
  have ladder : s.ladder = t.ladder := h .ladder hl
  have plans : plan t = plan s := by simp [plan, ladderCode, ladderPin, ladder]
  funext n
  simp only [laneHome, linkLanes, plans]

theorem CountedBy.of_sameBut {n c i k : Nat} (hc : CountedBy n c i k s u) (h : SameBut l u t) (hl : .counters ∉ l)
    (hf : frameCounter (ctrId c i k) = false) : CountedBy n c i k s t := by
  have counter : readCtr u c i k = readCtr t c i k := h .counters hl _ hf
  exact counter.symm.trans hc

/-- A fault's entry captures the cycle, the time and the corrected-error total of its ck (15 R334), and nothing else. -/
theorem faultBody_of_sameBut (h : SameBut l s t) (hl : .heronClock ∉ l ∧ .dunlin ∉ l ∧ .faults ∉ l)
    {code subject detail : Nat} : faultBody t code subject detail = faultBody s code subject detail := by
  obtain ⟨hclock, hdunlin, hfaults⟩ := hl
  have clock : clockOf s.heron = clockOf t.heron := h .heronClock hclock
  have dunlin : s.dunlin = t.dunlin := h .dunlin hdunlin
  have faults : s.faults = t.faults := h .faults hfaults
  simp only [clockOf, Prod.mk.injEq] at clock
  obtain ⟨started, cycle, -⟩ := clock
  simp only [faultBody, holdsWhile, workingCount, dom, dunlin, faults, started, cycle]

theorem logged_logFault (h : SameBut l s t) (hl : .now ∉ l ∧ .heronClock ∉ l ∧ .dunlin ∉ l ∧ .faults ∉ l)
    {code subject detail : Nat} : Logged s code subject detail s (logFault code subject detail t) := by
  obtain ⟨hnow, hbody⟩ := hl
  have now : s.now = t.now := h .now hnow
  have faults : s.faults = t.faults := h .faults hbody.2.2
  simp only [Logged, faults_logFault, faultBody_of_sameBut h hbody, ← now, ← faults]

theorem Logged.of_sameBut {code subject detail : Nat} (hlog : Logged s code subject detail s u) (h : SameBut l u t)
    (hl : .faults ∉ l) : Logged s code subject detail s t := by
  have faults : u.faults = t.faults := h .faults hl
  simpa only [Logged, faults] using hlog

/-! ### Ports that go down (07 R168) -/

theorem up_dropReasm {p n q : Nat} : (port (dropReasm p n s) q).up = (port s q).up := by
  simp only [dropReasm]
  split
  · rw [up_of_sameBut (l := [.rxCells, .counters]) (s := setPort s p { port s p with reasm := none }) (by simp)
      (by decide)]
    by_cases hq : q = p <;> simp [hq]
  · rfl

theorem up_portGoesDown {p q : Nat} : (port (portGoesDown p s) q).up = if q = p then false else (port s q).up := by
  simp only [portGoesDown]
  split
  next hdown =>
    split
    next hq => subst hq; simpa using hdown
    next => rfl
  next =>
    rw [up_of_sameBut (l := [.queues, .rxCells, .counters]) ((same_bumpPort (by decide)).2 ((same_each (by simp)).2
      ((same_each (by simp)).2 SameBut.refl))) (by decide), port_setPort]
    split
    · rfl
    · exact up_dropReasm

theorem up_each_portGoesDown {ps : List Nat} {q : Nat} :
    (port (each ps portGoesDown s) q).up = if q ∈ ps then false else (port s q).up := by
  induction ps generalizing s with
  | nil => rfl
  | cons p ps ih =>
    have split_cons : each (p :: ps) portGoesDown s = each ps portGoesDown (portGoesDown p s) := rfl
    rw [split_cons, ih, up_portGoesDown]
    by_cases hq : q = p <;> simp [hq]

/-! ### Links that retrain (08 R199; 09 R220) -/

/-- Excluding lanes of a link touches its lane masks alone. -/
theorem link_excludeLanes {k m cause j : Nat} :
    (link (excludeLanes k m cause s) j).st = (link s j).st ∧
    (link (excludeLanes k m cause s) j).lastCause = (link s j).lastCause := by
  simp only [excludeLanes]
  rw [link_of_sameBut (l := [.counters, .faults]) ((same_whenB (by simp)).2 ((same_each (by simp)).2 SameBut.refl))
    (by decide), link_setLink]
  split
  next hj => subst hj; exact ⟨rfl, rfl⟩
  next => exact ⟨rfl, rfl⟩

theorem link_each_setLane {ns : List Nat} {f : Nat → State → LaneSt} :
    link (each ns (fun n s => setLane s n (f n s)) s) = link s :=
  link_of_sameBut (l := [.lanes]) (by simp) (by decide)

theorem link_enterSync_self {k : Nat} {again : Bool} : (link (enterSync k again s) k).st = .sync ∧
    (link (enterSync k again s) k).retrain = again ∧
    (link (enterSync k again s) k).lastCause = (link s k).lastCause := by
  simp [enterSync, enterState, link_each_setLane]

theorem link_enterSync_other {k j : Nat} {again : Bool} (hj : j ≠ k) : link (enterSync k again s) j = link s j := by
  simp [enterSync, enterState, hj, link_each_setLane]

theorem link_staleFromLink {k : Nat} : link (staleFromLink k s) = link s :=
  link_of_sameBut (l := [.regions]) (by simp) (by decide)

theorem link_startRetrain_self {k cause failing : Nat} {byCommit : Bool} (ha : (link s k).st = .active) :
    (link (startRetrain k cause failing byCommit s) k).st = .sync ∧
    (link (startRetrain k cause failing byCommit s) k).retrain = true ∧
    (link (startRetrain k cause failing byCommit s) k).lastCause = cause := by
  simp only [startRetrain, ha, ne_eq, not_true_eq_false, ↓reduceIte]
  obtain ⟨hst, hretrain, hcause⟩ := link_enterSync_self (k := k) (again := true)
  exact ⟨hst, hretrain, hcause.trans (by rw [link_staleFromLink, link_excludeLanes.2]; simp)⟩

theorem link_startRetrain_other {k cause failing j : Nat} {byCommit : Bool}
    (hj : (link s j).st ≠ .active ∨ j ≠ k) :
    (link (startRetrain k cause failing byCommit s) j).st = (link s j).st := by
  by_cases ha : (link s k).st = .active
  · have hk : j ≠ k := hj.elim (fun hn he => hn (he ▸ ha)) id
    simp only [startRetrain, ha, ne_eq, not_true_eq_false, ↓reduceIte]
    rw [link_enterSync_other hk, link_staleFromLink, link_excludeLanes.1]
    simp [hk]
  · rw [startRetrain, if_pos ha]

/-- After a retrain of every link none is ACTIVE (15 R333). -/
theorem st_clockRetrain {k : Nat} (hk : k < 32) : (link (clockRetrain s) k).st ≠ .active := by
  have walk : ∀ (ks : List Nat) (u : State), k ∈ ks ∨ (link u k).st ≠ .active →
      (link (each ks (fun j => startRetrain j 3 0xFF false) u) k).st ≠ .active := by
    intro ks
    induction ks with
    | nil => intro u hu; simpa [each] using hu
    | cons j ks ih =>
      intro u hu
      refine ih (startRetrain j 3 0xFF false u) ?_
      by_cases ha : (link u k).st = .active
      · by_cases hj : k = j
        · subst hj
          exact .inr (by rw [(link_startRetrain_self ha).1]; decide)
        · exact .inl (by simpa [ha, hj] using hu)
      · exact .inr (by rwa [link_startRetrain_other (.inl ha)])
  exact walk _ s (.inl (List.mem_range.2 hk))

/-- What follows the loss of SREFCLK leaves the supplies. -/
theorem supply_clockFault : (clockRetrain (each (List.range 4) portGoesDown s)).supply = s.supply := by
  have kept : SameBut [.regions, .ports, .queues, .rxCells, .links, .lanes, .counters, .faults] s
      (clockRetrain (each (List.range 4) portGoesDown s)) := by simp
  exact (kept .supply (by decide)).symm

/-! ### Banks (15 R330) -/

theorem whenB_true {f : State → State} : whenB true f s = f s := rfl

@[simp] theorem bankOf_setBank {b : Bank} {x : BankSt} : bankOf (setBank b x s) b = x := by cases b <;> rfl

@[simp] theorem bankOf_publish : bankOf (publish o t) = bankOf t := by
  funext b
  simp only [bankOf, publish_fields]

@[simp] theorem bankOf_unpowerBank {b : Bank} :
    bankOf (unpowerBank b s) b = { bankOf s b with unpowered := true } := by
  rw [unpowerBank, bankOf_of_sameBut (l := []) ((same_each (by simp)).2 SameBut.refl) (by simp), bankOf_setBank]

/-- A brown-out marks its bank, and leaves what the bank's level and power are. -/
@[simp] theorem bankOf_enterBrownOut {b : Bank} : bankOf (enterBrownOut b s) b = { bankOf s b with brown := true } :=
  bankOf_setBank

theorem countedBy_enterBrownOut {b : Bank} : CountedBy 1 0x20 0 43 s (enterBrownOut b s) :=
  CountedBy.of_sameBut (l := [.supply, .faults]) (countedBy_bumpDev (t := wakeS3 s) (by simp)) (by simp [enterBrownOut])
    (by decide) (by decide)

theorem logged_enterBrownOut {b : Bank} : Logged s (bankCode b) 0 0 s (enterBrownOut b s) :=
  Logged.of_sameBut (l := [.supply]) (logged_logFault (l := [.counters, .power]) (t := bumpDev 43 (wakeS3 s)) (by simp)
    (by decide)) (by simp [enterBrownOut]) (by decide)

/-- A brown-out, with the balls released below 1.2 V (02 R24). -/
theorem brownOut_effect {b : Bank} {mv : Nat} :
    bankOf (whenB (decide (mv < 1200)) (unpowerBank b) (enterBrownOut b s)) b = { bankOf s b with
      brown := true, unpowered := (bankOf s b).unpowered || decide (mv < 1200) } := by
  by_cases hmv : mv < 1200 <;> simp [whenB, hmv]

/-! ### Temperature (15 R330) -/

theorem countedBy_enterOvertemp : CountedBy 1 0x20 0 44 s (enterOvertemp s) :=
  (countedBy_bumpDev rfl).of_counters counters_enterOvertemp

theorem logged_enterOvertemp : Logged s 0x83 0 0 s (enterOvertemp s) :=
  logged_logFault (l := [.supply, .counters, .power]) (by simp) (by decide)

/-- Settles O17: a fault of SREFCLK takes every port down and retrains every link, banks and temperature pass their
limits, and a dual-clock queue fault takes its port down or retrains its link. -/
theorem clockBankAndHeatFaultsComplete : Obligations.ClockBankAndHeatFaultsComplete := by
  unfold Obligations.ClockBankAndHeatFaultsComplete
  intro s
  simp only [exec, execSrefclkFault, execSrefclkRecovery, execBankBrownOut, execBankBrownOutRecovery,
    execOvertemperature, execDcqFault]
  refine ⟨fun hrun hsound => ⟨_, act_on (by simp [hrun, hsound]), ?_, fun p hp => ?_, fun k hk => ?_⟩,
    fun hrun hfault => ⟨_, act_on (by simp [hrun, hfault]), by simp⟩,
    fun b mv hrun hbrown hmv => ?_, fun b mv hrun hbrown hmv => ?_, fun c hrun hc => ?_,
    fun p hck => ⟨_, act_on hck, ?_⟩, fun n k i hck hhome ha => ⟨_, act_on hck, ?_⟩⟩
  · simp [supply_clockFault]
  · have others : ∀ u : State, (port (clockRetrain u) p).up = (port u p).up := fun u =>
      up_of_sameBut (l := [.regions, .links, .lanes, .counters, .faults]) (by simp) (by decide)
    simp [others, up_each_portGoesDown, hp]
  · simpa using st_clockRetrain hk
  · have limit : mv < brownLimit (bankOf s b) := hmv
    refine ⟨_, act_on (by simp [hrun, hbrown, limit]), ?_⟩
    simp only [hbrown, Bool.not_false, whenB_true, bankOf_publish]
    have released : SameBut [.supply] (enterBrownOut b s)
        (publish s (whenB (decide (mv < 1200)) (unpowerBank b) (enterBrownOut b s))) := by simp
    have logged : Logged s (bankCode b) 0 0 s _ := logged_enterBrownOut.of_sameBut released (by decide)
    exact ⟨brownOut_effect, countedBy_enterBrownOut.of_sameBut released (by decide) (by decide),
      by cases b <;> exact logged⟩
  · have limit : recoverLimit (bankOf s b) < mv := hmv
    refine ⟨_, act_on (by simp [hrun, hbrown, limit]), ?_⟩
    rw [bankOf_publish, bankOf_of_sameBut (l := []) ((same_whenB (by simp)).2 SameBut.refl) (by simp), bankOf_setBank]
  · cases hot : s.supply.overtemp
    · refine ⟨_, act_on (by simpa [hrun, hot] using hc), by simp [hot], fun _ => ?_⟩
      simp only [hot, Bool.false_eq_true, ↓reduceIte]
      exact ⟨countedBy_enterOvertemp.publish (by decide),
        logged_enterOvertemp.of_sameBut (l := []) (by simp) (by simp)⟩
    · exact ⟨_, act_on (by simpa [hrun, hot] using hc), by simp [hot], nofun⟩
  · simp [up_portGoesDown]
  · have home : ∀ u, laneHome (logFault 0x31 n.val 0 (bumpLane n.val 6 u)) = laneHome u := fun u =>
      laneHome_of_sameBut (l := [.counters, .faults]) (by simp) (by decide)
    simp only [publish_subs, home, hhome]
    exact link_startRetrain_self (by simpa using ha)

end Sys2Proof.Machine
end

section
/-!
SUPPORT. The early steps of start-up: the ladder's readings (02 R34, R35), CK's start and the clear of the image (03
R45, R46), the OTP (R47), and what BARE entry (R51, R60) leaves of the steps before it.
-/
namespace Sys2Proof.Machine

variable {s t o : State} {e : Emission}

/-! ### The ladder -/

theorem ladder_ladderEnds : (ladderEnds s).ladder = { s.ladder with active := false, done := true } := by
  have kept : SameBut [.ports, .mdio, .links, .lanes, .counters, .freeze]
      { s with ladder := { s.ladder with active := false, done := true } } (ladderEnds s) := by simp [ladderEnds]
  exact (kept .ladder (by decide)).symm

/-- LADDER_READING's effect (02 R34): the next reading of each pin, an unstable one counted, and with every pin settled
the end of the measurement. -/
def readLadder (x : LadderSample) (s : State) : State :=
  let pins := (List.range 8).map (fun j => readPin s.ladder.taken ((sampleList x).getD j 0) (ladderPin s j))
  let bad := (List.range 8).filter (fun j => (pins.getD j LadderPin.init).unstable && !(ladderPin s j).unstable)
  let t := each bad (fun j s => bump 0x25 j 0 s) { s with ladder := { s.ladder with
    taken := s.ladder.taken + 1, pins := pins } }
  if pins.all (fun p => p.settled) then ladderEnds t else t

theorem exec_ladderReading {x : LadderSample} : exec (.ladderReading x) s =
    act (running s && s.ladder.active && decide (readingDue s.ladder.taken ≤ s.now)) (readLadder x) s := rfl

theorem ladder_readLadder {x : LadderSample} : (readLadder x s).ladder.taken = s.ladder.taken + 1 ∧
    (readLadder x s).ladder.pins = (List.range 8).map (fun j =>
      readPin s.ladder.taken ((sampleList x).getD j 0) (ladderPin s j)) ∧
    ((readLadder x s).ladder.pins.all (fun p => p.settled) = true →
      (readLadder x s).ladder.done = true ∧ (readLadder x s).ladder.active = false) := by
  have counted : ∀ (js : List Nat) u, (each js (fun j s => bump 0x25 j 0 s) u).ladder = u.ladder := fun js u =>
    ((by simp : SameBut [.counters] u (each js (fun j s => bump 0x25 j 0 s) u)) .ladder (by decide)).symm
  simp only [readLadder]
  split
  next => simp [ladder_ladderEnds, counted]
  next hopen =>
    exact ⟨by simp [counted], by simp [counted], fun hall => absurd (by simpa [counted] using hall) hopen⟩

/-! ### The scrubbers start with CK (15 R327) -/

theorem scrub_startScrubs {m : Nat} (hm : m < 6) : scrub (startScrubs s) m = { next := 0, due := s.now + 16 } := by
  have walk : ∀ (ms : List Nat) (u : State), scrub (each ms (fun m s =>
      { s with scrubs := mSet s.scrubs m { next := 0, due := s.now + 16 } }) u) m =
        if m ∈ ms then { next := 0, due := u.now + 16 } else scrub u m := by
    intro ms
    induction ms with
    | nil => intro u; rfl
    | cons i ms ih =>
      intro u
      refine (ih _).trans ?_
      by_cases hi : m = i
      · subst hi; simp [scrub]
      · simp [scrub, hi, mGetD_mSet hi]
  exact (walk _ s).trans (if_pos (List.mem_range.2 hm))

theorem boot_startScrubs : (startScrubs s).boot = s.boot :=
  ((by simp : SameBut [.scrubs] s (startScrubs s)) .boot (by decide)).symm

theorem scrub_publish : scrub (publish o t) = scrub t := by
  funext m
  simp [scrub]

theorem exec_corePllLock : exec .corePllLock s = act (running s && !s.boot.pllLocked) (fun s =>
    startScrubs { s with boot := { s.boot with pllLocked := true, clearDue := s.now + 65536 } }) s := rfl

/-! ### The clear (03 R46) -/

theorem flips_publish : flips (publish o t) = flips t := by
  funext m copy w
  simp [flips]

/-- The keys that the clear of a range keeps. -/
def outside (lo hi i : Nat) : Bool := decide (i < lo) || decide (hi ≤ i)

theorem mGetD_filter_outside {α : Type} {m : SMap α} {lo hi i : Nat} {d : α} (hlo : lo ≤ i) (hhi : i < hi) :
    mGetD (m.filter fun x => outside lo hi x.1) i d = d := by
  have inside : outside lo hi i = false := by simp [outside, hlo, hhi]
  simp [mGetD, mFind_filter, inside]

theorem readByte_clearWords {n a : Nat} (ha : a < 4 * n) : readByte (clearWords 0 n s) a = 0 :=
  mGetD_filter_outside (m := s.mem) (lo := 4 * 0) (hi := 4 * (0 + n)) (by omega) (by omega)

theorem flips_clearWords {n w : Nat} (hw : w < n) : flips (clearWords 0 n s) .processImage 0 w = [] :=
  mGetD_filter_outside (m := s.upsets) (lo := upsetKey .processImage 0 0) (hi := upsetKey .processImage 0 (0 + n))
    (by simp [upsetKey]) (by simpa [upsetKey] using hw)

/-! ### What reaches a wire stays in the log -/

theorem mem_out_each {α : Type} {l : List α} {f : α → State → State}
    (h : ∀ a t, e ∈ t.out → e ∈ (f a t).out) (he : e ∈ s.out) : e ∈ (each l f s).out := by
  unfold each
  induction l generalizing s with
  | nil => exact he
  | cons a l ih => exact ih (h a s he)

theorem mem_out_startPort {p : Nat} (he : e ∈ s.out) : e ∈ (startPort p s).out := by
  have pcs : ∀ u : State, e ∈ u.out → e ∈ (startPcs p u).out := fun u hu => by
    simp only [startPcs]
    split <;> simp [hu]
  have phy : ∀ u : State, (phyBringUp p u).out = u.out := fun u => by
    simp only [phyBringUp, mdioWrite]
    (repeat' split) <;> simp
  rw [startPort, phy]
  exact pcs _ he

theorem mem_out_startLinks (he : e ∈ s.out) : e ∈ (startLinks s).out := by
  refine mem_out_each (fun k u hu => ?_) (mem_out_each (fun n u hu => hu) he)
  split <;> exact hu

theorem out_announcePhase : (announcePhase s).out = s.out := by
  have unmarked := unheard_each (t := s) (l := List.range 4)
    (f := fun p s => setPort s p { port s p with announced := false }) fun _ _ => ⟨rfl, rfl⟩
  rw [announcePhase, unheard_announce.1]
  exact unmarked.1

theorem out_logCause : (logCause s).out = s.out := by
  simp only [logCause]
  split <;> rfl

/-! ### BARE entry (03 R51, R60) -/

theorem mem_out_enterBare (he : e ∈ s.out) : e ∈ (enterBare s).out := by
  have logged : e ∈ (logCause (logFault 0x11 0 0 (bumpDev 13 s))).out := by rw [out_logCause]; exact he
  simp only [enterBare, out_announcePhase]
  split
  · exact mem_out_startLinks (mem_out_each (fun _ _ => mem_out_startPort) logged)
  · exact logged

/-- BARE entry stores nothing in the image (03 R60). -/
theorem sameBut_enterBare : SameBut [.supply, .boot, .tables, .dunlin, .ports, .mdio, .links, .lanes, .mgmtKey,
    .counters, .faults] s (enterBare s) := by simp

theorem flips_of_sameBut {l : List Part} (h : SameBut l s t) (hl : .upsets ∉ l) : flips t = flips s := by
  have upsets : s.upsets = t.upsets := h .upsets hl
  funext m copy w
  simp only [flips, upsets]

theorem boot_logCause : (logCause s).boot = s.boot :=
  ((by simp : SameBut [.supply, .counters, .faults] s (logCause s)) .boot (by decide)).symm

/-- BARE entry leaves what the early steps recorded. -/
theorem boot_enterBare : (enterBare s).boot.phase = .bare ∧ (enterBare s).boot.cleared = s.boot.cleared ∧
    (enterBare s).boot.otpRead = s.boot.otpRead ∧ (enterBare s).boot.otpBad = s.boot.otpBad ∧
    (enterBare s).boot.resultA = s.boot.resultA ∧ (enterBare s).boot.resultB = s.boot.resultB := by
  have later : ∀ (b : Bool) (u : State), (announcePhase (if b then startLinks (startPorts u) else u)).boot = u.boot :=
    fun b u => ((by simp : SameBut [.ports, .mdio, .links, .lanes] u _) .boot (by decide)).symm
  simp [enterBare, later, boot_logCause]

theorem readCtr_bumpDev_other {n k : Nat} (hk : k ≠ n) : readCtr (bumpDev n s) 0x20 0 k = readCtr s 0x20 0 k :=
  (readCtr_bumpBy (s := s)).trans (if_neg (by simpa [ctrId] using hk))

/-- BARE entry counts itself and the latched cause, and nothing as otp.unreadable (03 R51; 15 R332). -/
theorem readCtr_enterBare_unreadable : readCtr (enterBare s) 0x20 0 15 = readCtr s 0x20 0 15 := by
  have later : ∀ (b : Bool) (u : State),
      readCtr (announcePhase (if b then startLinks (startPorts u) else u)) 0x20 0 15 = readCtr u 0x20 0 15 := fun b u =>
    ((by simp : SameBut [.ports, .mdio, .links, .lanes] u _) .counters (by decide) _ (by decide)).symm
  have cause : ∀ u : State, readCtr (logCause u) 0x20 0 15 = readCtr u 0x20 0 15 := fun u => by
    simp only [logCause]
    split
    · rfl
    · exact readCtr_bumpDev_other (by decide)
    · exact readCtr_bumpDev_other (by decide)
    · rfl
  simp only [enterBare, later]
  exact (cause _).trans (readCtr_bumpDev_other (by decide))

/-! ### The end of the clear (03 R45, R46) -/

@[simp] theorem flashCommand_fields {chip cmd addr dummies : Nat} :
    (flashCommand chip cmd addr dummies s).mem = s.mem ∧ (flashCommand chip cmd addr dummies s).upsets = s.upsets ∧
    (flashCommand chip cmd addr dummies s).boot = s.boot ∧ (flashCommand chip cmd addr dummies s).now = s.now ∧
    (flashCommand chip cmd addr dummies s).supply = s.supply := by
  simp only [flashCommand]
  split <;> exact ⟨rfl, rfl, rfl, rfl, rfl⟩

/-- The image is cleared, BOOTPHASE EARLY, and the JEDEC IDs have been asked for. -/
def clearedImage (s : State) : State :=
  flashCommand 0 0x9F 0 0 (flashCommand 1 0x9F 0 0 (clearWords 0 65536
    { s with boot := { s.boot with cleared := true, phase := .early } }))

theorem readByte_clearedImage {a : Nat} (ha : a < 4 * 65536) : readByte (clearedImage s) a = 0 := by
  rw [clearedImage, readByte]
  simp only [flashCommand_fields]
  exact readByte_clearWords ha

theorem flips_clearedImage {w : Nat} (hw : w < 65536) : flips (clearedImage s) .processImage 0 w = [] := by
  rw [clearedImage, flips]
  simp only [flashCommand_fields]
  exact flips_clearWords hw

theorem boot_clearedImage : (clearedImage s).boot = { s.boot with cleared := true, phase := .early } := by
  simp [clearedImage, clearWords]

theorem jedecAsked_mem_out_clearedImage {chip : Nat} (hc : chip = 0 ∨ chip = 1)
    (hq : s.supply.bankQ.unpowered = false) :
    .flashCmd s.now chip 0x9F 0 0 ∈ (clearedImage s).out := by
  simp [clearedImage, flashCommand, clearWords, hq]
  omega

/-- PROCESS_IMAGE_CLEAR_DONE's effect: with the OTP unreadable BARE is entered at once. -/
def clearDone (s : State) : State := if s.boot.otpBad then enterBare (clearedImage s) else clearedImage s

theorem exec_processImageClearDone : exec .processImageClearDone s =
    act (running s && s.boot.pllLocked && !s.boot.cleared && decide (s.boot.clearDue ≤ s.now)) clearDone s := rfl

theorem readByte_clearDone {a : Nat} (ha : a < 4 * 65536) : readByte (clearDone s) a = 0 := by
  rw [clearDone]
  split
  · rw [readByte_of_sameBut sameBut_enterBare (by decide)]; exact readByte_clearedImage ha
  · exact readByte_clearedImage ha

theorem flips_clearDone {w : Nat} (hw : w < 65536) : flips (clearDone s) .processImage 0 w = [] := by
  rw [clearDone]
  split
  · rw [flips_of_sameBut sameBut_enterBare (by decide)]; exact flips_clearedImage hw
  · exact flips_clearedImage hw

theorem boot_clearDone : (clearDone s).boot.cleared = true ∧
    (clearDone s).boot.phase = if s.boot.otpBad then .bare else .early := by
  rw [clearDone]
  split <;> simp [boot_enterBare, boot_clearedImage]

theorem jedecAsked_mem_out_clearDone {chip : Nat} (hc : chip = 0 ∨ chip = 1) (hq : s.supply.bankQ.unpowered = false) :
    .flashCmd s.now chip 0x9F 0 0 ∈ (clearDone s).out := by
  rw [clearDone]
  split
  · exact mem_out_enterBare (jedecAsked_mem_out_clearedImage hc hq)
  · exact jedecAsked_mem_out_clearedImage hc hq

/-! ### The OTP (03 R47) -/

/-- An unreadable OTP is recorded: shown as zeros (log entry 41), both slots failed with 0xF, counted and logged. -/
def otpFailed (s : State) : State :=
  logFault 0x12 0 0 (bumpDev 15 { s with
    otp := OtpBits.init
    boot := { s.boot with otpRead := true, otpBad := true, resultA := 0xF, resultB := 0xF } })

/-- OTP_READ_DONE's effect where the OTP is unreadable: with the image clear BARE is entered at once. -/
def otpFailDone (s : State) : State := if s.boot.cleared then enterBare (otpFailed s) else otpFailed s

theorem exec_otpReadDone {a b c : FuseRead} : exec (.otpReadDone a b c) s =
    act (running s && !s.boot.otpRead) (fun s => if otpReadable a b c then
      { s with otp := fuseContent a b c s, fuses := some (fuseContent a b c s)
               boot := { s.boot with otpRead := true } } else otpFailDone s) s := rfl

theorem otp_otpFailDone : (otpFailDone s).otp = OtpBits.init ∧ (otpFailDone s).fuses = s.fuses := by
  have kept : ∀ u : State, u.otp = (enterBare u).otp ∧ u.fuses = (enterBare u).fuses := fun u =>
    sameBut_enterBare .otp (by decide)
  rw [otpFailDone]
  split
  · exact ⟨(kept _).1.symm, (kept _).2.symm⟩
  · exact ⟨rfl, rfl⟩

theorem boot_otpFailDone : (otpFailDone s).boot.otpRead = true ∧ (otpFailDone s).boot.otpBad = true ∧
    (otpFailDone s).boot.resultA = 0xF ∧ (otpFailDone s).boot.resultB = 0xF ∧
    (otpFailDone s).boot.phase = if s.boot.cleared then .bare else s.boot.phase := by
  rw [otpFailDone]
  split <;> simp [boot_enterBare, otpFailed]

theorem countedBy_otpFailDone : CountedBy 1 0x20 0 15 s (otpFailDone s) := by
  have counted : CountedBy 1 0x20 0 15 s (otpFailed s) :=
    (countedBy_bumpDev (s := s) (t := { s with
      otp := OtpBits.init
      boot := { s.boot with otpRead := true, otpBad := true, resultA := 0xF, resultB := 0xF } }) rfl).of_counters rfl
  rw [otpFailDone]
  split
  · exact readCtr_enterBare_unreadable.trans counted
  · exact counted

/-- Settles O18: each early step, with BARE entered where the OTP is unreadable. -/
theorem earlyStartComplete : Obligations.EarlyStartComplete := by
  unfold Obligations.EarlyStartComplete
  intro s hrun
  simp only [exec_processImageClearDone, exec_otpReadDone, exec_ladderReading, exec_corePllLock]
  refine ⟨fun x hactive hdue => ⟨_, act_on (by simp [hrun, hactive, readingDue, hdue]), ?_⟩,
    fun hlock => ⟨_, act_on (by simp [hrun, hlock]), ?_, fun m hm => ?_⟩,
    fun hlock hclear hdue => ⟨_, act_on (by simp [hrun, hlock, hclear, hdue]), fun a ha => ?_, fun w hw => ?_,
      by simp [boot_clearDone], by simp [boot_clearDone], fun hq =>
        ⟨mem_out_publish (jedecAsked_mem_out_clearDone (.inr rfl) hq),
          mem_out_publish (jedecAsked_mem_out_clearDone (.inl rfl) hq)⟩⟩,
    fun a b c hread => ?_⟩
  · simp only [publish_fields]
    exact ladder_readLadder
  · simp [boot_startScrubs]
  · rw [scrub_publish, scrub_startScrubs hm]
  · simpa only [publish_subs] using readByte_clearDone ha
  · simpa only [flips_publish] using flips_clearDone hw
  · cases hr : otpReadable a b c
    · refine ⟨_, act_on (by simp [hrun, hread]), by simp [boot_otpFailDone], nofun, fun _ => ?_⟩
      simpa [boot_otpFailDone, otp_otpFailDone] using countedBy_otpFailDone.publish (o := s) (by decide)
    · exact ⟨_, act_on (by simp [hrun, hread]), by simp, fun _ => by simp [fuseContent], nofun⟩

end Sys2Proof.Machine
end

section
/-!
SUPPORT. Frames of the families of Dunlin, Heron, the wheel, Ethernet, the links, the process image port, Avocet and
Hidiquel, and with those of supplies, start-up, power and Turnstone the frame of every command: it changes the parts
that `writes` lists for it.
-/
namespace Sys2Proof.Machine

variable {s t u : State}

/-- A host write to a word of the station block changes what the word's class changes, S3's wake, and, before the clear
is complete, the count of early writes (03 R46; 10 R243; 14 R317). -/
theorem sameBut_landWrite_station {l : List Part} {lag w : Nat} {v : Word} {be : BitVec 4} (hw : 0xFFC0 ≤ w)
    (hu : SameBut l s u) (hl : .power ∈ l ∧ .counters ∈ l) (hn : ∀ u, SameBut l u (writeStation (w - 0xFFC0) v be u)) :
    SameBut l s (landWrite lag w v be u) := by
  by_cases hb : be = 0
  · subst hb; exact hu
  · cases hc : u.boot.cleared
    · rw [landWrite_early hb hc]; simpa [hl] using hu
    · rw [landWrite_station hb hc hw]
      exact ((same_wakeS3 hl.1).2 hu).trans (hn _)

section
variable {c : Instr} (h : exec c s = .next t)
include h

theorem exec_frame_time (hf : familyOf c = .time) : SameBut (writes c) s t := by
  cases c
  case syncReceived | syncLossTimeout | announceReceived | alignmentComplete | pdelayReqSend | pdelayReceived |
    signalingReceived | ppsOutPulse | ppsOutPulseEnd | timeInputEdge | serdesLatencyRemeasure | timeBlockSend |
    echoReceived | echoMissing | dunlinSecondsWrap =>
    simp only [exec, execSyncReceived, execSyncLossTimeout, execAnnounceReceived, execAlignmentComplete,
      execPdelayReqSend, execPdelayReceived, execSignalingReceived, execPpsOutPulse, execPpsOutPulseEnd,
      execTimeInputEdge, execSerdesLatencyRemeasure, execTimeBlockSend, execEchoReceived, execEchoMissing,
      execDunlinSecondsWrap] at h
    exact act_frame h fun _ => by (repeat' split) <;> simp [writes]
  all_goals nomatch hf

theorem exec_frame_heron (hf : familyOf c = .heron) : SameBut (writes c) s t := by
  cases c
  case cycleBoundary | heronVote | gateEntry | heronEvent =>
    simp only [exec, execCycleBoundary, execHeronVote, execGateEntry, execHeronEvent] at h
    exact act_frame h fun _ => by simp [writes]
  all_goals nomatch hf

theorem exec_frame_wheel (hf : familyOf c = .wheel) : SameBut (writes c) s t := by
  cases c
  case wheelSlot | coarseSlot | deadlineExpiry | transmitSelection | transmitComplete =>
    simp only [exec, execWheelSlot, execCoarseSlot, execDeadlineExpiry, execTransmitSelection,
      execTransmitComplete] at h
    exact act_frame h fun _ => by (repeat' split) <;> simp [writes]
  all_goals nomatch hf

theorem exec_frame_ethernet (hf : familyOf c = .ethernet) : SameBut (writes c) s t := by
  cases c
  case frameReceive | recoveryResetTimeout | pfcReceived | macControlIgnored | pauseExpiry | pfcSend | pfcRefresh |
    verifyTimer | verifyMpacketReceived | mpacketReceived | portDown | portUp | linkUpHoldEnd | sgmiiInbandWord |
    phyPoll | phyRestart | ctUnderrun | tunnelFcsError | tunnelOverlength =>
    simp only [exec, execFrameReceive, execRecoveryResetTimeout, execPfcReceived, execMacControlIgnored,
      execPauseExpiry, execPfcSend, execPfcRefresh, execVerifyTimer, execVerifyMpacketReceived,
      execMpacketReceived, execPortDown, execPortUp, execLinkUpHoldEnd, execSgmiiInbandWord, execPhyPoll,
      execPhyRestart, execCtUnderrun, execTunnelFcsError, execTunnelOverlength] at h
    exact act_frame h fun _ => by (repeat' split) <;> simp [writes]
  all_goals nomatch hf

theorem exec_frame_dziak (hf : familyOf c = .dziak) : SameBut (writes c) s t := by
  cases c
  case packetReceived | pairResetTimeout | ackTimer | ackReceived | nakReceived | replayTimeout | linkDown |
    packetSend | creditWaitDeadline | creditReturn | auditSend | auditReceived | controlBlockDiscard =>
    simp only [exec, execPacketReceived, execPairResetTimeout, execAckTimer, execAckReceived, execNakReceived,
      execReplayTimeout, execLinkDown, execPacketSend, execCreditWaitDeadline, execCreditReturn, execAuditSend,
      execAuditReceived, execControlBlockDiscard] at h
    exact act_frame h fun _ => by (repeat' split) <;> simp [writes]
  all_goals nomatch hf

theorem exec_frame_training (hf : familyOf c = .training) : SameBut (writes c) s t := by
  cases c
  case detectBeacon | backoffReset | ts1Detected | blockLock | alignComplete | paramReceived | paramAckReceived |
    speedCountdownEnd | eqReqReceived | eqDoneReceived | readyReceived | trainingTimeout | retrain |
    eyeMapComplete | dfeAdapt | calBlockSend | calBlockReceived =>
    simp only [exec, execDetectBeacon, execBackoffReset, execTs1Detected, execBlockLock, execAlignComplete,
      execParamReceived, execParamAckReceived, execSpeedCountdownEnd, execEqReqReceived, execEqDoneReceived,
      execReadyReceived, execTrainingTimeout, execRetrain, execEyeMapComplete, execDfeAdapt, execCalBlockSend,
      execCalBlockReceived] at h
    exact act_frame h fun _ => by (repeat' split) <;> simp [writes]
  all_goals nomatch hf

theorem exec_frame_pip (hf : familyOf c = .pip) : SameBut (writes c) s t := by
  cases c
  case hostWrite | halfReadLatch | rearmPulseEnd =>
    simp only [exec, execHostWrite, execHalfReadLatch, execRearmPulseEnd] at h
    exact act_frame h fun _ => by simp [writes]
  case eventFlagClear w v =>
    simp only [exec, execEventFlagClear] at h
    refine act_frame h fun _ => sameBut_landWrite_station (by omega) (by simp [writes]) (by simp [writes]) fun u => ?_
    rw [show 0xFFD8 + w.val - 0xFFC0 = 24 + w.val by omega, writeStation_flags]
    split <;> simp [writes]
  case attnmaskWrite | doorbellRing | hostltrWrite =>
    simp only [exec, execAttnmaskWrite, execDoorbellRing, execHostltrWrite] at h
    exact act_frame h fun _ => sameBut_landWrite_station (by decide) (by simp [writes]) (by simp [writes]) fun u => by
      simp [writeStation, writes]
  all_goals nomatch hf

theorem exec_frame_avocet (hf : familyOf c = .avocet) : SameBut (writes c) s t := by
  cases c
  case avocetTrigger | avocetHalfCompletion | avocetFullCompletion | avocetBusError | listenAgeDiscard |
    lanepoolAgeDiscard =>
    simp only [exec, execAvocetTrigger, execAvocetHalfCompletion, execAvocetFullCompletion, execAvocetBusError,
      execListenAgeDiscard, execLanepoolAgeDiscard] at h
    exact act_frame h fun _ => by simp [writes]
  all_goals nomatch hf

theorem exec_frame_hidiquel (hf : familyOf c = .hidiquel) : SameBut (writes c) s t := by
  cases c
  case slotSwitchReset =>
    simp only [exec, execSlotSwitchReset] at h
    exact act_frame h fun _ => sameBut_everyPart.2 (by simp)
  case stage | commit | abort | eventSubscribe | imageTransfer | rollbackFloorRaise =>
    simp only [exec, execStage, execCommit, execAbort, execEventSubscribe, execImageTransfer,
      execRollbackFloorRaise] at h
    exact act_frame h fun _ =>
      (same_request (fun _ => (same_lockedOr fun u => by simp [writes]).2 SameBut.refl) (by simp [writes])).2
        SameBut.refl
  case discover | read | counterSnapshot | imageTransferDone | transferIdleTimeout | slotSwitch | floorRaiseDone |
    reservedOpcode | slotSwitchCheckDone =>
    simp only [exec, execDiscover, execRead, execCounterSnapshot, execImageTransferDone, execTransferIdleTimeout,
      execSlotSwitch, execFloorRaiseDone, execReservedOpcode, execSlotSwitchCheckDone] at h
    exact act_frame h fun _ => by (repeat' split) <;> simp [writes]
  all_goals nomatch hf
/-- Every command changes only the parts that `writes` lists for it. -/
theorem exec_frame : SameBut (writes c) s t := by
  cases hf : familyOf c
  case supply => exact exec_frame_supply h hf
  case boot => exact exec_frame_boot h hf
  case time => exact exec_frame_time h hf
  case heron => exact exec_frame_heron h hf
  case wheel => exact exec_frame_wheel h hf
  case ethernet => exact exec_frame_ethernet h hf
  case dziak => exact exec_frame_dziak h hf
  case training => exact exec_frame_training h hf
  case pip => exact exec_frame_pip h hf
  case avocet => exact exec_frame_avocet h hf
  case hidiquel => exact exec_frame_hidiquel h hf
  case power => exact exec_frame_power h hf
  case turnstone => exact exec_frame_turnstone h hf

end

end Sys2Proof.Machine
end

section
/-!
SUPPORT. The fuses (03 R47): which of the device's own changes blow some - a floor raise, finished or cut short by a
reset (13 R298), and the revocation at SERVICE entry (03 R48) - and that none of them clears a fuse.
-/
namespace Sys2Proof.Machine

variable {s t v o : State} {l : List Part} {a b : OtpBits}

/-! ### Blowing -/

/-- `b` holds the fuses of `a` with at most more of the floor's and of the revoked keys' blown. -/
def OnlyBlown (a b : OtpBits) : Prop :=
  a.floor &&& ~~~b.floor = 0 ∧ a.revoked &&& ~~~b.revoked = 0 ∧ { b with floor := a.floor, revoked := a.revoked } = a

theorem OnlyBlown.refl : OnlyBlown a a := ⟨BitVec.and_not_self .., BitVec.and_not_self .., rfl⟩

theorem OnlyBlown.of_eq (h : b = a) : OnlyBlown a b := h ▸ .refl

theorem and_not_or_eq_zero {n : Nat} {x y : BitVec n} (z : BitVec n) (h : x &&& ~~~y = 0) : x &&& ~~~(y ||| z) = 0 := by
  rw [BitVec.not_or, ← BitVec.and_assoc, h]
  exact BitVec.zero_and

theorem onlyBlown_floor {f : BitVec 127} (h : a.floor &&& ~~~f = 0) : OnlyBlown a { a with floor := f } :=
  ⟨h, BitVec.and_not_self .., rfl⟩

theorem onlyBlown_revoked {m : BitVec 4} : OnlyBlown a { a with revoked := a.revoked ||| m } :=
  ⟨BitVec.and_not_self .., and_not_or_eq_zero m (BitVec.and_not_self ..), rfl⟩

/-- The fuses of the floor blow one by one, and each blown one stays. -/
theorem blowFuses_keeps {n : Nat} {f : BitVec 127} : f &&& ~~~blowFuses n f = 0 := by
  have walk : ∀ (is : List Nat) (g : BitVec 127), f &&& ~~~g = 0 →
      f &&& ~~~is.foldl (fun g i => g ||| ((1 : BitVec 127) <<< i)) g = 0 := by
    intro is
    induction is with
    | nil => exact fun _ hg => hg
    | cons i is ih => exact fun g hg => ih _ (and_not_or_eq_zero _ hg)
  exact walk _ f (BitVec.and_not_self ..)

/-! ### What leaves the fuses -/

/-- Every part but the OTP. -/
def offOtp : List Part := everyPart.erase .otp

@[simp] theorem mem_offOtp {p : Part} : p ∈ offOtp ↔ p ≠ .otp ∧ p ≠ .pending := by cases p <;> decide

theorem otp_of_sameBut (h : SameBut l s t) (hl : .otp ∉ l) : t.otp = s.otp := by
  obtain ⟨otp, -⟩ : s.otp = t.otp ∧ s.fuses = t.fuses := h .otp hl
  exact otp.symm

/-- What an occurrence does to the fuses is what its operation does. -/
theorem onlyBlown_act {g : Bool} {op : State → State} (h : act g op s = .next t) (hop : OnlyBlown s.otp (op s).otp) :
    OnlyBlown s.otp t.otp := by
  rcases act_next h with ⟨-, rfl⟩ | ⟨-, rfl⟩
  · exact .refl
  · simpa using hop

/-! ### Resets -/

/-- The internal reset leaves the fuses, those of a floor raise that it cuts short completed in part (13 R298). -/
theorem onlyBlown_fullReset (h : v.otp = s.otp) : OnlyBlown s.otp (fullReset v).otp := by
  have reset : (fullReset v).otp = (cutRaise v).otp := by rw [fullReset_eq]
  rw [reset, ← h]
  rcases cutRaise_otp (s := v) with e | ⟨n, e⟩
  · exact .of_eq e
  · exact e ▸ onlyBlown_floor blowFuses_keeps

theorem onlyBlown_loseRails (h : v.otp = s.otp) : OnlyBlown s.otp (loseRails v).otp :=
  onlyBlown_fullReset (by simpa using h)

theorem onlyBlown_shutDown : OnlyBlown s.otp (shutDown s).otp := by
  simp only [shutDown]
  split
  · exact onlyBlown_fullReset rfl
  · exact onlyBlown_loseRails rfl

theorem onlyBlown_powerCycle : OnlyBlown s.otp (powerCycle s).otp :=
  onlyBlown_fullReset (by split <;> rfl)

theorem onlyBlown_of_assertsReset {c : Instr} (h : exec c s = .next t) (hc : assertsReset c = true) :
    OnlyBlown s.otp t.otp := by
  cases c
  case powerOn =>
    simp only [exec, execPowerOn, readExtpwr, whenB] at h
    refine onlyBlown_act h ?_
    dsimp only
    split
    · exact onlyBlown_powerCycle
    · exact .refl
  case railBrownOut =>
    simp only [exec, execRailBrownOut] at h
    exact onlyBlown_act h (onlyBlown_loseRails rfl)
  case resetN =>
    simp only [exec, execResetN] at h
    refine onlyBlown_act h ?_
    (repeat' split)
    · exact onlyBlown_fullReset rfl
    · exact onlyBlown_fullReset rfl
    · exact .refl
  case vinUndervoltage =>
    simp only [exec, execVinUndervoltage, whenB] at h
    refine onlyBlown_act h ?_
    dsimp only
    (repeat' split)
    · exact onlyBlown_loseRails rfl
    · exact onlyBlown_loseRails rfl
    · exact .refl
  case xinLoss =>
    simp only [exec, execXinLoss] at h
    exact onlyBlown_act h (onlyBlown_fullReset (v := latchCause .xinLost s) rfl)
  case thermalShutdown =>
    simp only [exec, execThermalShutdown] at h
    refine onlyBlown_act h ?_
    split
    · exact .refl
    · exact onlyBlown_shutDown
  case slotSwitchReset =>
    simp only [exec, execSlotSwitchReset] at h
    exact onlyBlown_act h (onlyBlown_fullReset rfl)
  case s4Entry =>
    simp only [exec, execS4Entry] at h
    refine onlyBlown_act h ?_
    split
    · exact onlyBlown_fullReset (otp_of_sameBut (l := [.counters]) (by simp [lowerPins]) (by decide))
    · exact .refl
  all_goals nomatch hc

/-! ### Raises and revocations -/

theorem onlyBlown_revokeKeys : OnlyBlown s.otp (revokeKeys s).otp := by
  simp only [revokeKeys]
  split
  · exact onlyBlown_revoked
  · exact .refl

theorem onlyBlown_enterService : OnlyBlown s.otp (enterService s).otp := by
  have announced : ∀ u, (announcePhase u).otp = u.otp := fun u => otp_of_sameBut (l := []) (by simp) (by simp)
  simp only [enterService, announced]
  have kept : ∀ u, u.otp = s.otp → OnlyBlown s.otp (revokeKeys u).otp := fun u hu => hu ▸ onlyBlown_revokeKeys
  exact kept _ (otp_of_sameBut (l := offOtp) (by simp) (by decide))

theorem onlyBlown_startHeron : OnlyBlown s.otp (startHeron s).otp := by
  have opened : ∀ u, (openCycle true u).otp = u.otp := fun u =>
    otp_of_sameBut (l := offOtp) (by simp) (by decide)
  have kept : ∀ u, u.otp = s.otp → OnlyBlown s.otp (enterService u).otp := fun u hu => hu ▸ onlyBlown_enterService
  rw [startHeron, opened]
  exact kept _ (otp_of_sameBut (l := offOtp) (by simp) (by decide))

theorem onlyBlown_of_floorRaiseDone (h : exec .floorRaiseDone s = .next t) : OnlyBlown s.otp t.otp := by
  simp only [exec, execFloorRaiseDone] at h
  refine onlyBlown_act h ?_
  split
  next r hr =>
    have responds : ∀ k p u, (respond r.asker 10 k p u).otp = u.otp := fun k p u =>
      otp_of_sameBut (l := offOtp) (by simp) (by decide)
    rw [responds]
    exact onlyBlown_floor blowFuses_keeps
  next => exact .refl

/-- The commands for which `writes` lists the OTP. -/
theorem otp_mem_writes {c : Instr} (hm : .otp ∈ writes c) : assertsReset c = true ∨
    (∃ x y z, c = .otpReadDone x y z) ∨ c = .heronStart ∨ c = .floorRaiseDone := by
  cases c <;> simp [writes, assertsReset] at hm ⊢

/-- Settles O9: the commands that `writes` lists for the OTP blow fuses of the floor or of the revoked keys and clear
none, and the others leave it. -/
theorem fusesOnlyBlow : Obligations.FusesOnlyBlow := by
  unfold Obligations.FusesOnlyBlow
  intro c s t h hread
  have blown : OnlyBlown s.otp t.otp := by
    by_cases hm : .otp ∈ writes c
    · rcases otp_mem_writes hm with hr | ⟨x, y, z, rfl⟩ | rfl | rfl
      · exact onlyBlown_of_assertsReset h hr
      · exact absurd rfl (hread x y z)
      · exact onlyBlown_act (by simpa only [exec, execHeronStart] using h) onlyBlown_startHeron
      · exact onlyBlown_of_floorRaiseDone h
    · exact .of_eq (otp_of_sameBut (exec_frame h) hm)
  exact blown

end Sys2Proof.Machine
end

section
/-!
SUPPORT. From the flash to SERVICE: the flash layout and the choice of a slot (03 R49 to R52), CONFIG (R56; 04 R89),
WAIT_TIME (R57) and the start of Heron (R58, R62), by what each leaves of the start-up's own state.
-/
namespace Sys2Proof.Machine

variable {s t : State} {x : Slot} {i : Image}

theorem boot_of_sameBut {l : List Part} (h : SameBut l s t) (hl : .boot ∉ l) : t.boot = s.boot :=
  (h .boot hl).symm

theorem now_of_sameBut {l : List Part} (h : SameBut l s t) (hl : .now ∉ l) : t.now = s.now :=
  (h .now hl).symm

/-! ### Trying slots (03 R51) -/

/-- The code of a slot (03 R52). -/
def resultOf (b : Boot) (x : Slot) : Nat := if x = .a then b.resultA else b.resultB

/-- What the readings of the JEDEC IDs and of the stand-down words give (03 R49, R50). -/
def layoutOf (b : Boot) : Bool × Bool × Bool × BitVec 32 × BitVec 32 × Bool :=
  (b.jedecDone, b.twoChip, b.standKnown, b.standA, b.standB, b.slotBPresent)

/-- What trying slots leaves: the layout, and each slot's code but an absent slot's, which is recorded. -/
structure Tried (a b : Boot) : Prop where
  layout : layoutOf b = layoutOf a
  result : ∀ x, resultOf b x = resultOf a x ∨ x = .b ∧ a.slotBPresent = false ∧ resultOf b x = 1

theorem slotBPresent_of_layoutOf {a b : Boot} (h : layoutOf b = layoutOf a) : b.slotBPresent = a.slotBPresent := by
  simp only [layoutOf, Prod.mk.injEq] at h
  obtain ⟨-, -, -, -, -, present⟩ := h
  exact present

theorem Tried.trans {a b c : Boot} (h : Tried a b) (h' : Tried b c) : Tried a c := by
  refine ⟨h'.layout.trans h.layout, fun x => ?_⟩
  rcases h'.result x with e' | ⟨hx, habsent, hone⟩
  · rw [e']; exact h.result x
  · exact .inr ⟨hx, slotBPresent_of_layoutOf h.layout ▸ habsent, hone⟩

theorem boot_setResult {code : Nat} : (setResult x code s).boot =
    if x = .a then { s.boot with resultA := code } else { s.boot with resultB := code } := by
  cases x <;> rfl

theorem layoutOf_setResult {code : Nat} : layoutOf (setResult x code s).boot = layoutOf s.boot := by cases x <;> rfl

theorem resultOf_setResult {code : Nat} : resultOf (setResult x code s).boot x = code := by cases x <;> rfl

theorem boot_recordFail {r : SlotResult} :
    (recordFail x r s).boot = { (setResult x r.code s).boot with failed := true } := by simp [recordFail]

theorem boot_enterBare_eq : (enterBare s).boot =
    { s.boot with phase := .bare, trying := none, runSlot := none, enteredAt := s.now } := by
  have later : ∀ (b : Bool) (u : State), (announcePhase (if b then startLinks (startPorts u) else u)).boot = u.boot :=
    fun b u => boot_of_sameBut (l := [.ports, .mdio, .links, .lanes]) (by simp) (by decide)
  have now : (logCause (logFault 0x11 0 0 (bumpDev 13 s))).now = s.now :=
    now_of_sameBut (l := [.supply, .counters, .faults]) (by simp) (by decide)
  simp [enterBare, later, boot_logCause, now]

theorem tried_enterBare : Tried s.boot (enterBare s).boot := by
  rw [boot_enterBare_eq]
  exact ⟨rfl, fun _ => .inl rfl⟩

/-- An absent slot is slot B (03 R49). -/
theorem slotAbsent_iff : slotAbsent s x = true ↔ x = .b ∧ s.boot.slotBPresent = false := by simp [slotAbsent]

theorem tried_absent (h : slotAbsent s x = true) : Tried s.boot (recordFail x (slotFails 1) s).boot := by
  obtain ⟨rfl, habsent⟩ := slotAbsent_iff.1 h
  rw [boot_recordFail]
  refine ⟨rfl, fun y => ?_⟩
  cases y
  case a => exact .inl rfl
  case b => exact .inr ⟨rfl, habsent, rfl⟩

theorem boot_readSlot : (readSlot x s).boot = s.boot := boot_of_sameBut (l := []) (by simp) (by simp)

/-- Trying slots, from whichever slot and however far it goes. -/
theorem tried_trySlots {n : Nat} {y : Option Slot} : Tried s.boot (trySlots n y s).boot := by
  induction n generalizing y s with
  | zero => exact tried_enterBare
  | succ n ih =>
    cases y with
    | none => exact tried_enterBare
    | some x =>
      simp only [trySlots]
      split
      next habsent => exact (tried_absent habsent).trans ih
      next =>
        rw [boot_readSlot]
        exact ⟨rfl, fun _ => .inl rfl⟩

/-! ### The flash layout (03 R49, R50) -/

/-- The layout that the JEDEC IDs give, with an absent slot B's code, and the stand-down words of the first reading. -/
def layoutRead (id1 id0 : BitVec 24) (standA standB : BitVec 32) (s : State) : State :=
  { s with boot := { s.boot with
      jedecDone := true, twoChip := chipThere id1, chip0 := chipThere id0, chip1 := chipThere id1
      slotBPresent := chipThere id1 || decide (0x18 ≤ id0.toNat % 256) || !chipThere id0
      resultB := if chipThere id1 || decide (0x18 ≤ id0.toNat % 256) || !chipThere id0 then s.boot.resultB else 1
      standKnown := true, standA := (standWords standA standB s).1, standB := (standWords standA standB s).2 } }

/-- The first slot is tried, or, stood down, passed over with its code for the other (03 R51). -/
def tryFirst (s : State) : State :=
  if stoodDown (standWord s (firstSlot s)) && !slotAbsent s (firstSlot s) then
    trySlots 3 (some (otherSlot (firstSlot s)))
      (setResult (firstSlot s) 0xA { s with boot := { s.boot with passedOver := some (firstSlot s) } })
  else trySlots 3 (some (firstSlot s)) s

theorem exec_jedecIdReadDone {id1 id0 : BitVec 24} {a b : BitVec 32} : exec (.jedecIdReadDone id1 id0 a b) s =
    act (running s && s.boot.phase == .early && s.boot.otpRead && !s.boot.otpBad && !s.boot.jedecDone)
      (fun s => tryFirst (layoutRead id1 id0 a b s)) s := rfl

/-- Trying slots keeps the layout, and the code of an absent slot B. -/
theorem layout_trySlots {n : Nat} {y : Option Slot} : layoutOf (trySlots n y s).boot = layoutOf s.boot ∧
    (s.boot.slotBPresent = false → s.boot.resultB = 1 → (trySlots n y s).boot.resultB = 1) := by
  have tried : Tried s.boot (trySlots n y s).boot := tried_trySlots
  refine ⟨tried.layout, fun _ hone => ?_⟩
  rcases tried.result .b with e | ⟨-, -, e⟩
  · exact e.trans hone
  · exact e

/-- Passing a slot over keeps them too: an absent slot is not passed over. -/
theorem layout_tryFirst : layoutOf (tryFirst s).boot = layoutOf s.boot ∧
    (s.boot.slotBPresent = false → s.boot.resultB = 1 → (tryFirst s).boot.resultB = 1) := by
  rw [tryFirst]
  split
  next hdown =>
    refine ⟨layout_trySlots.1.trans layoutOf_setResult, fun habsent hone => ?_⟩
    cases hf : firstSlot s
    case a => exact layout_trySlots.2 habsent hone
    case b => simp [hf, slotAbsent, habsent] at hdown
  next => exact layout_trySlots

/-- What JEDEC_ID_READ_DONE leaves of the layout, whichever slot is tried first. -/
theorem boot_tryFirst_layoutRead {id1 id0 : BitVec 24} {a b : BitVec 32} {u : State}
    (hu : u = tryFirst (layoutRead id1 id0 a b s)) : u.boot.jedecDone = true ∧ u.boot.twoChip = chipThere id1 ∧
    u.boot.standKnown = true ∧ (u.boot.standA, u.boot.standB) = standWords a b s ∧
    u.boot.slotBPresent = (chipThere id1 || decide (0x18 ≤ id0.toNat % 256) || !chipThere id0) ∧
    (u.boot.slotBPresent = false → u.boot.resultB = 1) := by
  subst hu
  obtain ⟨hlayout, hresult⟩ := layout_tryFirst (s := layoutRead id1 id0 a b s)
  simp only [layoutOf, Prod.mk.injEq] at hlayout
  obtain ⟨hdone, htwo, hknown, ha, hb, hpresent⟩ := hlayout
  refine ⟨hdone, htwo, hknown, by rw [ha, hb]; rfl, hpresent, fun habsent => ?_⟩
  rw [hpresent] at habsent
  exact hresult habsent (if_neg (ne_true_of_eq_false habsent))

/-! ### The check of a slot (03 R51, R52, R56) -/

/-- SLOT_CHECK_DONE's effect on the slot being tried: its image runs, or the next slot is tried. -/
def slotChecked (x : Slot) (r : SlotRead) (s : State) : State :=
  match (checkRegion s x r).image with
  | some i => acceptSlot x i s
  | none => trySlots 3 (nextSlot s x) (recordFail x (checkRegion s x r) s)

theorem exec_slotCheckDone {r : SlotRead} (hrun : running s = true) (hx : s.boot.trying = some x)
    (hdue : s.ladder.done = true ∨ earlyFailure (checkRegion s x r) = true) :
    exec (.slotCheckDone r) s = .next (publish s (slotChecked x r s)) := by
  have due : (s.ladder.done || earlyFailure (checkRegion s x r)) = true := by simpa using hdue
  simp only [exec, execSlotCheckDone, act, hrun, hx, due, Bool.and_self, ↓reduceIte]
  rfl

/-- CONFIG begins with the image's tables in force (03 R56). -/
theorem tables_configBegins : (configBegins i s).tables = i.tables := by
  have kept : SameBut [.dunlin, .streams, .meters, .ports, .mdio, .links, .vcs, .pairs, .lanes, .counters]
      (loadTables i s) (configBegins i s) := by simp [configBegins]
  exact (kept .tables (by decide)).symm

theorem boot_acceptSlot : (acceptSlot x i s).boot = { (setResult x 0 s).boot with
    phase := .config, runSlot := some x, image := some i, trying := none } := by
  have begun : ∀ u, (configBegins i u).boot = u.boot := fun u => boot_of_sameBut
    (l := [.tables, .dunlin, .heronCopies, .streams, .meters, .ports, .mdio, .links, .vcs, .pairs, .lanes, .counters])
    (by simp) (by decide)
  have failed : (if s.boot.failed then bumpDev 12 s else s).boot = s.boot := by split <;> rfl
  simp [acceptSlot, begun, boot_setResult, failed]

theorem tables_acceptSlot : (acceptSlot x i s).tables = i.tables := tables_configBegins

/-- A slot that fails keeps its code while the next is tried: only an absent slot's is recorded again (03 R52). -/
theorem resultOf_tryNext {r : SlotRead} {y : Option Slot} :
    resultOf (trySlots 3 y (recordFail x (checkRegion s x r) s)).boot x = (checkRegion s x r).code := by
  have recorded : (recordFail x (checkRegion s x r) s).boot =
      { (setResult x (checkRegion s x r).code s).boot with failed := true } := boot_recordFail
  rcases (tried_trySlots (y := y) (n := 3) (s := recordFail x (checkRegion s x r) s)).result x with
    e | ⟨rfl, habsent, e⟩
  · rw [e, recorded]
    exact resultOf_setResult (s := s)
  · have absent : slotAbsent s .b = true := slotAbsent_iff.2 ⟨rfl, by simpa [recorded, boot_setResult] using habsent⟩
    rw [e, checkRegion, if_pos absent, slotFails]

/-! ### The end of CONFIG (03 R56; 04 R89) -/

theorem exec_configDone (hrun : running s = true) (hp : s.boot.phase = .config) (hi : s.boot.image = some i) :
    exec .configDone s = .next (publish s (configEnds i s)) := by
  simp only [exec, execConfigDone, act, hrun, hp, hi, Bool.true_and, beq_self_eq_true, ↓reduceIte]

theorem boot_configEnds : (configEnds i s).boot = { s.boot with
    phase := .waitTime, enteredAt := s.now, configEnd := s.now, startCond := false } := by
  have announced : ∀ u, (announcePhase u).boot = u.boot := fun u => boot_of_sameBut (l := []) (by simp) (by simp)
  have installed : SameBut [.mgmtKey, .counters, .faults] s (installKey i s) := by simp
  simp only [configEnds, announced, boot_of_sameBut installed (by decide), now_of_sameBut installed (by decide)]

/-- What follows the installation of the key leaves it and the counters. -/
theorem sameBut_installKey_configEnds : SameBut [.boot] (installKey i s) (configEnds i s) := by simp [configEnds]

theorem key_configEnds : (configEnds i s).hid.key = (stationKey s i).getD s.otp.mgmtKey := by
  have key : (installKey i s).hid.key = (configEnds i s).hid.key :=
    sameBut_installKey_configEnds .mgmtKey (by decide)
  rw [← key, installKey]
  cases stationKey s i <;> simp

/-- A key record that is missing or does not unwrap is counted (04 R89). -/
theorem countedBy_configEnds (h : stationKey s i = none) : CountedBy 1 0x20 0 18 s (configEnds i s) := by
  have counted : CountedBy 1 0x20 0 18 s (installKey i s) := by
    rw [installKey, h]
    exact (countedBy_bumpDev (t := { s with hid := { s.hid with key := s.otp.mgmtKey } }) rfl).of_counters rfl
  exact counted.of_sameBut sameBut_installKey_configEnds (by decide) (by decide)

/-! ### The start of Heron (03 R58, R62) -/

theorem boot_enterService : (enterService s).boot.phase = .service ∧ (enterService s).boot.enteredAt = s.now := by
  have entered : ∀ u, SameBut [.supply, .otp, .chans, .avocet, .counters, .faults] u
      (announcePhase (revokeKeys (logCause (startAvocet u)))) := fun u => by simp
  have regions : SameBut [.mem, .upsets, .regions] s (enterRegions s) := by simp
  rw [enterService, boot_of_sameBut (entered _) (by decide)]
  exact ⟨rfl, now_of_sameBut regions (by decide)⟩

/-- Heron's clock takes H, and its first cycle is number 1 (03 R58). -/
def clockStarted (s : State) : State :=
  let t := setHeronClock s
  bumpDev 0 { t with heron := { t.heron with started := true, cycle := 1, len := cycleUnits t } }

/-- Before SERVICE entry the streams start with full credit (06 R133). -/
def streamsStarted (s : State) : State := startStreams (tatOf (epochTat s)) (endPauses s)

theorem startHeron_eq : startHeron s = openCycle true (enterService (streamsStarted (clockStarted s))) := rfl

/-- What follows the first boundary's count leaves it (06 R133). -/
theorem clock_startHeron : (startHeron s).heron.started = true ∧ (startHeron s).heron.cycle = 1 := by
  have kept : SameBut offClock (clockStarted s) (startHeron s) := by simp [startHeron_eq, streamsStarted]
  have clock : clockOf _ = clockOf _ := kept .heronClock (by simp)
  simp only [clockOf, Prod.mk.injEq] at clock
  obtain ⟨started, cycle, -⟩ := clock
  exact ⟨started.symm, cycle.symm⟩

theorem boot_startHeron : (startHeron s).boot.phase = .service ∧ (startHeron s).boot.enteredAt = s.now := by
  have opened : ∀ u, (openCycle true u).boot = u.boot := fun u => boot_of_sameBut
    (l := [.status, .regions, .dunlin, .heronCopies, .meters, .ports, .quiet, .chans, .counters, .faults])
    (by simp) (by decide)
  have now : (streamsStarted (clockStarted s)).now = s.now := now_of_sameBut
    (l := [.heronClock, .streams, .meters, .coarse, .ports, .queues, .counters])
    (by simp [streamsStarted, clockStarted]) (by decide)
  rw [startHeron_eq, opened, ← now]
  exact boot_enterService

/-- Settles O19: what each command of the slots, of CONFIG, of WAIT_TIME and of Heron's start leaves. -/
theorem slotsAndServiceComplete : Obligations.SlotsAndServiceComplete := by
  unfold Obligations.SlotsAndServiceComplete
  intro s hrun
  refine ⟨fun id1 id0 a b hphase hotp hbad hjedec => ?_, fun x r hx hdue => ?_, fun i hphase hi => ?_,
    fun hphase hcond hpolicy hdue => ?_, fun hphase hcond hgrid => ?_⟩
  · obtain ⟨hdone, htwo, hknown, hwords, hpresent, hresult⟩ :=
      boot_tryFirst_layoutRead (id1 := id1) (id0 := id0) (a := a) (b := b) (s := s) rfl
    rw [exec_jedecIdReadDone]
    refine ⟨_, act_on (by simp [hrun, hphase, hotp, hbad, hjedec]), ?_⟩
    simp only [publish_fields]
    exact ⟨hdone, htwo, hknown, fun h => Prod.mk.inj (hwords.trans (if_neg (ne_true_of_eq_false h))),
      fun h => Prod.mk.inj (hwords.trans (if_pos h)), hpresent, hresult⟩
  · refine ⟨_, exec_slotCheckDone hrun hx hdue, fun i hi => ?_, fun hi => ?_⟩
    · simp only [slotChecked, hi, publish_fields, boot_acceptSlot]
      exact ⟨trivial, trivial, trivial, tables_acceptSlot, resultOf_setResult (s := s)⟩
    · simp only [slotChecked, hi, publish_fields]
      exact resultOf_tryNext
  · refine ⟨_, exec_configDone hrun hphase hi, by simp [boot_configEnds], fun k hk => ?_, fun hk => ?_⟩
    · simp [key_configEnds, hk]
    · exact ⟨by simp [key_configEnds, hk], (countedBy_configEnds hk).publish (by decide)⟩
  · simp only [exec, execLocalTimeout]
    exact ⟨_, act_on (by simp [hrun, hphase, hcond, hpolicy, hdue]), by simp⟩
  · simp only [exec, execHeronStart]
    refine ⟨_, act_on (by rcases hcond with h | h <;> simp [hrun, hphase, h, hgrid]), ?_⟩
    simp only [publish_fields, clock_startHeron, boot_startHeron, and_self]

/-- Settles O5: at reset no byte is listed (03 R46). -/
theorem resetImageFormed : Obligations.ResetImageFormed := memWf_nil

end Sys2Proof.Machine
end

section
/-!
SUPPORT. The frame of the commands of Dunlin, of Heron, of the wheel and of the Ethernet ports.
-/
namespace Sys2Proof.Machine

/-- Settles O58: these commands too change only what `writes` lists, and what leaves the image leaves its bytes. -/
theorem timeAndEthernetFrames : Obligations.TimeAndEthernetFrames := by
  unfold Obligations.TimeAndEthernetFrames
  intro c s t _ h
  exact ⟨exec_frame h, fun hm => readByte_of_sameBut (exec_frame h) hm⟩

end Sys2Proof.Machine
end

section
/-!
SUPPORT. Dunlin's domains (05 R101 to R107): what the state table and the choice of the working domain leave of a
domain, and what a Sync, its loss, the end of alignment, an Announce and a wrap leave.
-/
namespace Sys2Proof.Machine

variable {s t o : State} {d e : Dom} {st : DomState} {x : DomSt} {c i n : Nat}

/-! ### A domain's record -/

@[simp] theorem dom_setDom : dom (setDom d x s) e = if e = d then x else dom s e := by
  fin_cases d <;> fin_cases e <;> rfl

theorem dom_of_dunlin (h : t.dunlin = s.dunlin) : dom t = dom s := by
  funext e
  simp only [dom, h]

@[simp] theorem dom_publish : dom (publish o t) = dom t := dom_of_dunlin (by simp)

@[simp] theorem dom_bump : dom (bump c i n s) = dom s := rfl

@[simp] theorem dom_logFault : dom (logFault c i n s) = dom s := rfl

@[simp] theorem dom_rebase {b : Bool} : dom (rebase b s) = dom s := rfl

@[simp] theorem dom_callSwitch : dom (callSwitch d s) = dom s := by
  simp only [callSwitch]
  split <;> rfl

/-- An update of a domain leaves what is not Dunlin's, and of Dunlin what is not that domain's. -/
@[simp] theorem setDom_fields : (setDom d x s).now = s.now ∧ (setDom d x s).tables = s.tables ∧
    port (setDom d x s) = port s ∧ readCtr (setDom d x s) = readCtr s ∧
    (setDom d x s).dunlin.working = s.dunlin.working ∧ (setDom d x s).dunlin.localCount = s.dunlin.localCount := by
  simp only [setDom]
  split <;> exact ⟨rfl, rfl, rfl, rfl, rfl, rfl⟩

/-! ### What the state table leaves (R104, R105) -/

/-- A domain, its state, its trim and the counts of the state table apart. -/
def steadyDom (x : DomSt) : DomSt :=
  { x with st := .disabled, inc := 0, integral := 0, good := 0, bad := 0, saturated := false, lockedSince := false }

/-- Dunlin's counters with what the domains have heard: what the state table leaves. -/
def steady (s : State) : Nat × DomSt × DomSt :=
  (s.dunlin.localCount, steadyDom s.dunlin.dom0, steadyDom s.dunlin.dom1)

theorem steadyDom_of_steady (h : steady t = steady s) : steadyDom (dom t d) = steadyDom (dom s d) := by
  simp only [steady, Prod.mk.injEq] at h
  fin_cases d
  · exact h.2.1
  · exact h.2.2

theorem steady_setDom (h : steadyDom x = steadyDom (dom s d)) : steady (setDom d x s) = steady s := by
  fin_cases d
  · exact congrArg (fun y => (s.dunlin.localCount, y, steadyDom s.dunlin.dom1)) h
  · exact congrArg (fun y => (s.dunlin.localCount, steadyDom s.dunlin.dom0, y)) h

@[simp] theorem steady_rebase {b : Bool} : steady (rebase b s) = steady s := rfl

@[simp] theorem steady_hotSwitch : steady (hotSwitch s) = steady s := rfl

/-- The choice of the working domain moves neither domain (R105). -/
@[simp] theorem steady_choice {f : Option (Dom × Nat)} :
    steady { s with dunlin := { s.dunlin with firstLock := f, working := d } } = steady s := rfl

@[simp] theorem steady_callSwitch : steady (callSwitch d s) = steady s := by
  simp only [callSwitch]
  split <;> rfl

@[simp] theorem steady_idleRate : steady (idleRate d s) = steady s := by
  simp only [idleRate]
  split
  · exact steady_setDom rfl
  · rfl

@[simp] theorem steady_chooseWorking : steady (chooseWorking d s) = steady s := by
  simp only [chooseWorking]
  (repeat' split) <;> simp

@[simp] theorem steady_enterDom : steady (enterDom d st s) = steady s := by
  simp only [enterDom]
  split
  · rw [steady_callSwitch]
    exact steady_setDom rfl
  · split
    · exact steady_chooseWorking.trans (steady_setDom rfl)
    · exact steady_setDom rfl

@[simp] theorem steady_trimDom {off : Int} : steady (trimDom d off s) = steady s := by
  simp only [trimDom]
  generalize hu : setDom d _ s = u
  have trims : steady u = steady s := hu ▸ steady_setDom rfl
  (repeat' split) <;> simp [trims]

/-- What a domain has heard: its last offset, the instant of its last Sync, its grandmaster, the slave port and the
Announce frames. -/
def heardOf (x : DomSt) :
    Int × Option Nat × Option (BitVec 64) × Option Port × List (AnnounceInfo × Nat) :=
  (x.offset, x.lastSync, x.gm, x.slavePort, x.heard)

theorem heardOf_of_steady (h : steady t = steady s) : heardOf (dom t d) = heardOf (dom s d) :=
  show heardOf (steadyDom (dom t d)) = heardOf (steadyDom (dom s d)) from congrArg heardOf (steadyDom_of_steady h)

/-- A step moves the count alone (R104). -/
theorem heardOf_stepDom {off : Int} : heardOf (dom (stepDom d off s) d) = heardOf (dom s d) := by
  simp only [stepDom]
  split <;> simp [heardOf]

theorem heardOf_servo {off : Int} : heardOf (dom (servo d off s) d) =
    heardOf { dom s d with offset := off, lastSync := some s.now } := by
  simp only [servo]
  split
  · rw [heardOf_stepDom]; simp
  · rw [heardOf_of_steady steady_trimDom]; simp

/-! ### Sync (R104) -/

theorem heardOf_takeGm {gm : BitVec 64} :
    heardOf (dom (takeGm d gm s) d) = heardOf { dom s d with gm := some gm } := by
  simp only [takeGm]
  (repeat' split) <;> simp [heardOf_of_steady steady_enterDom]

theorem now_takeGm {gm : BitVec 64} : (takeGm d gm s).now = s.now :=
  have kept : SameBut [.dunlin, .heronClock, .counters, .faults] s (takeGm d gm s) := by simp
  (kept .now (by decide)).symm

/-- An accepted Sync sets the domain's grandmaster, its offset and the instant. -/
theorem heardOf_takeSync {y : SyncInfo} (hp : domPort s d y.port = true) (hs : (dom s d).slavePort = some y.port) :
    heardOf (dom (takeSync d y s) d) = heardOf { dom s d with
      gm := some y.gm, offset := syncOffset s d y, lastSync := some s.now } := by
  have known := heardOf_takeGm (s := s) (d := d) (gm := y.gm)
  simp only [heardOf, Prod.mk.injEq] at known
  rw [takeSync, if_pos ⟨hp, hs⟩, heardOf_servo, now_takeGm]
  simp [heardOf, known]

/-! ### The loss of Sync (R104, R105) -/

theorem otherDom_ne : otherDom d ≠ d := by fin_cases d <;> decide

theorem countedBy_bump (h : readCtr t c i n = readCtr s c i n) : CountedBy 1 c i n s (bump c i n t) := by
  simp [CountedBy, bump, h]

/-- A domain leaves LOCKED: the state changes, the exit is counted and logged, and may call for a hot switch. -/
theorem enterDom_of_locked (h : (dom s d).st = .locked) (hst : st ≠ .locked) : ∃ x, x.st = st ∧ enterDom d st s =
    callSwitch d (logFault 0x70 d.val (d.val + domCode st * 2) (bump 0x22 d.val 1 (setDom d x s))) := by
  simp only [enterDom, h, ne_eq, hst, not_false_eq_true, and_self, ↓reduceIte]
  exact ⟨_, rfl, rfl⟩

/-- The device's own frames move counters of the classes 0x20 and 0x24 alone. -/
theorem frameCounter_other (h20 : c ≠ 0x20) (h24 : c ≠ 0x24) (hi : i < 2 ^ 16) (hn : n < 256) :
    frameCounter (ctrId c i n) = false := by
  simp only [frameCounter, ctrId, Bool.or_eq_false_iff, Bool.and_eq_false_iff, beq_eq_false_iff_ne]
  omega

theorem frameCounter_domain : frameCounter (ctrId 0x22 d.val 1) = false :=
  frameCounter_other (by decide) (by decide) (by omega) (by decide)

theorem switchDue_callSwitch (hw : s.dunlin.working = d) (ho : (dom s (otherDom d)).st = .locked) :
    (callSwitch d s).dunlin.switchDue = some (s.now + 1) := by
  rw [callSwitch, if_pos ⟨hw, ho⟩]

/-- An exit from LOCKED leaves the state it was for, a count, and the hot switch of the next ck where the other domain
is LOCKED. -/
theorem enterDom_leaves_locked (h : (dom s d).st = .locked) (hst : st ≠ .locked) :
    (dom (enterDom d st s) d).st = st ∧ CountedBy 1 0x22 d.val 1 s (enterDom d st s) ∧
    (s.dunlin.working = d → (dom s (otherDom d)).st = .locked →
      (enterDom d st s).dunlin.switchDue = some (s.now + 1)) := by
  obtain ⟨x, hx, left⟩ := enterDom_of_locked h hst
  have counted : CountedBy 1 0x22 d.val 1 s (bump 0x22 d.val 1 (setDom d x s)) := countedBy_bump (by simp)
  rw [left]
  refine ⟨by simp [hx], counted.of_sameBut (l := [.dunlin, .faults]) (by simp) (by decide) frameCounter_domain,
    fun hw ho => ?_⟩
  rw [switchDue_callSwitch (by simpa using hw) (by simpa [otherDom_ne] using ho)]
  simp

/-! ### The best master (R103) -/

/-- Of what a domain has heard, the Announce frames that count under the state's ports and time. -/
theorem heardNow_setDom : heardNow (setDom d x s) d =
    x.heard.filter (fun y => domPort s d y.1.port && decide (s.now < y.2)) := by
  simp [heardNow, domPort, inMask]

/-- The choice keeps the frames that count, and takes the best of them, if there is one, for the slave port and the
grandmaster. -/
theorem heardOf_chooseMaster : (dom (chooseMaster d s) d).heard = heardNow s d ∧
    (∀ b, bestMaster s d = some b →
      (dom (chooseMaster d s) d).slavePort = some b.port ∧ (dom (chooseMaster d s) d).gm = some b.gm) ∧
    (bestMaster s d = none → (dom (chooseMaster d s) d).slavePort = none) := by
  have settled : bestMaster (setDom d { dom s d with heard := heardNow s d } s) d = bestMaster s d := by
    rw [bestMaster, heardNow_setDom]
    simp [bestMaster, heardNow]
  simp only [chooseMaster, settled]
  cases hb : bestMaster s d with
  | none => simp
  | some b =>
    have known := heardOf_takeGm (d := d) (gm := b.gm) (s := setDom d { dom s d with
      heard := heardNow s d, slavePort := some b.port } (setDom d { dom s d with heard := heardNow s d } s))
    simp only [heardOf, Prod.mk.injEq] at known
    simp_all

/-- What a domain has heard once an Announce has taken its port's place. -/
def hearing (s : State) (d : Dom) (y : AnnounceInfo) : List (AnnounceInfo × Nat) :=
  (dom s d).heard.filter (fun z => z.1.port != y.port) ++ [(y, s.now + announceTimeout y)]

theorem takeAnnounce_eq {y : AnnounceInfo} (hp : domPort s d y.port = true) (hy : y.steps < 255) :
    takeAnnounce d y s = chooseMaster d (setDom d { dom s d with heard := hearing s d y } s) := by
  rw [takeAnnounce, if_pos ⟨hp, hy⟩]
  rfl

/-! ### The wrap of a counter (R101) -/

theorem counterValue_setCounter {c e : Fin 3} {v : Nat} :
    counterValue (setCounter c v s) e = if e = c then v else counterValue s e := by
  fin_cases c <;> fin_cases e <;> rfl

theorem counterValue_ext (hl : t.dunlin.localCount = s.dunlin.localCount)
    (hd : ∀ d, (dom t d).count = (dom s d).count) : counterValue t = counterValue s := by
  funext c
  fin_cases c
  · exact hl
  · exact hd 0
  · exact hd 1

theorem counterValue_of_dunlin (h : t.dunlin = s.dunlin) : counterValue t = counterValue s := by
  funext c
  simp only [counterValue, h]

@[simp] theorem counterValue_publish : counterValue (publish o t) = counterValue t := counterValue_of_dunlin (by simp)

@[simp] theorem counterValue_bumpDev : counterValue (bumpDev n s) = counterValue s := rfl

/-- A wrap is counted where a counter is set to its value less the range. -/
theorem countedBy_setCounter {c : Fin 3} {v : Nat} : CountedBy 1 0x20 0 8 s (setCounter c v (bumpDev 8 s)) :=
  CountedBy.of_sameBut (l := [.dunlin]) (countedBy_bumpDev rfl) (by simp) (by decide) (by decide)

/-- Settles O20: what a Sync and its loss leave of a domain, alignment's end, the master that an Announce gives, and the
wrap of a counter. -/
theorem domainsComplete : Obligations.DomainsComplete := by
  unfold Obligations.DomainsComplete
  intro s
  simp only [exec, execSyncReceived, execSyncLossTimeout, execAlignmentComplete, execAnnounceReceived,
    execDunlinSecondsWrap]
  refine ⟨fun y d hck hd hm hup hs => ⟨_, act_on hck, ?_⟩, fun d hck hst hlast => ⟨_, act_on ?_, ?_⟩,
    fun hck hh hslew => ⟨_, act_on (by simp [hck, hh, hslew]), by simp, by simp [aligning, hh]⟩,
    fun y d hck hd hm hup hsteps => ⟨_, act_on hck, ?_⟩,
    fun c hrun htop => ⟨_, act_on (Bool.and_eq_true_iff.2 ⟨hrun, decide_eq_true htop⟩), ?_⟩⟩
  · have heard := heardOf_takeSync (d := d) (y := y) (by simp [domPort, hm, hup]) hs
    simp only [heardOf, Prod.mk.injEq] at heard
    simp [hd, heard]
  · cases hl : (dom s d).lastSync with
    | none => simp [hck, hst]
    | some n => simpa [hck, hst] using hlast n hl
  · obtain ⟨left, counted, switch⟩ := enterDom_leaves_locked (st := .holdover) hst (by decide)
    exact ⟨by simpa using left, counted.publish frameCounter_domain, by simpa using switch⟩
  · intro l hl
    obtain ⟨kept, best, alone⟩ := heardOf_chooseMaster (d := d)
      (s := setDom d { dom s d with heard := hearing s d y } s)
    simp only [bestMaster, heardNow_setDom, show List.filter _ (hearing s d y) = l from hl.symm] at kept best alone
    simp only [hd, takeAnnounce_eq (show domPort s d y.port = true by simp [domPort, hm, hup]) hsteps, dom_publish]
    exact ⟨kept, best, fun hnil => alone (by simp [hnil])⟩
  · refine ⟨countedBy_setCounter.publish (by decide), ?_, fun e he => ?_⟩
    · simp [counterValue_setCounter, counterRange]
    · simp [counterValue_setCounter, he]

end Sys2Proof.Machine
end

section
/-!
SUPPORT. A ck that passes (01 R13; 05 R101, R102): the tick advances the ck count and Dunlin's counters, and what the
rules place at the end of a ck and at the start of the next leaves them.
-/
namespace Sys2Proof.Machine

variable {s t o : State} {d : Dom} {x : DomSt} {go : Bool}

/-! ### What leaves Dunlin, and what leaves its counters -/

/-- Every part but one. -/
def allBut (p : Part) : List Part := everyPart.erase p

@[simp] theorem mem_allBut {p q : Part} : q ∈ allBut p ↔ q ≠ p ∧ q ≠ .pending := by
  have listed : q ∈ everyPart ↔ q ≠ .pending := by cases q <;> decide
  rw [allBut, List.Nodup.mem_erase_iff (by decide), listed]

theorem dunlin_of_allBut (h : SameBut (allBut .dunlin) s t) : t.dunlin = s.dunlin :=
  have dunlin : s.dunlin = t.dunlin := h .dunlin (by simp)
  dunlin.symm

theorem now_of_allBut (h : SameBut (allBut .now) s t) : t.now = s.now :=
  have now : s.now = t.now := h .now (by simp)
  now.symm

theorem counterValue_of_allBut (h : SameBut (allBut .dunlin) s t) : counterValue t = counterValue s :=
  counterValue_of_dunlin (dunlin_of_allBut h)

theorem counterValue_of_steady (h : steady t = steady s) : counterValue t = counterValue s :=
  counterValue_ext (congrArg Prod.fst h) fun d =>
    show (steadyDom (dom t d)).count = (steadyDom (dom s d)).count from congrArg DomSt.count (steadyDom_of_steady h)

@[simp] theorem counterValue_setDom (h : x.count = (dom s d).count) :
    counterValue (setDom d x s) = counterValue s :=
  counterValue_ext (by simp) fun e => by by_cases he : e = d <;> simp [he, h]

theorem counterValue_each {α : Type} {l : List α} {f : α → State → State}
    (h : ∀ a u, counterValue (f a u) = counterValue u) : counterValue (each l f s) = counterValue s := by
  unfold each
  induction l generalizing s with
  | nil => rfl
  | cons a l ih => exact ih.trans (h a s)

theorem counterValue_whenB {b : Bool} {f : State → State} (h : ∀ u, counterValue (f u) = counterValue u) :
    counterValue (whenB b f s) = counterValue s := by
  unfold whenB
  split
  · exact h s
  · rfl

theorem counterValue_inOneCk {f : Bool → State → State} (h : ∀ go, counterValue (f go s) = counterValue s) :
    counterValue (inOneCk f s) = counterValue s := by
  simp only [inOneCk]
  split <;> simp [h]

/-! ### Dunlin's own duties -/

@[simp] theorem counterValue_idleRate : counterValue (idleRate d s) = counterValue s :=
  counterValue_of_steady steady_idleRate

@[simp] theorem counterValue_hotSwitch : counterValue (hotSwitch s) = counterValue s := rfl

@[simp] theorem counterValue_callSwitch : counterValue (callSwitch d s) = counterValue s :=
  counterValue_of_steady steady_callSwitch

@[simp] theorem counterValue_enterDom {st : DomState} : counterValue (enterDom d st s) = counterValue s :=
  counterValue_of_steady steady_enterDom

@[simp] theorem counterValue_switchDuty : counterValue (switchDuty s) = counterValue s := by
  have called : counterValue { s with dunlin := { s.dunlin with switchDue := none } } = counterValue s := rfl
  simp only [switchDuty]
  (repeat' split) <;> simp [called]

@[simp] theorem counterValue_takeGm {gm : BitVec 64} : counterValue (takeGm d gm s) = counterValue s := by
  simp only [takeGm]
  (repeat' split) <;> simp

@[simp] theorem counterValue_chooseMaster : counterValue (chooseMaster d s) = counterValue s := by
  simp only [chooseMaster]
  split <;> simp

@[simp] theorem counterValue_masterDuty : counterValue (masterDuty s) = counterValue s :=
  counterValue_each fun d u => by split <;> simp

/-! ### Heron's -/

@[simp] theorem counterValue_fireRecord {r : EventsRec} : counterValue (fireRecord r s) = counterValue s := by
  have acted : ∀ u, counterValue (evtActions r u) = counterValue u := fun _ => rfl
  have after : ∀ u, counterValue (notify 1 r.id (leBytes 1 r.id) (gateEvent r.id (quietEvent r.id u))) =
      counterValue u := fun u => counterValue_of_allBut (by simp)
  simp only [fireRecord]
  rw [after, acted, counterValue_of_allBut (s := s) (by simp)]

@[simp] theorem counterValue_fireDue {n : Nat} : counterValue (fireDue go n s) = counterValue s := by
  have fired : ∀ l u, counterValue (fireRecords l u) = counterValue u := fun l u =>
    counterValue_each fun _ _ => counterValue_fireRecord
  have noted : ∀ u, counterValue (setCopies (noteFired n) u) = counterValue u := fun _ => rfl
  have disputed : ∀ u, counterValue (whenB go (bumpDev 3) (enterSafe (liveMask u) 4 u)) = counterValue u := fun u =>
    counterValue_of_allBut ((same_whenB (by simp)).2 (by simp))
  simp only [fireDue]
  rw [fired, noted, counterValue_whenB disputed]

@[simp] theorem counterValue_commitDomain {was is : Bool} :
    counterValue (commitDomain d was is s) = counterValue s := by
  simp only [commitDomain]
  (repeat' split) <;> simp

@[simp] theorem counterValue_commitGrid {a b : TimeRec} : counterValue (commitGrid a b s) = counterValue s := by
  simp only [commitGrid]
  split <;> rfl

/-- A commit keeps the domains' counters, whatever it enables or disables (R104, R118). -/
@[simp] theorem counterValue_commitStep : counterValue (commitStep s) = counterValue s := by
  have inForce : ∀ y u, counterValue (putInForce y u) = counterValue u := fun y u => by
    simp only [putInForce]
    generalize grid : commitGrid _ _ _ = g
    have kept : counterValue g = counterValue u := by
      rw [← grid, counterValue_commitGrid, counterValue_commitDomain, counterValue_commitDomain]
      rfl
    exact (counterValue_of_allBut (s := g) (by simp)).trans kept
  have applied : ∀ y u, counterValue (applySet y u) = counterValue u := fun y u => by
    refine Eq.trans ?_ (inForce y (takeShadows u))
    simp only [applySet]
    generalize putInForce y (takeShadows u) = g
    split <;> rfl
  have announced : ∀ a b l u, counterValue (notify a b l u) = counterValue u := fun a b l u =>
    counterValue_of_allBut (by simp)
  simp only [commitStep]
  (repeat' split)
  · rw [announced, applied]
    rfl
  · rfl
  · rfl

/-- None of a boundary's steps moves a counter (01 R10). -/
theorem counterValue_boundaryOf : counterValue (boundaryOf go s) = counterValue s := by
  have duties : ∀ b u, counterValue (boundaryDuties b u) = counterValue u := fun b u =>
    counterValue_of_allBut (by simp)
  have gates : ∀ n u, counterValue (each (List.range 4) (fun p => takeGates p n) u) = counterValue u := fun n u =>
    counterValue_of_allBut (by simp)
  have opened : ∀ u, counterValue (openCycle go u) = counterValue u := fun u => by
    simp only [openCycle, counterValue_fireDue, gates]
    rfl
  have begun : ∀ u, counterValue (beginCycle u) = counterValue u := fun u => by
    simp only [beginCycle]
    split <;> rfl
  have counted : ∀ u, counterValue (countCycle u) = counterValue u := fun _ => rfl
  have ended : ∀ u, counterValue (endStep u) = counterValue u := fun u => by
    simp only [endStep]
    split <;> rfl
  rw [boundaryOf, duties, opened, begun, counterValue_commitStep, counted, ended]
  simp only [passedOver, counterValue_fireDue, gates]

theorem counterValue_boundary : counterValue (boundary s) = counterValue s :=
  counterValue_inOneCk fun _ => counterValue_boundaryOf

theorem counterValue_heronDuty : counterValue (heronDuty s) = counterValue s := by
  have taken : ∀ go u, counterValue (takeDue go u) = counterValue u := fun go u => by
    have gates : counterValue (each (List.range 4) (fun p v =>
        if gateDue v p (cycleOffset u) then takeGates p (cycleOffset u) v else v) u) = counterValue u :=
      counterValue_of_allBut (by simp)
    simp only [takeDue]
    split <;> simp [gates]
  have worked : counterValue (heronWork s) = counterValue s := counterValue_inOneCk fun go => by
    rw [taken]
    split
    · exact counterValue_boundaryOf
    · rfl
  simp only [heronDuty]
  split
  · exact (counterValue_of_allBut (by simp)).trans worked
  · rfl

/-! ### A ck -/

theorem counterValue_sleepDuty : counterValue (sleepDuty s) = counterValue s := by
  have passed : ∀ u, counterValue (passBoundaries u) = counterValue u := fun u =>
    counterValue_each fun _ v => by
      split
      · exact (counterValue_of_allBut (by simp)).trans counterValue_boundary
      · rfl
  have woken : ∀ u, counterValue (leaveLevel 0 (rewriteEfftol u)) = counterValue u := fun u =>
    counterValue_of_allBut (by simp)
  have left : ∀ u, counterValue (leaveS3 u) = counterValue u := fun u => by
    rw [leaveS3, woken, passed]
    rfl
  have kept : counterValue (each ((s.links.map (·.1)).filter (keepaliveDue s)) keepalive s) = counterValue s :=
    counterValue_of_allBut (by simp)
  simp only [sleepDuty]
  split <;> simp only [left, kept]

/-- What a ck begins with moves no counter. -/
theorem counterValue_ckDuties : counterValue (ckDuties s) = counterValue s := by
  simp only [ckDuties]
  (repeat' split)
  · refine (counterValue_of_allBut (s := heronDuty (masterDuty (switchDuty s))) (by simp)).trans ?_
    rw [counterValue_heronDuty, counterValue_masterDuty, counterValue_switchDuty]
  · exact counterValue_sleepDuty
  · rfl

/-- What a ck ends with shows EVT_OUT's levels, and leaves the rest of Dunlin. -/
theorem dunlin_ckEnds : (ckEnds s).dunlin = { s.dunlin with
    evtShown0 := s.dunlin.evtOut0, evtShown1 := s.dunlin.evtOut1 } := by
  have shown : ∀ u, (showEvtOut u).dunlin = { u.dunlin with
      evtShown0 := u.dunlin.evtOut0, evtShown1 := u.dunlin.evtOut1 } := fun u => by
    simp only [showEvtOut]
    (repeat' split) <;> rfl
  have granted : (if ckRuns (settleWatchdog s) then snapDuty (grantDuty (settleWatchdog s))
      else settleWatchdog s).dunlin = s.dunlin := dunlin_of_allBut (by simp)
  rw [ckEnds, shown, granted]

/-- The tick: the ck count and the three counters advance (R101, R102). -/
theorem tick_advances {n : Nat} (hn : n = if s.power.level = 3 then 32 else 1) : (tick s).now = s.now + n ∧
    counterValue (tick s) 0 = s.dunlin.localCount + nominalInc * n ∧
    counterValue (tick s) 1 = s.dunlin.dom0.count + s.dunlin.dom0.inc * n ∧
    counterValue (tick s) 2 = s.dunlin.dom1.count + s.dunlin.dom1.inc * n := by
  subst hn
  exact ⟨rfl, rfl, rfl, rfl⟩

/-- Settles O2: a device that does not run changes nothing, and in one that runs the tick alone moves the ck count and
the counters. -/
theorem idleStepPassesOneCk : Obligations.IdleStepPassesOneCk := by
  unfold Obligations.IdleStepPassesOneCk
  intro s queue
  simp only [step, queue, idleStep]
  refine ⟨fun hoff => act_off hoff, fun hrun => ⟨_, act_on hrun, ?_, fun n hn => ?_⟩⟩
  · have kept : s.pending = (ckDuties (tick (ckEnds s))).pending :=
      (show SameBut (allBut .pending) s (ckDuties (tick (ckEnds s))) by simp) .pending (by simp)
    simp [← kept, queue]
  · have level : s.power = (ckEnds s).power := (show SameBut (allBut .power) s (ckEnds s) by simp) .power (by simp)
    have started : (ckEnds s).now = s.now := now_of_allBut (by simp)
    have duties : (ckDuties (tick (ckEnds s))).now = (tick (ckEnds s)).now := now_of_allBut (by simp)
    have moved : ∀ c, counterValue (publish s (ckDuties (tick (ckEnds s)))) c = counterValue (tick (ckEnds s)) c := by
      simp [counterValue_ckDuties]
    obtain ⟨now, count, count0, count1⟩ := tick_advances (s := ckEnds s) (level ▸ hn)
    rw [started] at now
    rw [← moved, dunlin_ckEnds] at count count0 count1
    exact ⟨by simp [duties, now], count, count0, count1⟩

end Sys2Proof.Machine
end

section
/-!
SUPPORT. The link delay and the latencies of a port (05 R103, R109): what the messages of the peer delay exchange and
the replica's measurement leave of a port, and what leaves on its wire.
-/
namespace Sys2Proof.Machine

variable {s : State} {p f : Nat} {seq : BitVec 16}

/-! ### The exchange (R103) -/

/-- A request is answered in two steps. -/
theorem takePdelay_req : .control s.now p (.pdelayResp seq (localStamp s f - (port s p).rxLat)) ∈
      (takePdelay p (.req seq) f s).out ∧
    .control s.now p (.pdelayFollowUp seq (egressStamp s p)) ∈ (takePdelay p (.req seq) f s).out := by
  simp [takePdelay]

/-- A response to the request that is out is held for its follow-up. -/
theorem takePdelay_resp {t2 : Int} (hseq : seq = (port s p).pdelaySeq) (ht1 : (port s p).pdelayT1.isSome = true) :
    takePdelay p (.resp seq t2) f s = setPort s p { port s p with
      pdelayResp := some (t2, localStamp s f - (port s p).rxLat) } := by
  simp [takePdelay, hseq, ht1]

/-- The follow-up ends the exchange with the mean link delay. -/
theorem takePdelay_followUp {t1 t2 t3 t4 : Int} (hseq : seq = (port s p).pdelaySeq)
    (ht1 : (port s p).pdelayT1 = some t1) (hresp : (port s p).pdelayResp = some (t2, t4)) :
    takePdelay p (.followUp seq t3) f s = setPort s p { port s p with
      linkDelay := meanLinkDelay (port s p).pdelayLast t1 t2 t3 t4, pdelayLast := some (t3, t4)
      pdelayT1 := none, pdelayResp := none } := by
  simp [takePdelay, hseq, ht1, hresp]

/-- Settles O21: each message of the exchange by its effect on the port and the wire, and a step of the latencies. -/
theorem linkDelayAndLatencyComplete : Obligations.LinkDelayAndLatencyComplete := by
  unfold Obligations.LinkDelayAndLatencyComplete
  intro s p hck
  simp only [exec, execPdelayReqSend, execPdelayReceived, execSignalingReceived, execSerdesLatencyRemeasure]
  refine ⟨fun hg => ?_, fun a b hup hlow hdue =>
    ⟨_, act_on (by simp [hck, hup, hlow, hdue]), by simp [takeLatency]⟩⟩
  have serves : (ckRuns s && gptpPort s p.val) = true := by simp [hck, hg]
  refine ⟨fun hdue => ⟨_, act_on (by simp [serves, hdue]), mem_out_publish (by simp), by simp, by simp, by simp⟩,
    fun seq f => ⟨_, act_on serves, ?_⟩, fun seq t2 f hseq ht1 => ⟨_, act_on serves, ?_⟩,
    fun seq t1 t2 t3 t4 f hseq ht1 hresp => ⟨_, act_on serves, ?_⟩, ⟨_, act_on serves, ?_⟩⟩
  · obtain ⟨response, followUp⟩ := takePdelay_req (s := s) (p := p.val) (f := f.val) (seq := seq)
    exact ⟨mem_out_publish response, mem_out_publish followUp⟩
  · simp [takePdelay_resp hseq ht1]
  · simp [takePdelay_followUp hseq ht1 hresp]
  · exact (countedBy_bump rfl).publish
      (frameCounter_other (by decide) (by decide) (by omega) (by decide))

end Sys2Proof.Machine
end

section
/-!
SUPPORT. The time pins (05 R110, R112, R116; 11 R254): the edges of PPS_OUT, and what an edge on a time input leaves of
its input and gives Avocet.
-/
namespace Sys2Proof.Machine

variable {s t : State} {i : Fin 3} {up : Bool} {ph : Nat} {x : Capture}

/-! ### The time inputs (R112) -/

@[simp] theorem wakeS3_subs : input (wakeS3 s) = input s ∧ readCtr (wakeS3 s) = readCtr s ∧
    (wakeS3 s).avocet = s.avocet ∧ (wakeS3 s).now = s.now := by
  simp only [wakeS3]
  split <;> exact ⟨rfl, rfl, rfl, rfl⟩

/-- An edge reaches Avocet 4 ck later, if its pin is an EVT_IN (11 R254). -/
theorem avocet_edgeTrigger : (edgeTrigger i up s).avocet.edges =
    s.avocet.edges ++ (if i = 0 then [] else [(s.now + 4, i.val - 1, up)]) := by
  by_cases hi : i = 0 <;> simp [edgeTrigger, hi, Crossing.ck]

theorem edgeTrigger_subs : input (edgeTrigger i up s) = input s ∧ readCtr (edgeTrigger i up s) = readCtr s := by
  simp only [edgeTrigger]
  split <;> exact ⟨rfl, rfl⟩

/-- With room a capture joins its queue; without, it is dropped and counted. -/
theorem queueCapture_room (h : (input s i.val).captures.length < 16) : queueCapture i x s =
    setInput s i.val { input s i.val with captures := (input s i.val).captures ++ [x] } := by
  simp only [queueCapture]
  rw [if_neg (by omega)]

theorem queueCapture_full (h : 16 ≤ (input s i.val).captures.length) :
    queueCapture i x s = if i = 0 then bumpDev 9 s else bump 0x21 i.val 1 s := by
  simp only [queueCapture]
  rw [if_pos h]

theorem captures_iff : captures i up = true ↔ i ≠ 0 ∨ up = true := by simp [captures]

theorem queueCapture_leaves : (input (queueCapture i x s) i.val).lastEdge = (input s i.val).lastEdge ∧
    (queueCapture i x s).avocet = s.avocet ∧ (queueCapture i x s).now = s.now := by
  simp only [queueCapture]
  (repeat' split) <;> simp

theorem input_takeEdge : input (takeEdge i up ph s) =
    input (if captures i up then queueCapture i (captureOf s up ph) s else s) := by
  simp [takeEdge, edgeTrigger_subs]

theorem readCtr_takeEdge : readCtr (takeEdge i up ph s) =
    readCtr (if captures i up then queueCapture i (captureOf s up ph) s else s) := by
  simp [takeEdge, edgeTrigger_subs]

/-- An edge that is taken leaves the instant of the last one, and goes to Avocet. -/
theorem takeEdge_leaves : (input (takeEdge i up ph s) i.val).lastEdge = (input s i.val).lastEdge ∧
    (takeEdge i up ph s).avocet.edges =
      s.avocet.edges ++ (if i = 0 then [] else [(s.now + 4, i.val - 1, up)]) := by
  rw [input_takeEdge, takeEdge, avocet_edgeTrigger]
  split <;> simp [queueCapture_leaves]

theorem captures_takeEdge_room (hc : captures i up = true) (h : (input s i.val).captures.length < 16) :
    (input (takeEdge i up ph s) i.val).captures = (input s i.val).captures ++ [captureOf s up ph] := by
  simp [input_takeEdge, hc, queueCapture_room h]

theorem takeEdge_full (hc : captures i up = true) (h : 16 ≤ (input s i.val).captures.length) :
    (input (takeEdge i up ph s) i.val).captures = (input s i.val).captures ∧
    if i = 0 then CountedBy 1 0x20 0 9 s (takeEdge i up ph s) else CountedBy 1 0x21 i.val 1 s (takeEdge i up ph s) := by
  simp only [input_takeEdge, CountedBy, readCtr_takeEdge, hc, ↓reduceIte, queueCapture_full h]
  split
  · exact ⟨rfl, countedBy_bumpDev rfl⟩
  · exact ⟨rfl, countedBy_bump rfl⟩

theorem captures_takeEdge_ignored (hc : captures i up = false) :
    (input (takeEdge i up ph s) i.val).captures = (input s i.val).captures := by
  simp [input_takeEdge, hc]

/-- Whether an edge is too close to the one before (R112). -/
theorem tooClose_eq_false {n : Nat} (h : ∀ m, (input s i.val).lastEdge = some m → m + 10000 ≤ n) :
    tooClose s i n = false := by
  cases hl : (input s i.val).lastEdge with
  | none => simp [tooClose, hl]
  | some m => simpa [tooClose, hl] using h m hl

theorem tooClose_eq_true {m n : Nat} (hl : (input s i.val).lastEdge = some m) (h : n < m + 10000) :
    tooClose s i n = true := by
  simpa [tooClose, hl] using h

/-- An input with the instant of its newest edge. -/
def edgeSeen (i : Fin 3) (n : Nat) (s : State) : State := setInput s i.val { input s i.val with lastEdge := some n }

/-- The instant apart, an edge seen leaves the captures, the counters and Avocet. -/
@[simp] theorem edgeSeen_leaves {n : Nat} : (input (edgeSeen i n s) i.val).lastEdge = some n ∧
    (input (edgeSeen i n s) i.val).captures = (input s i.val).captures ∧ readCtr (edgeSeen i n s) = readCtr s ∧
    (edgeSeen i n s).avocet = s.avocet ∧ (edgeSeen i n s).now = s.now :=
  ⟨by simp [edgeSeen], by simp [edgeSeen], rfl, rfl, rfl⟩

/-- A capture's stamps are of the counters and the level, not of the inputs. -/
@[simp] theorem captureOf_edgeSeen {n : Nat} : captureOf (edgeSeen i n s) up ph = captureOf s up ph := rfl

@[simp] theorem input_whenB_bump {b : Bool} {c j n : Nat} : input (whenB b (bump c j n) s) = input s := by
  unfold whenB
  split <;> rfl

theorem execTimeInputEdge_eq {ps : Fin 1250} : execTimeInputEdge i up ps s = act (running s) (fun s =>
    if tooClose s i (s.now * 1250 + ps.val)
    then whenB (captures i up) (bump 0x21 i.val 0) (edgeSeen i (s.now * 1250 + ps.val) s)
    else takeEdge i up (ps.val * 8 / 1250) (edgeSeen i (s.now * 1250 + ps.val) s)) s := rfl

theorem CountedBy.of_readCtr {k c j n : Nat} {u : State} (h : CountedBy k c j n u t) (hu : readCtr u = readCtr s) :
    CountedBy k c j n s t := by
  simpa only [CountedBy, hu] using h

theorem frameCounter_input {n : Nat} (hn : n < 256) : frameCounter (ctrId 0x21 i.val n) = false :=
  frameCounter_other (by decide) (by decide) (by omega) hn

/-- Settles O22: the rise and the fall of PPS_OUT, and an edge on a time input, taken or too close. -/
theorem timePinsComplete : Obligations.TimePinsComplete := by
  unfold Obligations.TimePinsComplete
  intro s
  simp only [exec, execPpsOutPulse, execPpsOutPulseEnd, execTimeInputEdge_eq]
  refine ⟨fun hck hpps hus hsec => ?_, fun hrun hhigh hend => ?_, fun i up ps hrun hclear => ?_,
    fun i up ps n hrun hlast hclose => ?_⟩
  · have guard : (ckRuns s && ppsRuns s && s.tables.time.ppsUs != 0 && secondHere s) = true := by
      simp [hck, hpps, hus, hsec]
    refine ⟨fun hfar => ⟨_, _, act_on guard, rfl, ?_⟩, fun n hlast hnear => ⟨_, act_on guard, ?_⟩⟩
    · cases hl : s.dunlin.ppsLast with
      | none => exact ⟨mem_out_publish (by simp), by simp⟩
      | some n =>
        have far : ¬ s.now < n + 400000000 := by have := hfar n hl; omega
        exact ⟨mem_out_publish (by simp [far]), by simp [far]⟩
    · simp only [hlast, hnear, decide_true, ↓reduceIte]
      exact ⟨(countedBy_bumpDev rfl).publish (by decide), by simp⟩
  · refine ⟨_, act_on (by simp [hrun, hhigh, hend]), fun hl => mem_out_publish (by simp [hl]),
      fun hl => mem_out_publish (by simp [hl]), by simp⟩
  · refine ⟨_, act_on hrun, ?_⟩
    simp only [tooClose_eq_false hclear, Bool.false_eq_true, ↓reduceIte]
    obtain ⟨last, edges⟩ := takeEdge_leaves (s := edgeSeen i (s.now * 1250 + ps.val) s) (i := i) (up := up)
      (ph := ps.val * 8 / 1250)
    refine ⟨by simp [last], by simp [edges], fun hc hroom => ?_, fun hc hfull => ?_, fun hi hup => ?_⟩
    · have joined := captures_takeEdge_room (s := edgeSeen i (s.now * 1250 + ps.val) s) (ph := ps.val * 8 / 1250)
        (captures_iff.2 hc) (by simpa using hroom)
      simp [joined]
    · obtain ⟨kept, counted⟩ := takeEdge_full (s := edgeSeen i (s.now * 1250 + ps.val) s) (ph := ps.val * 8 / 1250)
        (captures_iff.2 hc) (by simpa using hfull)
      refine ⟨by simp [kept], ?_⟩
      split
      next hi => exact ((if_pos hi ▸ counted).of_readCtr (by simp)).publish (by decide)
      next hi => exact ((if_neg hi ▸ counted).of_readCtr (by simp)).publish (frameCounter_input (by decide))
    · simp [captures_takeEdge_ignored (show captures i up = false by simp [captures, hi, hup])]
  · refine ⟨_, act_on hrun, ?_⟩
    simp only [tooClose_eq_true hlast hclose, ↓reduceIte]
    refine ⟨by simp, by simp, fun hc => ?_⟩
    simp only [captures_iff.2 hc, whenB_true]
    exact (countedBy_bump (by simp)).publish (frameCounter_input (by decide))

end Sys2Proof.Machine
end

section
/-!
SUPPORT. TIME and ECHO blocks (05 R113 to R115, R117; 08 R207): the block that a link owes, where it goes, and what an
ECHO and its absence leave of the path's measurement.
-/
namespace Sys2Proof.Machine

variable {s : State} {k : Nat} {b : Block} {f : Fin 8}

theorem frameCounter_link {k : Link} {n : Nat} (hn : n < 256) : frameCounter (ctrId 0x27 k.val n) = false :=
  frameCounter_other (by decide) (by decide) (by omega) hn

theorem countedBy_bumpLink {n : Nat} : CountedBy 1 0x27 k n s (bumpLink k n s) := countedBy_bump rfl

/-- The timing lane sends the block that the link owes ahead of all else, and notes it (08 R207). -/
theorem activeLane_owed (ho : (link s k).timeOwed = true) :
    activeLane k (timingLane s k) s = ((syncControl, timeBlock s k), noteTime k s) := by
  simp [activeLane, ho]

/-- A round trip is accepted while there are few samples, or near their median (R115). -/
theorem takeRtt_accepted {rtt : Int} (h : (link s k).rtts.length < 8 ∨
    (rtt - median (link s k).rtts).natAbs ≤ 2 * unitsPerNs) :
    (link (takeRtt k rtt s) k).missed = 0 ∧ (link (takeRtt k rtt s) k).accepted = (link s k).accepted + 1 ∧
    (link (takeRtt k rtt s) k).pathValid = decide (4 ≤ (link s k).accepted + 1) := by
  have near : ¬(8 ≤ (link s k).rtts.length ∧ 2 * unitsPerNs < (rtt - median (link s k).rtts).natAbs) := by omega
  simp only [takeRtt]
  rw [if_neg near]
  simp

/-- Settles O23: the TIME block that falls due and the one that leaves, an ECHO with its tag and one without, and the
end of a path's validity. -/
theorem timeBlocksComplete : Obligations.TimeBlocksComplete := by
  unfold Obligations.TimeBlocksComplete
  intro s k hrun ha
  simp only [exec, execTimeBlockSend, execEchoReceived, execEchoMissing]
  refine ⟨fun hbare hrec hawake hwake hdue => ⟨_, act_on (by simp [*]), by simp [oweTime]⟩, fun n ho hn => ?_,
    fun b f htype hcrc => ⟨fun x hx hturn hnear => ?_, fun hnone => ?_⟩, fun hvalid hmissed => ?_⟩
  · subst hn
    exact ⟨_, activeLane_owed ho, by simp [noteTime]⟩
  · refine ⟨_, act_on (by simp [*]), ?_⟩
    simp only [hx, hturn, ↓reduceIte, publish_subs]
    exact takeRtt_accepted hnear
  · refine ⟨_, act_on (by simp [*]), ?_⟩
    cases hx : (recentTags s k.val).find? (fun x => x.1 == echoTag b) with
    | none => exact ⟨countedBy_bumpLink.publish (frameCounter_link (by decide)), by simp⟩
    | some x =>
      have hturn : echoTurn b = 2 ^ 24 - 1 := hnone.resolve_left (by simp [hx])
      simp only [hturn, ↓reduceIte]
      exact ⟨countedBy_bumpLink.publish (frameCounter_link (by decide)), by simp⟩
  · have runs : ckRuns s = true := (Bool.and_eq_true_iff.1 hrun).1
    refine ⟨_, act_on ?_, by simp, ?_⟩
    · simp [runs, ha, hvalid]
      omega
    · exact (countedBy_bumpLink.of_sameBut (l := [.links]) (by simp) (by decide)
        (frameCounter_link (by decide))).publish (frameCounter_link (by decide))

end Sys2Proof.Machine
end

section
/-!
SUPPORT. Heron's gate entries, events and vote (06 R119, R125, R127 to R129): what each leaves of the copies, of SAFE
and of the EVT_OUT pins.
-/
namespace Sys2Proof.Machine

variable {s t : State} {l : List Part} {r : EventsRec} {a b c : HeronCopy} {n : Nat}

/-- Heron stays where its clock and its copies do. -/
theorem heron_of_sameBut (h : SameBut l s t) (hl : .heronClock ∉ l ∧ .heronCopies ∉ l) : t.heron = s.heron := by
  have clock : clockOf s.heron = clockOf t.heron := h .heronClock hl.1
  have copies : copiesOf s.heron = copiesOf t.heron := h .heronCopies hl.2
  simp only [clockOf, copiesOf, Prod.mk.injEq] at clock copies
  obtain ⟨started, cycle, acc, boundary, len⟩ := clock
  obtain ⟨copyA, copyB, copyC, safe⟩ := copies
  cases hs : s.heron
  cases ht : t.heron
  simp_all

/-! ### Events (R125; 05 R111) -/

theorem heron_fireRecords {rs : List EventsRec} : (fireRecords rs s).heron = s.heron :=
  heron_of_sameBut (l := [.status, .regions, .dunlin, .meters, .quiet, .chans, .counters]) (by simp) (by simp)

/-- Of what a record does only its own actions act on the EVT_OUT pins. -/
theorem dunlin_fireRecord : (fireRecord r s).dunlin.evtOut0 = outAction r.out0 s.dunlin.evtOut0 ∧
    (fireRecord r s).dunlin.evtOut1 = outAction r.out1 s.dunlin.evtOut1 := by
  have before : ∀ f, (fire f (swapEvent r.id r.offset s)).dunlin = s.dunlin := fun f => dunlin_of_allBut (by simp)
  have after : ∀ u, (notify 1 r.id (leBytes 1 r.id) (gateEvent r.id (quietEvent r.id u))).dunlin = u.dunlin := fun u =>
    dunlin_of_allBut (by simp)
  simp only [fireRecord, after, evtActions]
  split <;> simp [before]

theorem dunlin_fireRecords {rs : List EventsRec} :
    (fireRecords rs s).dunlin.evtOut0 = rs.foldl (fun v r => outAction r.out0 v) s.dunlin.evtOut0 ∧
    (fireRecords rs s).dunlin.evtOut1 = rs.foldl (fun v r => outAction r.out1 v) s.dunlin.evtOut1 := by
  induction rs generalizing s with
  | nil => exact ⟨rfl, rfl⟩
  | cons r rs ih =>
    obtain ⟨out0, out1⟩ := ih (s := fireRecord r s)
    obtain ⟨own0, own1⟩ := dunlin_fireRecord (s := s) (r := r)
    exact ⟨by rw [List.foldl_cons, ← own0]; exact out0, by rw [List.foldl_cons, ← own1]; exact out1⟩

/-! ### SAFE (R129) -/

theorem heron_enterSafe {m d : Nat} : (enterSafe m d s).heron = { s.heron with safe := true } := by
  simp only [enterSafe]
  split
  next hsafe => cases hs : s.heron; simp_all
  next =>
    exact heron_of_sameBut (l := [.ports, .counters, .faults])
      (s := { s with heron := { s.heron with safe := true } }) (by simp) (by simp)

/-- The events of a ck: each copy notes what it fired, and two copies that differ enter SAFE. -/
theorem heron_fireDue : (fireDue true n s).heron = { s.heron with
    copyA := noteFired n s.heron.copyA, copyB := noteFired n s.heron.copyB, copyC := noteFired n s.heron.copyC
    safe := s.heron.safe || firedDiffer s n } := by
  simp only [fireDue, heron_fireRecords, setCopies, whenB]
  cases firedDiffer s n
  · simp
  · simp [heron_enterSafe]

theorem dunlin_fireDue {rs : List EventsRec} (hrs : rs = firingRecords s n) :
    (fireDue true n s).dunlin.evtOut0 = rs.foldl (fun v r => outAction r.out0 v) s.dunlin.evtOut0 ∧
    (fireDue true n s).dunlin.evtOut1 = rs.foldl (fun v r => outAction r.out1 v) s.dunlin.evtOut1 := by
  subst hrs
  have disputed : ∀ b, (setCopies (noteFired n)
      (whenB b (fun u => whenB true (bumpDev 3) (enterSafe (liveMask u) 4 u)) s)).dunlin = s.dunlin := fun b =>
    dunlin_of_allBut (by unfold whenB; split <;> simp)
  simp only [fireDue, dunlin_fireRecords, ↓reduceIte, disputed, and_self]

/-! ### The vote (R127 to R129) -/

/-- The copies are all live where three take part in the vote. -/
theorem copies_of_three_live (h : liveCopies s = [a, b, c]) : (s.heron.copyA = a ∧ s.heron.copyA.live = true) ∧
    (s.heron.copyB = b ∧ s.heron.copyB.live = true) ∧ s.heron.copyC = c ∧ s.heron.copyC.live = true := by
  simp only [liveCopies, copies, List.filter_cons] at h
  (repeat' split at h) <;> simp_all

/-- Fencing a copy takes it alone out of the comparison, and only on a dispute. -/
theorem live_fenceCopy {m i : Nat} {d : Option Nat} :
    (fenceCopy m i d s).heron.copyA.live = (s.heron.copyA.live && !(i == 0 && d.isSome)) ∧
    (fenceCopy m i d s).heron.copyB.live = (s.heron.copyB.live && !(i == 1 && d.isSome)) ∧
    (fenceCopy m i d s).heron.copyC.live = (s.heron.copyC.live && !(2 ≤ i && d.isSome)) := by
  cases d with
  | none => simp [fenceCopy]
  | some d =>
    match i with
    | 0 => simp [fenceCopy, fenced, bumpDev, bump, bumpBy]
    | 1 => simp [fenceCopy, fenced, bumpDev, bump, bumpBy]
    | i + 2 => simp [fenceCopy, fenced, bumpDev, bump, bumpBy]

theorem live_vote_of_three {m : List (Nat × Nat × Nat)} (h : liveCopies s = [a, b, c])
    (hm : m = majShown (shown s a) (shown s b) (shown s c)) :
    (vote s).heron.copyA.live = (firstDiffer (shown s a) m).isNone ∧
    (vote s).heron.copyB.live = (firstDiffer (shown s b) m).isNone ∧
    (vote s).heron.copyC.live = (firstDiffer (shown s c) m).isNone := by
  subst hm
  obtain ⟨⟨-, liveA⟩, ⟨-, liveB⟩, -, liveC⟩ := copies_of_three_live h
  simp only [vote, h]
  (repeat' split) <;> simp [heron_enterSafe, live_fenceCopy, liveA, liveB, liveC]

theorem safe_vote_of_two (h : liveCopies s = [a, b]) :
    (vote s).heron.safe = (s.heron.safe || (firstDiffer (shown s a) (shown s b)).isSome) := by
  simp only [vote, h]
  split <;> simp_all [heron_enterSafe]

/-- Settles O24: gate entries and events act in every copy, and the vote judges what the copies show once the ck's work
is done. -/
theorem heronComplete : Obligations.HeronComplete := by
  unfold Obligations.HeronComplete
  intro s hck hst
  simp only [exec, execGateEntry, execHeronEvent, execHeronVote]
  refine ⟨fun p hdue => ⟨_, act_on (by simp [hck, hst, hdue]), by simp [takeGates, setCopies]⟩,
    fun hdue => ⟨_, act_on (by simp [hck, hst, hdue]), by simp [heron_fireDue], fun rs hrs => ?_⟩,
    fun us v hv => ⟨_, act_on (by simp [hck, hst]), ?_⟩⟩
  · simpa using dunlin_fireDue hrs
  · have voted : voteUnder us s = vote v := by rw [hv, voteUnder]
    simp only [publish_fields, voted]
    exact ⟨fun a b c m h hm => live_vote_of_three h hm, fun a b h => safe_vote_of_two h⟩

end Sys2Proof.Machine
end

section
/-!
SUPPORT. The wheel (06 R134, R137, R144) where the one due stream holds a single frame and that frame is late. On a
stream table whose keys rise the frame is discarded and no release is made; on one whose keys do not, an entry that no
lookup reaches stays due, and releases are counted for it.
-/
namespace Sys2Proof.Machine

variable {s : State} {q : Nat × Nat} {f : Frame} {α : Type} {m : SMap α} {j : Nat} {v : α}

/-! ### The streams of a table whose keys rise -/

/-- Where the keys rise, each entry is the one that its key reads. -/
theorem mFind_of_mem (h : mSorted m = true) (hm : (j, v) ∈ m) : mFind m j = some v := by
  induction m with
  | nil => exact absurd hm List.not_mem_nil
  | cons x r ih =>
    obtain ⟨i, a⟩ := x
    obtain ⟨above, sorted⟩ := mSorted_cons.1 h
    rcases List.mem_cons.1 hm with e | hr
    · cases e; simp [mFind]
    · have hij : i < j := above _ hr
      simpa [mFind, show j ≠ i by omega] using ih sorted hr

theorem mem_of_mFind (h : mFind m j = some v) : (j, v) ∈ m := by
  induction m with
  | nil => cases h
  | cons x r ih =>
    obtain ⟨i, a⟩ := x
    simp only [mFind] at h
    split at h
    · subst_vars; cases h; exact List.mem_cons_self ..
    · exact List.mem_cons_of_mem _ (ih h)

/-- Where the keys rise, the due streams are those whose entries are placed in a slot that has been reached. -/
theorem mem_dueStreams (h : mSorted s.streams = true) : q ∈ dueStreams s ↔
    ∃ x, mFind s.streams q.2 = some x ∧ x.place = .fine q.1 ∧ 8 * q.1 ≤ hck s := by
  simp only [dueStreams, List.mem_filterMap]
  constructor
  · rintro ⟨⟨i, x⟩, hx, hq⟩
    cases hp : x.place <;> simp only [hp] at hq
    case fine k =>
      split at hq
      · cases hq; exact ⟨x, mFind_of_mem h hx, hp, ‹_›⟩
      · cases hq
    all_goals cases hq
  · rintro ⟨x, hx, hp, hk⟩
    exact ⟨(q.2, x), mem_of_mFind hx, by simp [hp, hk]⟩

/-- A stream without a frame comes off the wheel. -/
theorem placeStream_empty {i : Nat} (h : (stream s i).queue = []) :
    placeStream i s = setStream s i { stream s i with place := .idle } := by
  simp only [placeStream, h]
  split
  next hempty => cases hempty
  next => rfl

/-- The stream table after the only frame of a queue has been discarded. -/
theorem streams_expireStream {i : Nat} (hq : (stream s i).queue = [f]) : (expireStream i f s).streams =
    mSet (mSet s.streams i { stream s i with queue := [] }) i { stream s i with queue := [], place := .idle } := by
  have counted : ∀ r u, (releaseFrame f (deadlineCounts i r u)).streams = u.streams := fun r u =>
    ((show SameBut [.rxCells, .counters] u _ by simp) .streams (by simp)).symm
  have released : ∀ u, (releaseFrame f u).streams = u.streams := fun u =>
    ((show SameBut [.rxCells] u _ by simp) .streams (by simp)).symm
  simp only [expireStream, hq, List.drop_succ_cons, List.drop_zero]
  rw [placeStream_empty (by simp)]
  split <;> simp only [counted, released] <;> simp [setStream, stream]

/-- Nothing is due after the one due stream has lost its only frame. -/
theorem dueStreams_expireStream (h : mSorted s.streams = true) (hdue : dueStreams s = [q])
    (hq : (stream s q.2).queue = [f]) : dueStreams (expireStream q.2 f s) = [] := by
  have sorted : mSorted (expireStream q.2 f s).streams = true := by
    rw [streams_expireStream hq]
    exact mSorted_mSet (mSorted_mSet h)
  have instant : hck (expireStream q.2 f s) = hck s := by
    have kept : SameBut [.streams, .rxCells, .counters] s (expireStream q.2 f s) := by simp
    simp only [hck, heron_of_sameBut kept (by simp)]
  refine List.eq_nil_iff_forall_not_mem.2 fun x hx => ?_
  obtain ⟨y, hy, hplace, hslot⟩ := (mem_dueStreams sorted).1 hx
  rw [streams_expireStream hq, mFind_mSet] at hy
  split at hy
  · cases hy; cases hplace
  next hne =>
    rw [mFind_mSet, if_neg hne] at hy
    have stays : x ∈ dueStreams s := (mem_dueStreams h).2 ⟨y, hy, hplace, instant ▸ hslot⟩
    rw [hdue, List.mem_singleton] at stays
    exact hne (congrArg Prod.snd stays)

theorem firstDue_of_none_due (h : dueStreams s = []) : firstDue s = none := by simp [firstDue, h]

/-- With no stream due the wheel does nothing. -/
theorem releaseNext_idle (h : dueStreams s = []) : releaseNext s = s := by
  simp [releaseNext, h, firstDue_of_none_due h, each]

/-- The one due stream loses its only frame, which is late, before a release could be made (R144). -/
theorem releaseNext_late (h : mSorted s.streams = true) (hdue : dueStreams s = [q]) (hq : (stream s q.2).queue = [f])
    (hlate : lateHead s f = true) : releaseNext s = expireStream q.2 f s := by
  have dropped : each (dueStreams s) (fun x => dropLate x.2) s = expireStream q.2 f s := by
    simp [hdue, each, dropLate, hq, hlate]
  simp [releaseNext, dropped, firstDue_of_none_due (dueStreams_expireStream h hdue hq)]

/-! ### WHEEL_SLOT -/

theorem exec_wheelSlot (hck : ckRuns s = true) (hst : s.heron.started = true) :
    exec .wheelSlot s = .next (publish s (each (List.range 8) (fun _ => releaseNext) s)) := by
  simp only [exec, execWheelSlot]
  exact act_on (by simp [hck, hst])

/-- What O25's third clause says holds where the keys of the stream table rise. -/
theorem wheelSlot_discards_late (hck : ckRuns s = true) (hst : s.heron.started = true) (h : mSorted s.streams = true)
    (hdue : dueStreams s = [q]) (hq : (stream s q.2).queue = [f]) (hlate : lateHead s f = true) :
    ∃ t, exec .wheelSlot s = .next t ∧ (stream t q.2).queue = [] ∧ (stream t q.2).seq = (stream s q.2).seq ∧
      t.released = s.released := by
  have slots : each (List.range 8) (fun _ => releaseNext) s = expireStream q.2 f s := by
    have eight : List.range 8 = [0, 1, 2, 3, 4, 5, 6, 7] := by decide
    simp only [each, eight, List.foldl_cons, List.foldl_nil, releaseNext_late h hdue hq hlate,
      releaseNext_idle (dueStreams_expireStream h hdue hq)]
  have read : stream (expireStream q.2 f s) q.2 = { stream s q.2 with queue := [], place := .idle } := by
    simp [stream, streams_expireStream hq]
  have kept : SameBut [.streams, .rxCells, .counters] s (expireStream q.2 f s) := by simp
  have released : s.released = (expireStream q.2 f s).released := kept .released (by simp)
  exact ⟨_, exec_wheelSlot hck hst, by simp [slots, read], by simp [slots, read], by simp [slots, ← released]⟩

/-! ### A table whose keys do not rise -/

/-- Heron runs one ck into its time; stream 0 stands behind stream 1 in the table, due, with a frame whose deadline is
past. -/
def outOfOrder : State := { State.reset with
  supply := { Supply.init with inReset := false }
  heron := { Heron.init with started := true, acc := ckUnits }
  streams := [(1, StreamSt.init), (0, { StreamSt.init with place := .fine 0, queue := [plainFrame 0 [] 0 0] })] }

/-- The discard writes stream 0 anew ahead of the old entry, which keeps its slot: each of the ck's eight releases is
counted. -/
theorem released_outOfOrder : (each (List.range 8) (fun _ => releaseNext) outOfOrder).released = (0, 8) := by decide

/-- Refutes O25 by its third clause: a late head is discarded, but on the table of `outOfOrder`, whose keys do not rise,
releases are counted all the same. -/
theorem not_wheelComplete : ¬ Obligations.WheelComplete := by
  unfold Obligations.WheelComplete
  intro h
  obtain ⟨-, -, late, -⟩ := h outOfOrder (by decide)
  obtain ⟨t, ht, -, -, kept⟩ := late (0, 0) (plainFrame 0 [] 0 0) (by decide) (by decide) (by decide) (by decide)
  rw [exec_wheelSlot (by decide) (by decide)] at ht
  cases ht
  simp only [publish_fields, released_outOfOrder] at kept
  exact absurd kept (by decide)

end Sys2Proof.Machine
end

section
/-!
SUPPORT. Transmission (06 R120 to R124; 07 R151, R153, R159): what the admission test and the start of a frame leave of
a port's wire, and what the end of a sending leaves, puts out and counts.
-/
namespace Sys2Proof.Machine

variable {s t : State} {p q c : Nat} {f : Frame} {x : Tx} {l : List Part}

/-- What each application of an operation leaves, a list of them leaves. -/
theorem each_keeps {α β : Type} {g : State → β} {op : α → State → State} (h : ∀ a u, g (op a u) = g u) {as : List α} :
    g (each as op s) = g s := by
  unfold each
  induction as generalizing s with
  | nil => rfl
  | cons a as ih => exact ih.trans (h a s)

/-! ### The admission test (06 R124) -/

/-- What a port sends, and what waits pre-empted on it. -/
def wire (s : State) (p : Nat) : Option Tx × Option (Nat × Frame) := ((port s p).tx, (port s p).preempted)

theorem wire_setPort {y : PortSt} (h : (y.tx, y.preempted) = wire s p) : wire (setPort s p y) q = wire s q := by
  by_cases hq : q = p
  · subst hq; simpa [wire] using h
  · simp [wire, hq]

/-- A class whose frame must wait for its next opening leaves the wire. -/
theorem wire_deferClass : wire (deferClass p c s) q = wire s q := by
  have counted : ∀ b u, wire (whenB b (bumpClass p c 0) u) q = wire u q := fun b u => by
    unfold whenB
    split <;> rfl
  simp only [deferClass]
  (repeat' split)
  · rw [counted]; exact wire_setPort rfl
  · rfl
  · rfl

theorem resumes_of_wire (h : wire t p = wire s p) : resumes t p c = resumes s p c := by
  have preempted : (port t p).preempted = (port s p).preempted := congrArg Prod.snd h
  simp only [resumes, preempted]

theorem portsRec_of_sameBut (h : SameBut l s t) (hl : .boot ∉ l ∧ .tables ∉ l) : portsRec t = portsRec s := by
  have boot : s.boot = t.boot := h .boot hl.1
  have tables : s.tables = t.tables := h .tables hl.2
  have bare : inBare t = inBare s := by simp only [inBare, boot]
  funext p
  simp only [portsRec, bare, tables]

theorem frameErrors_of_sameBut (h : SameBut l s t) (hl : .upsets ∉ l) : frameErrors t = frameErrors s := by
  have upsets : s.upsets = t.upsets := h .upsets hl
  funext f
  simp only [frameErrors, upsetWords, upsets]

/-! ### A frame starts (06 R120; 15 R329) -/

/-- The sending of a frame of a class that begins in this ck. -/
def sendingOf (s : State) (p c : Nat) (f : Frame) : Tx :=
  { cls := c, express := isExpress s p c && !resumes s p c, frame := { f with started := true }, start := s.now + 25
    ends := .frame, finish := 0 }

theorem sendingOf_congr (h : SameBut l s t) (hl : .boot ∉ l ∧ .tables ∉ l ∧ .now ∉ l) (hw : wire t p = wire s p) :
    sendingOf t p c f = sendingOf s p c f := by
  obtain ⟨hboot, htables, hnow⟩ := hl
  have now : s.now = t.now := h .now hnow
  simp only [sendingOf, isExpress, portsRec_of_sameBut h ⟨hboot, htables⟩, resumes_of_wire hw, now]

/-- A frame that starts leaves its class queue, but where it waited pre-empted. -/
def unqueued (p c : Nat) (s : State) : State :=
  if resumes s p c then s else setClassQueue s p c ((classQueue s p c).drop 1)

theorem startFrame_eq : startFrame p c f s = transmitRead f (setPort (unqueued p c s) p { port s p with
    tx := some (sendingOf s p c f), preempted := if resumes s p c then none else (port s p).preempted }) := by
  cases again : resumes s p c
  all_goals
    simp only [resumes] at again
    simp only [startFrame, unqueued, sendingOf, resumes, again]
    rfl

/-- A frame whose words hold no error is read as it stands. -/
theorem transmitRead_clean (h : frameErrors s f = []) : transmitRead f s = s := by simp [transmitRead, h, each]

theorem tx_startFrame (h : frameErrors s f = []) : (port (startFrame p c f s) p).tx = some (sendingOf s p c f) := by
  have kept : ∀ y, SameBut [.ports, .queues] s (setPort (unqueued p c s) p y) := fun y => by simp [unqueued]
  have clean : ∀ y, frameErrors (setPort (unqueued p c s) p y) f = [] := fun y =>
    (congrFun (frameErrors_of_sameBut (kept y) (by simp)) f).trans h
  rw [startFrame_eq, transmitRead_clean (clean _)]
  simp

/-! ### Selection (06 R120, R121; 07 R153) -/

/-- The classes above the selected one fail the test before its frame starts. -/
theorem selectFrame_picked (hc : pickClass s p classesDown = some c) (hf : nextFrame s p c = some f) :
    selectFrame p s = startFrame p c f (each (classesDown.filter (fun k => decide (c < k))) (deferClass p) s) := by
  simp only [selectFrame, hc, hf]

theorem selectFrame_none (hc : pickClass s p classesDown = none) :
    selectFrame p s = each classesDown (deferClass p) s := by
  simp only [selectFrame, hc]

theorem wire_each_deferClass {cs : List Nat} : wire (each cs (deferClass p) s) q = wire s q :=
  each_keeps (g := (wire · q)) fun _ _ => wire_deferClass

theorem tx_selectFrame_picked (hc : pickClass s p classesDown = some c) (hf : nextFrame s p c = some f)
    (herr : frameErrors s f = []) : (port (selectFrame p s) p).tx = some (sendingOf s p c f) := by
  have kept : ∀ cs, SameBut [.ports, .counters] s (each cs (deferClass p) s) := fun cs => by simp
  rw [selectFrame_picked hc hf,
    tx_startFrame ((congrFun (frameErrors_of_sameBut (kept _) (by simp)) f).trans herr),
    sendingOf_congr (kept _) (by simp) wire_each_deferClass]

theorem tx_selectFrame_none (hc : pickClass s p classesDown = none) :
    (port (selectFrame p s) p).tx = (port s p).tx := by
  rw [selectFrame_none hc]
  exact congrArg Prod.fst wire_each_deferClass

/-! ### The end of a sending (07 R151, R159) -/

/-- The wire is idle again. -/
def idled (p : Nat) (s : State) : State := setPort s p { port s p with tx := none, idleSince := s.now }

theorem endOf_idled {b : List Byte} : endOf (idled p s) p x b = endOf s p x b := by simp [endOf, idled]

/-- A frame's cells are freed where it has no copy left: the wire, the ports and the counters stay. -/
theorem releaseFrame_leaves : (releaseFrame f s).out = s.out ∧ port (releaseFrame f s) = port s ∧
    readCtr (releaseFrame f s) = readCtr s := by
  simp only [releaseFrame, whenB, freeCells]
  (repeat' split) <;> exact ⟨rfl, rfl, rfl⟩

theorem noteSent_leaves {i : Nat} : (noteSent i s).out = s.out ∧ port (noteSent i s) = port s ∧
    readCtr (noteSent i s) = readCtr s := by
  simp only [noteSent]
  (repeat' split) <;> exact ⟨rfl, rfl, rfl⟩

/-- What a stream's copy counts as it leaves is no counter of its port. -/
theorem readCtr_bumpCopy_port {n : Nat} : readCtr (bumpCopy n p 5 s) 0x23 q 19 = readCtr s 0x23 q 19 :=
  readCtr_bumpBy.trans (if_neg (by simp only [ctrId]; omega))

/-- A frame that ends whole leaves on the wire, is counted, and leaves the ports (07 R151, R159; 13 R304). -/
theorem frameSent_leaves : endOf s p x (withFcs x.frame.bytes) ∈ (frameSent p x s).out ∧
    port (frameSent p x s) = port s ∧ CountedBy 1 0x23 p 19 s (frameSent p x s) := by
  have counted : CountedBy 1 0x23 p 19 s (bumpPort p 19 s) := countedBy_bump rfl
  simp only [frameSent, CountedBy, noteSent_leaves, releaseFrame_leaves]
  split
  · exact ⟨mem_out_emit, rfl, readCtr_bumpCopy_port.trans counted⟩
  · exact ⟨mem_out_emit, rfl, counted⟩

/-- The next frame's count touches neither the wire nor the counters. -/
theorem nextSmd_leaves : (nextSmd p x s).out = s.out ∧ readCtr (nextSmd p x s) = readCtr s := by
  simp only [nextSmd]
  split <;> exact ⟨rfl, rfl⟩

theorem port_nextSmd : (port (nextSmd p x s) q).tx = (port s q).tx ∧
    (port (nextSmd p x s) q).idleSince = (port s q).idleSince := by
  simp only [nextSmd]
  split
  · exact ⟨rfl, rfl⟩
  · by_cases hq : q = p <;> simp [hq]

/-- What the end of a sending does with its frame: sent, waiting pre-empted, or stomped. -/
def endSending (p : Nat) (x : Tx) (s : State) : State :=
  match x.ends with
  | .frame => nextSmd p x (frameSent p x s)
  | .fragment => setPort s p { port s p with preempted := some (x.cls, x.frame) }
  | .stomp => nextSmd p x (releaseFrame x.frame s)

theorem exec_transmitComplete {p : Port} (hck : ckRuns s = true) (htx : (port s p.val).tx = some x)
    (hover : sendingOver s p.val x = true) :
    exec (.transmitComplete p) s = .next (publish s (endSending p.val x (idled p.val s))) := by
  simp only [exec, execTransmitComplete]
  rw [act_on (by simp [hck, htx, hover])]
  simp only [htx]
  rfl

/-- Whatever ends, the wire is free from this ck on. -/
theorem port_endSending : (port (endSending p x (idled p s)) p).tx = none ∧
    (port (endSending p x (idled p s)) p).idleSince = s.now := by
  cases hx : x.ends <;> simp [endSending, hx, port_nextSmd, frameSent_leaves, releaseFrame_leaves, idled]

theorem endSending_frame (hx : x.ends = .frame) :
    endOf s p x (withFcs x.frame.bytes) ∈ (endSending p x (idled p s)).out ∧
    CountedBy 1 0x23 p 19 s (endSending p x (idled p s)) := by
  obtain ⟨sent, -, counted⟩ := frameSent_leaves (s := idled p s) (p := p) (x := x)
  simp only [endSending, hx, nextSmd_leaves, CountedBy]
  exact ⟨endOf_idled ▸ sent, counted⟩

theorem preempted_endSending (hx : x.ends = .fragment) :
    (port (endSending p x s) p).preempted = some (x.cls, x.frame) := by
  simp [endSending, hx]

/-- Settles O26: the frame that selection picks, or a MAC Control frame, starts on an idle wire; a fragment's cut; and
the end of a sending. -/
theorem transmissionComplete : Obligations.TransmissionComplete := by
  unfold Obligations.TransmissionComplete
  intro s p hck
  refine ⟨fun hmay => ?_, fun x htx hover => ⟨_, exec_transmitComplete hck htx hover, ?_⟩⟩
  · simp only [exec, execTransmitSelection]
    have serves : (ckRuns s && mayTransmit s p.val) = true := by simp [hck, hmay]
    refine ⟨fun c f htx hctl hpick hnext herr => ⟨_, act_on serves, ?_⟩,
      fun htx hctl hpick => ⟨_, act_on serves, ?_⟩, fun b rest htx hctl => ⟨_, act_on serves, ?_⟩,
      fun x htx hcut hwants => ⟨_, act_on serves, ?_⟩⟩
    · simp only [htx, hctl, port_publish]
      exact tx_selectFrame_picked hpick hnext herr
    · simp [htx, hctl, tx_selectFrame_none hpick]
    · simp [htx, hctl, startControl]
    · simp [htx, hcut, hwants, cutFragment]
  · obtain ⟨tx, idle⟩ := port_endSending (s := s) (p := p.val) (x := x)
    refine ⟨by simp [tx], by simp [idle], fun hx => ?_, fun hx => by simp [preempted_endSending hx]⟩
    obtain ⟨sent, counted⟩ := endSending_frame (s := s) (p := p.val) hx
    exact ⟨mem_out_publish sent,
      counted.publish (frameCounter_other (by decide) (by decide) (by omega) (by decide))⟩

end Sys2Proof.Machine
end

section
/-!
SUPPORT. What the statements of the Ethernet ports share: counters told apart by their numbers, and a list of operations
seen at one element of the list.
-/
namespace Sys2Proof.Machine

variable {s : State} {p c n : Nat} {α β : Type}

/-! ### Counting (13 R301) -/

theorem ctrId_mod {i : Nat} : ctrId c i n % 256 = n % 256 := by
  simp only [ctrId]
  omega

/-- Counting under one number leaves every counter of another number. -/
theorem readCtr_bump_other {i c' i' n' : Nat} (h : n' % 256 ≠ n % 256) :
    readCtr (bump c i n s) c' i' n' = readCtr s c' i' n' := by
  have apart : ctrId c' i' n' ≠ ctrId c i n := fun e => h (by rw [← ctrId_mod (c := c'), e, ctrId_mod])
  simp [bump, apart]

theorem frameCounter_port {p : Port} (hn : n < 256) : frameCounter (ctrId 0x23 p.val n) = false :=
  frameCounter_other (by decide) (by decide) (by omega) hn

/-- The device's own frames move no counter of the numbers 1 to 3, whatever it counts. -/
theorem frameCounter_low {i : Nat} (h0 : 0 < n) (h4 : n < 4) : frameCounter (ctrId c i n) = false := by
  simp only [frameCounter, ctrId, Bool.or_eq_false_iff, Bool.and_eq_false_iff, beq_eq_false_iff_ne]
  omega

theorem countedBy_bumpPort : CountedBy 1 0x23 p n s (bumpPort p n s) := countedBy_bump rfl

/-! ### Lists of operations -/

theorem each_keeps_mem {g : State → β} {op : α → State → State} {as : List α} (h : ∀ a ∈ as, ∀ u, g (op a u) = g u) :
    g (each as op s) = g s := by
  unfold each
  induction as generalizing s with
  | nil => rfl
  | cons a as ih =>
    exact (ih fun b hb => h b (List.mem_cons_of_mem _ hb)).trans (h a (List.mem_cons_self ..) s)

/-- In a list without repetition an element acts once: what the others leave is as it was before, and stays after. -/
theorem each_once {g : State → β} {op : α → State → State} {as : List α} {a : α} (ha : a ∈ as) (hn : as.Nodup)
    (others : ∀ b, b ≠ a → ∀ u, g (op b u) = g u) : ∃ u, g u = g s ∧ g (each as op s) = g (op a u) := by
  induction as generalizing s with
  | nil => cases ha
  | cons b as ih =>
    obtain ⟨hb, hn⟩ := List.nodup_cons.1 hn
    rcases List.mem_cons.1 ha with rfl | ha
    · exact ⟨s, rfl, each_keeps_mem (s := op a s) fun d hd => others d (ne_of_mem_of_not_mem hd hb)⟩
    · obtain ⟨u, before, after⟩ := ih (s := op b s) ha hn
      exact ⟨u, before.trans (others b (fun e => hb (e ▸ ha)) s), after⟩

end Sys2Proof.Machine
end

section
/-!
SUPPORT. Pause (07 R148, R152, R153; 16 R341): what a PFC frame does to each class that it names, as the command and as
a received frame.
-/
namespace Sys2Proof.Machine

variable {s : State} {p c n : Nat} {r : PortsRec} {x : PfcInfo}

/-! ### One class (R152) -/

/-- What the pause of a class turns on, and what it may change. -/
structure PauseView where
  gated : Bool
  now : Nat
  quantum : Nat
  length : Nat
  pausedUntil : Nat
  gatedCount : Nat
  otherCount : Nat

def pauseView (p c : Nat) (s : State) : PauseView where
  gated := gated s p c
  now := s.now
  quantum := quantumCk100 (port s p)
  length := (port s p).pausedUntil.length
  pausedUntil := (port s p).pausedUntil.getD c 0
  gatedCount := readCtr s 0x24 (8 * p + c) 1
  otherCount := readCtr s 0x24 (8 * p + c) 2

@[simp] theorem gated_bumpClass {b k : Nat} : gated (bumpClass p b k s) = gated s := rfl

@[simp] theorem gated_setPort {y : PortSt} : gated (setPort s p y) = gated s := rfl

theorem pauseView_bumpClass {b k : Nat} (h : b ≠ c) (hk : k < 4) :
    pauseView p c (bumpClass p b k s) = pauseView p c s := by
  have kept : ∀ m < 4, readCtr (bumpClass p b k s) 0x24 (8 * p + c) m = readCtr s 0x24 (8 * p + c) m := fun m hm =>
    readCtr_bumpBy.trans (if_neg (by simp only [ctrId]; omega))
  simp [pauseView, kept]

/-- A class's pause leaves the other classes. -/
theorem pauseView_pauseClass {b : Nat} (h : b ≠ c) : pauseView p c (pauseClass p r b n s) = pauseView p c s := by
  simp only [pauseClass]
  split
  · exact pauseView_bumpClass h (by decide)
  · split
    · exact pauseView_bumpClass h (by decide)
    · simp [pauseView, quantumCk100, byteCk100, h]

theorem countedBy_pauseClass_gated (hg : gated s p c = true) :
    CountedBy 1 0x24 (8 * p + c) 1 s (pauseClass p r c n s) := by
  simp only [pauseClass, hg, ↓reduceIte]
  exact countedBy_bump rfl

theorem countedBy_pauseClass_unpausable (hg : gated s p c = false) (hb : hasBit r.pausable c = false) :
    CountedBy 1 0x24 (8 * p + c) 2 s (pauseClass p r c n s) := by
  simp only [pauseClass, hg, hb, Bool.not_false, Bool.false_eq_true, ↓reduceIte]
  exact countedBy_bump rfl

theorem pausedUntil_pauseClass (hg : gated s p c = false) (hb : hasBit r.pausable c = true)
    (hc : c < (port s p).pausedUntil.length) : (port (pauseClass p r c n s) p).pausedUntil.getD c 0 =
      if n = 0 then 0 else s.now + cdiv (n * quantumCk100 (port s p)) 100 := by
  simp [pauseClass, hg, hb, hc]

/-! ### A PFC frame (R148, R152; 16 R341) -/

theorem takePfc_on (hr : portsRec s p = some r) (hp : r.pauseRx = true) : takePfc p x s =
    each ((List.range 8).filter (fun c => x.enable.getLsbD c)) (fun c => pauseClass p r c (x.quanta.getD c 0)) s := by
  simp only [takePfc, hr, hp, ↓reduceIte]

theorem takePfc_off (h : ∀ r, portsRec s p = some r → r.pauseRx = false) : takePfc p x s = bumpPort p 4 s := by
  simp only [takePfc]
  split
  next r hr => simp [h r hr]
  next => rfl

/-- Each class that the frame names is paused once. -/
theorem pauseView_takePfc (hr : portsRec s p = some r) (hp : r.pauseRx = true) (hc : c < 8)
    (hx : x.enable.getLsbD c = true) : ∃ u, pauseView p c u = pauseView p c s ∧
      pauseView p c (takePfc p x s) = pauseView p c (pauseClass p r c (x.quanta.getD c 0) u) := by
  rw [takePfc_on hr hp]
  exact each_once (List.mem_filter.2 ⟨List.mem_range.2 hc, hx⟩) (List.nodup_range.filter _)
    fun b hb u => pauseView_pauseClass hb

/-- What a PFC frame does to a class that it names. -/
theorem takePfc_class (hr : portsRec s p = some r) (hp : r.pauseRx = true) (hc : c < 8)
    (hx : x.enable.getLsbD c = true) :
    (gated s p c = false → hasBit r.pausable c = true → (port s p).pausedUntil.length = 8 →
      (port (takePfc p x s) p).pausedUntil.getD c 0 = if x.quanta.getD c 0 = 0 then 0
        else s.now + cdiv (x.quanta.getD c 0 * quantumCk100 (port s p)) 100) ∧
    (gated s p c = true → CountedBy 1 0x24 (8 * p + c) 1 s (takePfc p x s)) ∧
    (gated s p c = false → hasBit r.pausable c = false → CountedBy 1 0x24 (8 * p + c) 2 s (takePfc p x s)) := by
  obtain ⟨u, before, after⟩ := pauseView_takePfc hr hp hc hx
  simp only [pauseView, PauseView.mk.injEq] at before after
  obtain ⟨hgated, hnow, hquantum, hlength, -, hgatedCount, hotherCount⟩ := before
  obtain ⟨-, -, -, -, hpaused, hgatedEnd, hotherEnd⟩ := after
  refine ⟨fun hg hb hl => ?_, fun hg => ?_, fun hg hb => ?_⟩
  · rw [hpaused, pausedUntil_pauseClass (hgated.trans hg) hb (by omega), hnow, hquantum]
  · rw [CountedBy, hgatedEnd, ← hgatedCount]
    exact countedBy_pauseClass_gated (hgated.trans hg)
  · rw [CountedBy, hotherEnd, ← hotherCount]
    exact countedBy_pauseClass_unpausable (hgated.trans hg) hb

/-! ### A received frame of PFC's opcode (R148) -/

/-- The receive accounts take other values. -/
def withCells (cells marks : SMap Nat) (s : State) : State := { s with rxCells := cells, highWater := marks }

theorem pauseClass_withCells {a b : SMap Nat} :
    pauseClass p r c n (withCells a b s) = withCells a b (pauseClass p r c n s) := by
  have opened : gated (withCells a b s) = gated s := rfl
  simp only [pauseClass, opened]
  (repeat' split) <;> rfl

/-- A PFC frame's effect does not turn on the receive accounts. -/
theorem takePfc_withCells {a b : SMap Nat} : takePfc p x (withCells a b s) = withCells a b (takePfc p x s) := by
  have tables : portsRec (withCells a b s) = portsRec s := rfl
  simp only [takePfc, tables]
  (repeat' split)
  · exact List.foldl_hom (withCells a b) (g₁ := fun t c => pauseClass p _ c (x.quanta.getD c 0) t)
      fun _ _ => pauseClass_withCells
  · rfl
  · rfl

/-- A frame that the MAC consumes leaves a mark on the receive accounts alone. -/
theorem dropRx_takeCells {y : Rx} {k : Nat} : ∃ cells marks, dropRx y (takeCells p c k s) = withCells cells marks s :=
  ⟨_, _, rfl⟩

/-- A frame of PFC's opcode that the MAC takes is the PFC frame that it spells. -/
theorem receiveFrame_pfc {b : List Byte} (hc : canTake s p (pcpOf (ethHdr b)) (cellsOf b.length) = true)
    (he : macError s p b false = none) (hm : isMacControl b = true) (ho : macOpcode b = 0x0101) :
    ∃ cells marks, receiveFrame p b false s = withCells cells marks (takePfc p (pfcOf b) s) := by
  have judged : ∀ c n, macError (takeCells p c n s) p b false = none := fun _ _ => he
  simp only [receiveFrame, hc, receiveHeld, judged, hm, takeControl, ho, Bool.not_true, Bool.false_eq_true, ↓reduceIte]
  obtain ⟨cells, marks, charged⟩ := dropRx_takeCells (s := s) (p := p) (c := pcpOf (ethHdr b)) (k := cellsOf b.length)
    (y := { port := p, cls := pcpOf (ethHdr b), bytes := b, cells := cellsOf b.length })
  exact ⟨cells, marks, charged ▸ takePfc_withCells⟩

/-! ### The device's own PFC (R153; 12 R273) -/

theorem port_sendPfc (hr : portsRec s p = some r) : port (sendPfc p c n s) p = { port s p with
    control := (port s p).control ++ [pfcBytes r.mac c n]
    pfcOn := (port s p).pfcOn.set c (n != 0), pfcDue := (port s p).pfcDue.set c (s.now + pfcInterval (port s p)) } := by
  simp [sendPfc, hr]

/-- Above 30 cells the device pauses its partner. -/
theorem exec_pfcSend_begins {p : Port} {c : TClass} (hck : ckRuns s = true) (hc : pfcClass s p.val c.val = true)
    (hon : (port s p.val).pfcOn.getD c.val false = false) (hheld : 30 < rxHeld s p.val c.val) :
    exec (.pfcSend p c) s = .next (publish s (sendPfc p.val c.val 0xFFFF s)) := by
  simp only [exec, execPfcSend, hon, Bool.false_eq_true, ↓reduceIte]
  exact act_on (by simp [hck, hc, hheld])

/-- Back at 20 cells it ends the pause. -/
theorem exec_pfcSend_ends {p : Port} {c : TClass} (hck : ckRuns s = true) (hc : pfcClass s p.val c.val = true)
    (hon : (port s p.val).pfcOn.getD c.val false = true) (hheld : rxHeld s p.val c.val ≤ 20) :
    exec (.pfcSend p c) s = .next (publish s (sendPfc p.val c.val 0 s)) := by
  simp only [exec, execPfcSend, hon, ↓reduceIte]
  exact act_on (by simp [hck, hc, hheld])

/-- Until then it refreshes it. -/
theorem exec_pfcRefresh {p : Port} {c : TClass} (hck : ckRuns s = true) (hc : pfcClass s p.val c.val = true)
    (hon : (port s p.val).pfcOn.getD c.val false = true) (hheld : 20 < rxHeld s p.val c.val)
    (hdue : (port s p.val).pfcDue.getD c.val 0 ≤ s.now) :
    exec (.pfcRefresh p c) s = .next (publish s (sendPfc p.val c.val 0xFFFF s)) := by
  simp only [exec, execPfcRefresh, hon]
  exact act_on (by simp only [hck, hc, hheld, hdue, decide_true, Bool.and_self])

/-- A pause ends once it is due (R152). -/
theorem exec_pauseExpiry {p : Port} {c : TClass} (hck : ckRuns s = true)
    (hne : (port s p.val).pausedUntil.getD c.val 0 ≠ 0) (hdue : (port s p.val).pausedUntil.getD c.val 0 ≤ s.now) :
    exec (.pauseExpiry p c) s = .next (publish s (setPort s p.val
      { port s p.val with pausedUntil := (port s p.val).pausedUntil.set c.val 0 })) := by
  simp only [exec, execPauseExpiry]
  exact act_on (by simp only [hck, bne_iff_ne.2 hne, hdue, decide_true, Bool.and_self])

theorem exec_pfcReceived {p : Port} (hck : ckRuns s = true) (hup : (port s p.val).up = true) :
    exec (.pfcReceived p x) s = .next (publish s (takePfc p.val x s)) := by
  simp only [exec, execPfcReceived]
  exact act_on (by simp [hck, hup])

theorem exec_frameReceive {p : Port} {b : List Byte} {e : Bool} (hck : ckRuns s = true)
    (hup : (port s p.val).up = true) :
    exec (.frameReceive p b e) s = .next (publish s (receiveFrame p.val b e s)) := by
  simp only [exec, execFrameReceive]
  exact act_on (by simp [hck, hup])

theorem exec_macControlIgnored {p : Port} {o : BitVec 16} (hck : ckRuns s = true) (hup : (port s p.val).up = true)
    (ho : o ≠ 0x0101) : exec (.macControlIgnored p o) s = .next (publish s (bumpPort p.val 4 s)) := by
  simp only [exec, execMacControlIgnored]
  exact act_on (by simpa [hck, hup] using ho)

/-- Settles O28: each class that a PFC frame names, as a command or as a received frame; the end of a pause; and the
device's own PFC frames. -/
theorem pauseComplete : Obligations.PauseComplete := by
  unfold Obligations.PauseComplete
  intro s p hck
  have ignored : CountedBy 1 0x23 p.val 4 s (publish s (bumpPort p.val 4 s)) :=
    countedBy_bumpPort.publish (frameCounter_port (by decide))
  refine ⟨fun x r hup hr hp => ⟨_, exec_pfcReceived hck hup, fun c hx => ?_⟩,
    fun x hup hoff => ⟨_, exec_pfcReceived hck hup, ?_⟩,
    fun b hup hcan he hm ho => ⟨_, _, exec_frameReceive hck hup, exec_pfcReceived hck hup, ?_⟩,
    fun o hup ho => ⟨_, exec_macControlIgnored hck hup ho, ignored⟩,
    fun c hne hdue => ⟨_, exec_pauseExpiry hck hne hdue, by simp⟩,
    fun c r hc hr => ⟨fun hon hheld => ⟨_, exec_pfcSend_begins hck hc hon hheld, by simp [port_sendPfc hr]⟩,
      fun hon hheld => ⟨_, exec_pfcSend_ends hck hc hon hheld, by simp [port_sendPfc hr]⟩,
      fun hon hheld hdue => ⟨_, exec_pfcRefresh hck hc hon hheld hdue, by simp [port_sendPfc hr]⟩⟩⟩
  · obtain ⟨paused, gatedCount, otherCount⟩ := takePfc_class hr hp c.isLt hx
    refine ⟨fun hg hb hl => by simpa using paused hg hb hl,
      fun hg => (gatedCount hg).publish (frameCounter_low (by decide) (by decide)),
      fun hg hb => (otherCount hg hb).publish (frameCounter_low (by decide) (by decide))⟩
  · rw [takePfc_off hoff]
    exact ignored
  · obtain ⟨cells, marks, taken⟩ := receiveFrame_pfc hcan he hm ho
    simp only [port_publish, taken]
    rfl

end Sys2Proof.Machine
end

section
/-!
SUPPORT. Verification and reassembly (07 R147, R150, R151, R157): what a fragment does to the reassembly that it begins,
continues, completes or breaks.
-/
namespace Sys2Proof.Machine

variable {s t : State} {p q : Nat} {r : Reasm} {m : Mpacket} {b : List Byte} {l : List Part}

/-! ### What leaves a reassembly -/

theorem reasm_of_sameBut (h : SameBut l s t) (hl : .ports ∉ l) : (port t p).reasm = (port s p).reasm := by
  have ports : portOf (port s p) = portOf (port t p) := h .ports hl p
  exact (congrArg PortSt.reasm ports).symm

theorem reasm_publish : (port (publish s t) p).reasm = (port t p).reasm := by simp

theorem reasm_takePfc {x : PfcInfo} : (port (takePfc p x s) q).reasm = (port s q).reasm := by
  have paused : ∀ r c n u, (port (pauseClass p r c n u) q).reasm = (port u q).reasm := fun r c n u => by
    simp only [pauseClass]
    split
    · rfl
    · split
      · rfl
      · by_cases hq : q = p <;> simp [hq]
  simp only [takePfc]
  (repeat' split)
  · exact each_keeps (g := fun u => (port u q).reasm) fun c u => paused _ c _ u
  · rfl
  · rfl

/-- Whatever becomes of a frame received whole, it is no reassembly's. -/
theorem reasm_receiveHeld {x : Rx} {e : Bool} : (port (receiveHeld x e s) q).reasm = (port s q).reasm := by
  simp only [receiveHeld]
  (repeat' split)
  · rfl
  · simp only [takeControl]
    split
    · exact reasm_takePfc
    · rfl
  · rfl
  · exact reasm_of_sameBut (l := [.meters, .queues, .rxCells, .listeners, .vcs, .pairs, .mgmtRx, .counters]) (by simp)
      (by decide)

theorem macError_of_sameBut {e : Bool} (h : SameBut l s t) (hl : .boot ∉ l ∧ .tables ∉ l) :
    macError t p b e = macError s p b e := by
  have longest : maxFrame t p = maxFrame s p := by
    rw [maxFrame, portsRec_of_sameBut h hl]
    rfl
  simp only [macError, longest]

theorem macError_lt {e : Bool} {n : Nat} (h : macError s p b e = some n) : n < 4 := by
  simp only [macError] at h
  (repeat' split at h) <;> simp_all <;> omega

/-- The MAC counts a frame that it discards (R147). -/
theorem countedBy_receiveHeld {x : Rx} {e : Bool} {n : Nat} (h : macError s x.port x.bytes e = some n) :
    CountedBy 1 0x23 x.port n s (receiveHeld x e s) := by
  simp only [receiveHeld, h]
  exact countedBy_bump rfl

/-! ### A reassembly is given up -/

theorem freeCells_leaves {a : Option Nat} {n : Nat} : port (freeCells a n s) = port s ∧
    readCtr (freeCells a n s) = readCtr s ∧ (freeCells a n s).out = s.out := by
  cases a <;> exact ⟨rfl, rfl, rfl⟩

theorem dropReasm_some {n : Nat} (hr : (port s p).reasm = some r) : dropReasm p n s =
    freeCells (some (8 * p + r.cls)) r.cells (bumpPort p n (setPort s p { port s p with reasm := none })) := by
  simp only [dropReasm, hr]

theorem port_dropReasm {n : Nat} : port (dropReasm p n s) p = { port s p with reasm := none } := by
  cases hr : (port s p).reasm with
  | none => simp only [dropReasm, hr]; rw [← hr]
  | some r => simp [dropReasm_some hr, freeCells_leaves]

theorem countedBy_dropReasm {n : Nat} (hr : (port s p).reasm = some r) : CountedBy 1 0x23 p n s (dropReasm p n s) := by
  simp only [dropReasm_some hr, CountedBy, freeCells_leaves]
  exact countedBy_bump rfl

/-! ### A reassembly begins, grows, ends (R151, R157) -/

theorem port_setReasm {y : Option Reasm} : port (setReasm p y s) p = { port s p with reasm := y } := by simp [setReasm]

/-- A reassembly with a fragment's bytes, and the cells that they need. -/
def grown (r : Reasm) (b : List Byte) : Reasm :=
  { r with bytes := r.bytes ++ b, cells := r.cells + (cellsOf (r.bytes ++ b).length - r.cells) }

/-- Where its account has the cells, a reassembly grows, and nothing is counted. -/
theorem growReasm_room (hl : r.lost = false) (hc : canTake s p r.cls (cellsOf (r.bytes ++ b).length - r.cells) = true) :
    (port (growReasm p r b s) p).reasm = some (grown r b) ∧ readCtr (growReasm p r b s) = readCtr s := by
  simp only [growReasm, hl, hc, Bool.false_eq_true, ↓reduceIte, takeCells_subs, port_setReasm]
  exact ⟨by rw [grown, hl], rfl⟩

/-- Where it has not, the frame is lost, and counted. -/
theorem growReasm_full (hl : r.lost = false)
    (hc : canTake s p r.cls (cellsOf (r.bytes ++ b).length - r.cells) = false) :
    (port (growReasm p r b s) p).reasm = some { r with bytes := [], cells := 0, lost := true } ∧
    CountedBy 1 0x24 (8 * p + r.cls) 3 s (growReasm p r b s) := by
  simp only [growReasm, hl, hc, Bool.false_eq_true, ↓reduceIte, bumpClass_subs, freeCells_leaves, port_setReasm,
    true_and]
  exact countedBy_bump (by rw [freeCells_leaves.2.1]; rfl)

/-- A reassembly before the bytes of its first fragment. -/
def newReasm (m : Mpacket) : Reasm :=
  { frameCount := m.frameCount.val, fragCount := 0, bytes := [], cls := pcpOf (ethHdr m.bytes), cells := 0
    lost := false }

theorem takeFragment_begins (hs : m.start = true) (hr : (port s p).reasm = none) (hf : m.final = false)
    (hg : m.good = true) : takeFragment p m s = growReasm p (newReasm m) m.bytes s := by
  simp [takeFragment, hs, hr, hf, hg, newReasm]

theorem takeFragment_whole (hs : m.start = true) (hr : (port s p).reasm = none) (hf : m.final = true) :
    takeFragment p m s = receiveFrame p m.bytes false s := by
  simp [takeFragment, hs, hr, hf]

/-- A reassembly that waits for the fragment after this one. -/
def awaitNext (r : Reasm) : Reasm := { r with fragCount := (r.fragCount + 1) % 4 }

/-- A fragment in its order. -/
theorem takeFragment_joins (hs : m.start = false) (hr : (port s p).reasm = some r)
    (hframe : m.frameCount.val = r.frameCount) (hfrag : m.fragCount.val = r.fragCount)
    (hg : m.final = true ∨ m.good = true) :
    takeFragment p m s = whenB m.final (closeReasm p) (growReasm p (awaitNext r) m.bytes s) := by
  rcases hg with hg | hg <;> simp [takeFragment, hs, hr, hframe, hfrag, hg, whenB, awaitNext]

/-- A fragment out of its order, or broken. -/
theorem takeFragment_breaks (hs : m.start = false) (h : ∀ r, (port s p).reasm = some r →
    m.frameCount.val ≠ r.frameCount ∨ m.fragCount.val ≠ r.fragCount ∨ (m.good = false ∧ m.final = false)) :
    takeFragment p m s = reasmError p s := by
  cases hr : (port s p).reasm with
  | none => simp [takeFragment, hs, hr]
  | some r =>
    have broken := h r hr
    simp only [takeFragment, hs, hr]
    exact if_pos (by simpa [and_comm] using broken)

theorem reasmError_leaves : (port (reasmError p s) p).reasm = none ∧ CountedBy 1 0x23 p 7 s (reasmError p s) := by
  simp only [reasmError]
  split
  next given =>
    obtain ⟨r, hr⟩ := Option.isSome_iff_exists.1 given
    exact ⟨by rw [port_dropReasm], countedBy_dropReasm hr⟩
  next missing => exact ⟨Option.not_isSome_iff_eq_none.1 missing, countedBy_bumpPort⟩

/-- A complete reassembly's frame is the MAC's to judge. -/
theorem closeReasm_leaves (hr : (port s p).reasm = some r) (hl : r.lost = false) :
    (port (closeReasm p s) p).reasm = none ∧
    ∀ n, macError s p r.bytes false = some n → CountedBy 1 0x23 p n s (closeReasm p s) := by
  simp only [closeReasm, hr, hl, Bool.false_eq_true, ↓reduceIte]
  exact ⟨reasm_receiveHeld.trans (by rw [port_setReasm]), fun n hn => countedBy_receiveHeld (x := ⟨_, _, _, _⟩) hn⟩

/-! ### Verification (R150) -/

/-- When the next verify mPacket of a port is due. -/
def verifyDue (s : State) (p : Nat) : Nat :=
  s.now + msCk (match portsRec s p with | some r => r.verifyMs | none => 10)

/-- What the timer does to a verification under way. -/
def verifyAgain (p n : Nat) (s : State) : State :=
  if n < 3 then
    emit (.control s.now p .verify) (setPort s p { port s p with verify := .running (n + 1) (verifyDue s p) })
  else bumpPort p 6 (setPort s p { port s p with verify := .failed })

theorem exec_verifyTimer {p : Port} {n due : Nat} (hck : ckRuns s = true) (hv : (port s p.val).verify = .running n due)
    (hdue : due ≤ s.now) : exec (.verifyTimer p) s = .next (publish s (verifyAgain p.val n s)) := by
  simp only [exec, execVerifyTimer]
  rw [act_on (by simp [hck, hv, hdue])]
  simp only [hv]
  rfl

theorem exec_verifyMpacketReceived_respond {p : Port} {n due : Nat} (hck : ckRuns s = true)
    (hup : (port s p.val).up = true) (hv : (port s p.val).verify = .running n due) :
    exec (.verifyMpacketReceived p true) s =
      .next (publish s (setPort s p.val { port s p.val with verify := .verified })) := by
  simp only [exec, execVerifyMpacketReceived]
  exact act_on (by simp [hck, hup, hv])

theorem exec_verifyMpacketReceived_verify {p : Port} (hck : ckRuns s = true) (hup : (port s p.val).up = true)
    (hflag : preemptFlag s p.val = true) : exec (.verifyMpacketReceived p false) s =
      .next (publish s (emit (.control s.now p.val .respond) s)) := by
  simp only [exec, execVerifyMpacketReceived]
  exact act_on (by simp [hck, hup, hflag])

/-! ### MPACKET_RECEIVED (R151) -/

theorem exec_mpacketReceived {p : Port} (hck : ckRuns s = true) (hup : (port s p.val).up = true) :
    exec (.mpacketReceived p m) s =
      .next (publish s (if preemptFlag s p.val then takeFragment p.val m s else bumpPort p.val 8 s)) := by
  simp only [exec, execMpacketReceived]
  exact act_on (by simp [hck, hup])

theorem exec_mpacketReceived_taken {p : Port} (hck : ckRuns s = true) (hup : (port s p.val).up = true)
    (hflag : preemptFlag s p.val = true) :
    exec (.mpacketReceived p m) s = .next (publish s (takeFragment p.val m s)) := by
  rw [exec_mpacketReceived hck hup, if_pos hflag]

/-- Settles O29: the verification timer and its mPackets; fragments that begin, continue, complete and break a
reassembly. -/
theorem preemptionComplete : Obligations.PreemptionComplete := by
  unfold Obligations.PreemptionComplete
  intro s p hck
  refine ⟨fun n due hv hdue => ⟨_, exec_verifyTimer hck hv hdue, fun hn => ?_, fun hn => ?_⟩,
    fun hup => ⟨fun n due hv => ⟨_, exec_verifyMpacketReceived_respond hck hup hv, by simp⟩,
      fun hflag => ⟨_, exec_verifyMpacketReceived_verify hck hup hflag, mem_out_publish mem_out_emit⟩,
      fun m hflag => ⟨_, exec_mpacketReceived hck hup, ?_⟩,
      fun m hflag hs hr hf hg hcan => ⟨_, exec_mpacketReceived_taken hck hup hflag, ?_⟩,
      fun m hflag hs hf hr => ?_, fun m r hflag hs hr hframe hfrag more hmore => ?_,
      fun m hflag hs hbad => ⟨_, exec_mpacketReceived_taken hck hup hflag, ?_⟩⟩⟩
  · simp only [verifyAgain, hn, ↓reduceIte, port_publish]
    exact ⟨mem_out_publish mem_out_emit, by rw [emit_subs.1, port_setPort, if_pos rfl]; rfl⟩
  · simp only [verifyAgain, show ¬n < 3 by omega, ↓reduceIte, port_publish]
    exact ⟨by simp, (countedBy_bump rfl).publish (frameCounter_port (by decide))⟩
  · simp only [hflag, Bool.false_eq_true, ↓reduceIte]
    exact countedBy_bumpPort.publish (frameCounter_port (by decide))
  · obtain ⟨grew, -⟩ := growReasm_room (r := newReasm m) rfl hcan
    rw [reasm_publish, takeFragment_begins hs hr hf hg, grew]
    simp [grown, newReasm]
  · rw [exec_mpacketReceived_taken hck hup hflag, takeFragment_whole hs hr hf]
    exact (exec_frameReceive hck hup).symm
  · subst hmore
    refine ⟨fun hg hf hl hcan => ⟨_, exec_mpacketReceived_taken hck hup hflag, ?_⟩,
      fun hg hf hl hcan => ⟨_, exec_mpacketReceived_taken hck hup hflag, ?_⟩,
      fun hf hl hcan => ⟨_, exec_mpacketReceived_taken hck hup hflag, ?_⟩⟩
    · obtain ⟨grew, -⟩ := growReasm_room (r := awaitNext r) hl hcan
      rw [takeFragment_joins hs hr hframe hfrag (.inr hg), hf]
      exact reasm_publish.trans grew
    · obtain ⟨lost, counted⟩ := growReasm_full (r := awaitNext r) hl hcan
      rw [takeFragment_joins hs hr hframe hfrag (.inr hg), hf]
      exact ⟨counted.publish (frameCounter_low (by decide) (by decide)), reasm_publish.trans lost⟩
    · obtain ⟨grew, uncounted⟩ := growReasm_room (r := awaitNext r) hl hcan
      obtain ⟨closed, counted⟩ := closeReasm_leaves grew hl
      have kept : SameBut [.ports, .rxCells, .highWater, .counters] s (growReasm p.val (awaitNext r) m.bytes s) := by
        simp
      rw [takeFragment_joins hs hr hframe hfrag (.inl hf), hf]
      refine ⟨by simp [whenB, closed], fun n hn => ?_⟩
      exact ((counted n ((macError_of_sameBut kept (by decide)).trans hn)).of_readCtr uncounted).publish
        (frameCounter_port (by have := macError_lt hn; omega))
  · rw [takeFragment_breaks hs hbad]
    obtain ⟨gone, counted⟩ := reasmError_leaves (s := s) (p := p.val)
    exact ⟨by simp [gone], counted.publish (frameCounter_port (by decide))⟩

end Sys2Proof.Machine
end

section
/-!
SUPPORT. Ports that go down and come up, and SGMII's in-band word (07 R145, R168 to R170, R172).
-/
namespace Sys2Proof.Machine

variable {s t : State} {p c q n : Nat} {f : Frame} {e : Emission}

/-! ### A port goes down (R168, R169) -/

/-- A port's state once its link is gone. -/
def fallen (x : PortSt) : PortSt :=
  { x with up := false, live := false, holdEnd := none, verify := .idle, tx := none, preempted := none
           control := [], smdFrag := 0, pausedUntil := List.replicate 8 0, pfcOn := List.replicate 8 false
           pfcDue := List.replicate 8 0 }

/-- The frames that a port has on its wire, or pre-empted. -/
def onWire (s : State) (p : Nat) : List Frame :=
  (match (port s p).tx with | some t => [t.frame] | none => []) ++
    (match (port s p).preempted with | some y => [y.2] | none => [])

/-- A port goes down, up to the count of it. -/
def portFalls (p : Nat) (s : State) : State :=
  each (List.range 8) (discardCovered p) (each (onWire s p) (fun f s => releaseFrame f (bumpPort p 11 s))
    (setPort (dropReasm p 3 s) p (fallen (port (dropReasm p 3 s) p))))

theorem portGoesDown_of_up (hup : (port s p).up = true) : portGoesDown p s = bumpPort p 9 (portFalls p s) :=
  if_neg (by simp [hup])

theorem portGoesDown_of_down (hup : (port s p).up = false) : portGoesDown p s = s := by simp [portGoesDown, hup]

/-- A frame that is counted and freed leaves the ports and the wires. -/
theorem releaseFrame_bump {i k : Nat} : port (releaseFrame f (bump k i n s)) = port s ∧
    (releaseFrame f (bump k i n s)).out = s.out := by
  rw [releaseFrame_leaves.1, releaseFrame_leaves.2.1]
  exact ⟨rfl, rfl⟩

theorem discardCovered_leaves : port (discardCovered p c s) = port s ∧ (discardCovered p c s).out = s.out := by
  simp only [discardCovered]
  constructor
  · exact each_keeps (g := port) fun f u => releaseFrame_bump.1
  · exact each_keeps (g := State.out) fun f u => releaseFrame_bump.2

/-- The copies that other members carry are counted under the number 4. -/
theorem readCtr_discardCovered {i k : Nat} (h : n % 256 ≠ 4) :
    readCtr (discardCovered p c s) k i n = readCtr s k i n := by
  simp only [discardCovered]
  exact each_keeps (g := fun u => readCtr u k i n) fun f u => by
    rw [releaseFrame_leaves.2.2]
    exact readCtr_bump_other h

theorem readCtr_dropReasm {i k m : Nat} (h : n % 256 ≠ m % 256) :
    readCtr (dropReasm p m s) k i n = readCtr s k i n := by
  cases hr : (port s p).reasm with
  | none => simp only [dropReasm, hr]
  | some r =>
    rw [dropReasm_some hr, freeCells_leaves.2.1]
    exact readCtr_bump_other h

theorem portFalls_leaves : port (portFalls p s) p = fallen { port s p with reasm := none } ∧
    (portFalls p s).out = s.out := by
  have wire : ∀ fs u, port (each fs (fun f s => releaseFrame f (bumpPort p 11 s)) u) = port u ∧
      (each fs (fun f s => releaseFrame f (bumpPort p 11 s)) u).out = u.out := fun fs u =>
    ⟨each_keeps (g := port) fun f v => releaseFrame_bump.1, each_keeps (g := State.out) fun f v => releaseFrame_bump.2⟩
  have covered : ∀ u, port (each (List.range 8) (discardCovered p) u) = port u ∧
      (each (List.range 8) (discardCovered p) u).out = u.out := fun u =>
    ⟨each_keeps (g := port) fun c v => discardCovered_leaves.1,
      each_keeps (g := State.out) fun c v => discardCovered_leaves.2⟩
  have dropped : (dropReasm p 3 s).out = s.out := by
    simp only [dropReasm]
    split <;> rfl
  simp only [portFalls, covered, wire, port_setPort, port_dropReasm, dropped, setPort_fields, ↓reduceIte, and_self]

theorem readCtr_portFalls {i k : Nat} (h3 : n % 256 ≠ 3) (h4 : n % 256 ≠ 4) (h11 : n % 256 ≠ 11) :
    readCtr (portFalls p s) k i n = readCtr s k i n := by
  have wire : ∀ f u, readCtr (releaseFrame f (bumpPort p 11 u)) k i n = readCtr u k i n := fun f u => by
    rw [releaseFrame_leaves.2.2]
    exact readCtr_bump_other h11
  exact (each_keeps (g := fun u => readCtr u k i n) fun c u => readCtr_discardCovered h4).trans
    ((each_keeps (g := fun u => readCtr u k i n) wire).trans (readCtr_dropReasm h3))

theorem port_portGoesDown : port (portGoesDown p s) p =
    if (port s p).up then fallen { port s p with reasm := none } else port s p := by
  cases hup : (port s p).up
  · simp [portGoesDown_of_down hup]
  · simp [portGoesDown_of_up hup, portFalls_leaves]

theorem out_portGoesDown : (portGoesDown p s).out = s.out := by
  cases hup : (port s p).up
  · simp [portGoesDown_of_down hup]
  · simp [portGoesDown_of_up hup, portFalls_leaves]

theorem countedBy_portGoesDown (hup : (port s p).up = true) : CountedBy 1 0x23 p 9 s (portGoesDown p s) := by
  rw [portGoesDown_of_up hup]
  exact countedBy_bump (readCtr_portFalls (by decide) (by decide) (by decide))

/-- A port that goes down counts under four numbers. -/
theorem readCtr_portGoesDown {i k : Nat} (hn : n < 256) (h : n ∉ [3, 4, 9, 11]) :
    readCtr (portGoesDown p s) k i n = readCtr s k i n := by
  simp only [List.mem_cons, List.not_mem_nil, or_false, not_or] at h
  obtain ⟨h3, h4, h9, h11⟩ := h
  cases hup : (port s p).up
  · rw [portGoesDown_of_down hup]
  · rw [portGoesDown_of_up hup]
    exact (readCtr_bump_other (by omega)).trans (readCtr_portFalls (by omega) (by omega) (by omega))

/-! ### PORT_DOWN, PORT_UP, LINK_UP_HOLD_END (R145, R168 to R170) -/

theorem startPcs_leaves : port (startPcs p s) = port s ∧ readCtr (startPcs p s) = readCtr s := by
  simp only [startPcs]
  split <;> exact ⟨rfl, rfl⟩

theorem port_loseLink (hup : (port s p).up = true) :
    port (loseLink p s) p = { fallen { port s p with reasm := none } with linkBit := false } := by
  simp [loseLink, startPcs_leaves, port_portGoesDown, hup]

theorem countedBy_loseLink (hup : (port s p).up = true) : CountedBy 1 0x23 p 9 s (loseLink p s) := by
  simp only [CountedBy, loseLink, startPcs_leaves]
  exact countedBy_portGoesDown hup

/-- How long a port's link is held before it is live (R170). -/
def holdUs (s : State) (p : Nat) : Nat := match portsRec s p with | some r => r.holdUs | none => 0

theorem portComesUp_leaves : (port (portComesUp p s) p).up = true ∧ (port (portComesUp p s) p).live = false ∧
    (port (portComesUp p s) p).holdEnd = some (s.now + usCk (holdUs s p)) ∧
    (port (portComesUp p s) p).anPage = (port s p).anPage ∧ CountedBy 1 0x23 p 10 s (portComesUp p s) := by
  have unverified : ∀ b u, port (whenB b (bumpPort p 5) u) = port u ∧
      readCtr (whenB b (bumpPort p 5) u) 0x23 p 10 = readCtr u 0x23 p 10 := fun b u => by
    cases b
    · exact ⟨rfl, rfl⟩
    · exact ⟨rfl, readCtr_bump_other (by decide)⟩
  simp only [portComesUp, bumpPort_subs, unverified, drawFree_subs, port_setPort, ↓reduceIte, true_and]
  exact ⟨rfl, countedBy_bump (by rw [(unverified _ _).2]; rfl)⟩

theorem readPage_leaves {page : BitVec 16} : (readPage p page s).now = s.now ∧
    holdUs (readPage p page s) p = holdUs s p ∧ readCtr (readPage p page s) = readCtr s ∧
    ((port s p).mode = 4 → (port (readPage p page s) p).anPage = page) := by
  simp only [readPage]
  split
  · exact ⟨rfl, rfl, rfl, fun _ => by simp⟩
  next hm => exact ⟨rfl, rfl, rfl, fun h => absurd h hm⟩

theorem startVerify_leaves : (port (startVerify p s) p).live = (port s p).live ∧
    (port (startVerify p s) p).holdEnd = (port s p).holdEnd := by
  simp only [startVerify]
  (repeat' split) <;> simp

/-- What the announce frame of a port that becomes live leaves of the port (03 R61). -/
theorem firstLive_leaves {p : Port} : (port (firstLive p.val s) p.val).live = (port s p.val).live ∧
    (port (firstLive p.val s) p.val).holdEnd = (port s p.val).holdEnd := by
  have same : SameBut [] s (firstLive p.val s) := by simp
  have ports : portOf (port s p.val) = portOf (port (firstLive p.val s) p.val) := same .ports (by decide) p.val
  exact ⟨(congrArg PortSt.live ports).symm, (congrArg PortSt.holdEnd ports).symm⟩

theorem exec_portDown {p : Port} {w : LinkLoss} (hck : ckRuns s = true) (hup : (port s p.val).up = true)
    (hw : lossPossible (port s p.val).mode w = true) :
    exec (.portDown p w) s = .next (publish s (loseLink p.val s)) := by
  simp only [exec, execPortDown]
  exact act_on (by simp [hck, hup, hw])

theorem exec_portUp {p : Port} {page : BitVec 16} (hck : ckRuns s = true) (hmay : mayComeUp s p.val = true) :
    exec (.portUp ⟨p, page⟩) s = .next (publish s (portComesUp p.val (readPage p.val page s))) := by
  simp only [exec, execPortUp]
  exact act_on (by simp [hck, hmay])

theorem exec_linkUpHoldEnd {p : Port} (hck : ckRuns s = true) (hup : (port s p.val).up = true)
    (hlive : (port s p.val).live = false) (hhold : (port s p.val).holdEnd = some n) (hn : n ≤ s.now) :
    exec (.linkUpHoldEnd p) s = .next (publish s (firstLive p.val (startVerify p.val
      (setPort s p.val { port s p.val with live := true, holdEnd := none })))) := by
  simp only [exec, execLinkUpHoldEnd]
  exact act_on (by simp [hck, hup, hlive, hhold, hn])

/-! ### SGMII's in-band word (R168, R172) -/

/-- What an in-band word says of the link and the duplex. -/
def inbandSays (p : Nat) (linkBit full : Bool) (s : State) : State :=
  whenB (!full) (bumpPort p 14) (setPort s p { port s p with linkBit := linkBit, halfDuplex := !full })

theorem exec_sgmiiInbandWord {p : Port} {b f : Bool} {v : Fin 3} (hck : ckRuns s = true)
    (hm : (port s p.val).mode = 6) : exec (.sgmiiInbandWord p b v f) s = .next (publish s
      (if b && f then inbandUp p.val v.val (inbandSays p.val b f s)
       else portGoesDown p.val (inbandSays p.val b f s))) := by
  simp only [exec, execSgmiiInbandWord]
  exact act_on (by simp [hck, hm])

theorem port_inbandSays {b f : Bool} :
    port (inbandSays p b f s) p = { port s p with linkBit := b, halfDuplex := !f } := by
  cases f <;> simp [inbandSays, whenB]

theorem countedBy_inbandSays {b : Bool} : CountedBy 1 0x23 p 14 s (inbandSays p b false s) := countedBy_bump rfl

/-- A word of another speed takes the port down until it comes up at that speed. -/
theorem inbandUp_leaves {v : Nat} : (port (inbandUp p v s) p).halfDuplex = (port s p).halfDuplex ∧
    (port (inbandUp p v s) p).linkBit = (port s p).linkBit ∧ (port (inbandUp p v s) p).speed = v ∧
    (port (inbandUp p v s) p).up = ((port s p).up && decide ((port s p).speed = v)) := by
  simp only [inbandUp]
  split
  next hv => simp [hv]
  next hv => cases hup : (port s p).up <;> simp [port_portGoesDown, hup, hv, fallen]

/-- Any other word takes the port down. -/
theorem portGoesDown_leaves : (port (portGoesDown p s) p).up = false ∧
    (port (portGoesDown p s) p).linkBit = (port s p).linkBit ∧
    (port (portGoesDown p s) p).halfDuplex = (port s p).halfDuplex := by
  cases hup : (port s p).up <;> simp [port_portGoesDown, hup, fallen]

end Sys2Proof.Machine
end

section
/-!
SUPPORT. The PHYs of the SGMII ports (07 R171, R172): one access to the bus at a time in port order, what a read of a
PHY does to its port, and a PHY that is tried again.
-/
namespace Sys2Proof.Machine

variable {s t : State} {p a n reg val : Nat} {v : BitVec 16} {e : Emission} {rest : List (Nat × Nat × Nat × Nat)}

/-! ### Accesses in port order (R171) -/

/-- The first of the ports below `n` that fits is one that fits. -/
theorem firstBelow_some {f : Nat → Bool} {k : Nat} (h : firstBelow n f = some k) : f k = true := List.find?_some h

theorem firstBelow_eq {f : Nat → Bool} {k : Nat} (hk : k < n) (hf : f k = true) (below : ∀ j < k, f j = false) :
    firstBelow n f = some k := by
  simp only [firstBelow, List.find?_range_eq_some]
  exact ⟨hf, List.mem_range.2 hk, fun j hj => by simp [below j hj]⟩

theorem mdioDuty_front (hq : s.mdio.queue = (p, a, reg, val) :: rest) (hp : p < 4) (hrest : ∀ e ∈ rest, p ≤ e.1)
    (hbrown : s.supply.bankQ.brown = false) (hfree : s.mdio.freeAt ≤ s.now) : mdioDuty s =
      mdioAccess a reg (some val) { s with mdio := { s.mdio with queue := rest } } := by
  have first : firstBelow 4 (fun k => s.mdio.queue.any (fun e => e.1 == k)) = some p := by
    refine firstBelow_eq hp (by simp [hq]) fun j hj => ?_
    simp only [hq, List.any_eq_false, List.mem_cons, beq_iff_eq]
    rintro e (rfl | he)
    · exact fun h => by simp at h; omega
    · have := hrest e he; omega
  simp only [mdioDuty, hbrown, Bool.false_or, decide_eq_true_eq, Nat.not_lt.2 hfree, ↓reduceIte, first]
  simp [hq]

/-! ### A read of a PHY (R172) -/

/-- The poll's access, for a port whose PHY has an address. -/
def phyAsked (p : Nat) (s : State) : State :=
  match phyAddress s p with
  | some a => mdioAccess a (polled (port s p)) none s
  | none => s

/-- What a read returned is noted, and the next poll is due. -/
def phyHeard (p : Nat) (v : BitVec 16) (s : State) : State :=
  setPort (phyAsked p s) p { port (phyAsked p s) p with
    phyDue := (phyAsked p s).now + msCk 1
    phyRegs := (port (phyAsked p s) p).phyRegs.set (if polled (port (phyAsked p s) p) = 0 then 0 else 3) v }

/-- A PHY out of its reset is set up. -/
def phySetUp (p : Nat) (s : State) : State :=
  setPort (mdioWrite p 0 0x1340 (mdioWrite p 9 0x0200 (mdioWrite p 4 0x0141 s))) p
    { port (mdioWrite p 0 0x1340 (mdioWrite p 9 0x0200 (mdioWrite p 4 0x0141 s))) p with phy := .running }

/-- What the value read means to the port. -/
def phyJudged (p : Nat) (v : BitVec 16) (s : State) : State :=
  match (port s p).phy with
  | .resetting t =>
    if v = 0xFFFF then phyAbsent p s
    else if v.getLsbD 15 then (if t + msCk 500 ≤ s.now then phyAbsent p s else s)
    else phySetUp p s
  | .running => if v = 0xFFFF then phyAbsent p s else s
  | _ => s

theorem readPhy_eq : readPhy p v s = phyJudged p v (phyHeard p v s) := rfl

/-- A read finds the PHY absent, or out of its reset, or changes nothing more. -/
theorem phyJudged_cases : phyJudged p v s = phyAbsent p s ∨ phyJudged p v s = phySetUp p s ∨ phyJudged p v s = s := by
  simp only [phyJudged]
  (repeat' split) <;> simp

theorem phyAsked_leaves : port (phyAsked p s) = port s ∧ (phyAsked p s).now = s.now ∧
    readCtr (phyAsked p s) = readCtr s ∧ (phyAsked p s).mdio.queue = s.mdio.queue ∧
    phyAddress (phyAsked p s) = phyAddress s := by
  simp only [phyAsked]
  split <;> exact ⟨rfl, rfl, rfl, rfl, rfl⟩

/-- The poll's access takes the bus (R171). -/
theorem phyAsked_access (ha : phyAddress s p = some a) :
    .mdio s.now a (polled (port s p)) none ∈ (phyAsked p s).out ∧ (phyAsked p s).mdio.freeAt = s.now + 20480 := by
  simp [phyAsked, ha, mdioAccess]

theorem phyHeard_leaves : (port (phyHeard p v s) p).phy = (port s p).phy ∧ (phyHeard p v s).now = s.now ∧
    readCtr (phyHeard p v s) = readCtr s ∧ (phyHeard p v s).mdio = (phyAsked p s).mdio ∧
    (phyHeard p v s).out = (phyAsked p s).out ∧ phyAddress (phyHeard p v s) = phyAddress s := by
  obtain ⟨ports, now, counters, -, address⟩ := phyAsked_leaves (s := s) (p := p)
  refine ⟨by simp [phyHeard, ports], now, counters, rfl, rfl, address⟩

theorem phyAbsent_leaves : (port (phyAbsent p s) p).phy = .absent (s.now + msCk 1000) ∧
    (port (phyAbsent p s) p).up = false ∧ CountedBy 1 0x23 p 13 s (phyAbsent p s) ∧
    (phyAbsent p s).mdio = s.mdio ∧ (phyAbsent p s).out = s.out := by
  have kept : SameBut [.ports, .queues, .rxCells, .counters] s (portGoesDown p s) := by simp
  have now : s.now = (portGoesDown p s).now := kept .now (by decide)
  have mdio : s.mdio = (portGoesDown p s).mdio := kept .mdio (by decide)
  have counted : CountedBy 1 0x23 p 13 s (bumpPort p 13 (portGoesDown p s)) :=
    countedBy_bump (readCtr_portGoesDown (by decide) (by decide))
  obtain ⟨down, -⟩ := portGoesDown_leaves (s := s) (p := p)
  exact ⟨by simp [phyAbsent, now], by simp [phyAbsent, down], counted, mdio.symm, out_portGoesDown⟩

theorem mdioWrite_leaves : port (mdioWrite p reg val s) = port s ∧ (mdioWrite p reg val s).out = s.out ∧
    (mdioWrite p reg val s).mdio.freeAt = s.mdio.freeAt ∧ phyAddress (mdioWrite p reg val s) = phyAddress s := by
  simp only [mdioWrite]
  split <;> exact ⟨rfl, rfl, rfl, rfl⟩

theorem queue_mdioWrite (ha : phyAddress s p = some a) :
    (mdioWrite p reg val s).mdio.queue = s.mdio.queue ++ [(p, a, reg, val)] := by
  simp only [mdioWrite, ha]

theorem phySetUp_leaves : (port (phySetUp p s) p).phy = .running ∧ (phySetUp p s).out = s.out ∧
    (phySetUp p s).mdio.freeAt = s.mdio.freeAt := by
  simp [phySetUp, mdioWrite_leaves]

/-- Registers 4, 9 and 0 are written in this order (R172). -/
theorem queue_phySetUp (ha : phyAddress s p = some a) : (phySetUp p s).mdio.queue =
    s.mdio.queue ++ [(p, a, 4, 0x0141), (p, a, 9, 0x0200), (p, a, 0, 0x1340)] := by
  simp [phySetUp, queue_mdioWrite, mdioWrite_leaves, ha]

/-- What the value read means leaves the wires, and the bus taken. -/
theorem phyJudged_leaves : (phyJudged p v s).out = s.out ∧ (phyJudged p v s).mdio.freeAt = s.mdio.freeAt := by
  rcases phyJudged_cases (p := p) (v := v) (s := s) with h | h | h
  · simp [h, phyAbsent_leaves]
  · simp [h, phySetUp_leaves]
  · simp [h]

/-! ### PHY_POLL (R171, R172) -/

theorem readPhy_access (ha : phyAddress s p = some a) : .mdio s.now a (polled (port s p)) none ∈ (readPhy p v s).out ∧
    (readPhy p v s).mdio.freeAt = s.now + 20480 := by
  rw [readPhy_eq, phyJudged_leaves.1, phyJudged_leaves.2]
  exact phyAsked_access ha

/-- A PHY that is polled is in its reset or runs. -/
theorem phy_of_pollDue (h : pollDue s p = true) : (∃ n, (port s p).phy = .resetting n) ∨ (port s p).phy = .running := by
  simp only [pollDue, Bool.and_eq_true] at h
  obtain ⟨-, polled⟩ := h
  cases hphy : (port s p).phy <;> simp [hphy] at polled ⊢

/-- All ones are read where no PHY answers. -/
theorem readPhy_absent (h : pollDue s p = true) (hv : v = 0xFFFF) : readPhy p v s = phyAbsent p (phyHeard p v s) := by
  rw [readPhy_eq]
  rcases phy_of_pollDue h with ⟨n, hphy⟩ | hphy <;> simp only [phyJudged, phyHeard_leaves, hphy, hv, ↓reduceIte]

theorem readPhy_resetDone (hphy : (port s p).phy = .resetting n) (hv : v.getLsbD 15 = false) :
    readPhy p v s = phySetUp p (phyHeard p v s) := by
  have answered : v ≠ 0xFFFF := fun e => by simp [e] at hv
  rw [readPhy_eq]
  simp only [phyJudged, phyHeard_leaves, hphy, answered, hv, Bool.false_eq_true, ↓reduceIte]

/-! ### PHY_RESTART (R172) -/

theorem phyBringUp_leaves (hm : (port s p).mode = 6) (ha : phyAddress s p = some a) :
    (port (phyBringUp p s) p).phy = .resetting s.now ∧
    (phyBringUp p s).mdio.queue = s.mdio.queue ++ [(p, a, 0, 0x8000)] := by
  have addressed : ∀ y, phyAddress (setPort s p y) p = some a := fun _ => ha
  simp [phyBringUp, hm, ha, mdioWrite_leaves, queue_mdioWrite (addressed _)]

theorem exec_phyPoll {p : Port} (hck : ckRuns s = true) (hbrown : s.supply.bankQ.brown = false)
    (hq : s.mdio.queue = []) (hfree : s.mdio.freeAt ≤ s.now) (hfirst : firstBelow 4 (pollDue s) = some p.val) :
    exec (.phyPoll p v) s = .next (publish s (readPhy p.val v s)) := by
  simp only [exec, execPhyPoll]
  exact act_on (by simp [hck, hbrown, hq, hfree, hfirst])

theorem exec_phyRestart {p : Port} (hck : ckRuns s = true) (hphy : (port s p.val).phy = .absent n) (hn : n ≤ s.now) :
    exec (.phyRestart p) s = .next (publish s (phyBringUp p.val s)) := by
  simp only [exec, execPhyRestart]
  exact act_on (by simp [hck, hphy, hn])

/-- Settles O30: the port's link, SGMII's in-band word, and the accesses to its PHY. -/
theorem portLinkComplete : Obligations.PortLinkComplete := by
  unfold Obligations.PortLinkComplete
  intro s p hck
  refine ⟨fun w hup hw => ⟨_, exec_portDown hck hup hw, ?_⟩, fun page hmay => ⟨_, exec_portUp hck hmay, ?_⟩,
    fun n hup hlive hhold hn => ⟨_, exec_linkUpHoldEnd hck hup hlive hhold hn, ?_⟩,
    fun hm => ⟨fun v f => ⟨_, exec_sgmiiInbandWord hck hm, ?_⟩, fun v b => ⟨_, exec_sgmiiInbandWord hck hm, ?_⟩,
      fun v => ⟨_, exec_sgmiiInbandWord hck hm, ?_⟩⟩,
    fun v n hbrown hq hfree hfirst => ⟨_, exec_phyPoll hck hbrown hq hfree hfirst, fun a ha => ?_, fun hv => ?_,
      fun hphy hv => ?_⟩,
    fun a reg val rest hq hrest hbrown hfree => ?_,
    fun n a hphy hn hm ha => ⟨_, exec_phyRestart hck hphy hn, ?_⟩⟩
  · have counted := (countedBy_loseLink hup).publish (o := s) (frameCounter_port (by decide))
    simp [port_loseLink hup, fallen, counted]
  · obtain ⟨now, held, counters, hpage⟩ := readPage_leaves (s := s) (p := p.val) (page := page)
    obtain ⟨up, live, hold, kept, counted⟩ := portComesUp_leaves (s := readPage p.val page s) (p := p.val)
    have counted := (counted.of_readCtr counters).publish (o := s) (frameCounter_port (by decide))
    simp only [port_publish, up, live, hold, kept, now, held, true_and]
    exact ⟨hpage, rfl, counted⟩
  · simp [firstLive_leaves, startVerify_leaves]
  · simp [portGoesDown_leaves, port_inbandSays]
  · have counted : CountedBy 1 0x23 p.val 14 s (portGoesDown p.val (inbandSays p.val b false s)) :=
      (readCtr_portGoesDown (by decide) (by decide)).trans countedBy_inbandSays
    have counted := counted.publish (o := s) (frameCounter_port (by decide))
    simp [portGoesDown_leaves, port_inbandSays, counted]
  · simp [inbandUp_leaves, port_inbandSays]
  · obtain ⟨asked, taken⟩ := readPhy_access (v := v) ha
    exact ⟨mem_out_publish asked, by simp [taken]⟩
  · obtain ⟨-, now, counters, -⟩ := phyHeard_leaves (s := s) (p := p.val) (v := v)
    obtain ⟨phy, down, counted, -⟩ := phyAbsent_leaves (s := phyHeard p.val v s) (p := p.val)
    rw [readPhy_absent (firstBelow_some hfirst) hv]
    exact ⟨by simp [phy, now], by simp [down], (counted.of_readCtr counters).publish (frameCounter_port (by decide))⟩
  · obtain ⟨-, -, -, mdio, -, address⟩ := phyHeard_leaves (s := s) (p := p.val) (v := v)
    rw [readPhy_resetDone hphy hv]
    refine ⟨by simp [phySetUp_leaves], fun a ha => ?_⟩
    have waiting := queue_phySetUp ((congrFun address p.val).trans ha)
    simp [waiting, mdio, phyAsked_leaves, hq]
  · rw [mdioDuty_front hq p.isLt hrest hbrown hfree]
    exact ⟨rfl, mem_out_emit⟩
  · simp [phyBringUp_leaves hm ha]

end Sys2Proof.Machine
end

section
/-!
SUPPORT. Underruns of cut-through copies, and tunnelled frames that are given up (07 R159, R160, R162).
-/
namespace Sys2Proof.Machine

variable {s : State} {p q k n : Nat} {x : Tx} {f : Frame} {b : List Byte} {g : Frame → Frame}

/-! ### An underrun (R159, R160) -/

theorem stompCopy_leaves : (port (stompCopy p n x s) p).tx.map (·.ends) = some .stomp ∧
    stream (stompCopy p n x s) = stream s ∧ readCtr (stompCopy p n x s) = readCtr s := by
  refine ⟨by simp [stompCopy], rfl, rfl⟩

/-- A change of a frame's copies changes no threshold. -/
theorem threshold_updateFrame {i m : Nat} : (stream (updateFrame i m g s) q).threshold = (stream s q).threshold := by
  have streams : stream (updateFrame i m g s) = stream (setStream s m { stream s m with
      queue := (stream s m).queue.map fun f => if f.id = i then g f else f
      tunnels := (stream s m).tunnels.map fun e => (e.1, if e.2.id = i then g e.2 else e.2) }) := rfl
  rw [streams, stream_setStream]
  split
  next hq => rw [hq]
  next => rfl

theorem readCtr_updateFrame {i m : Nat} : readCtr (updateFrame i m g s) = readCtr s := rfl

theorem threshold_raiseThreshold : (stream (raiseThreshold f q s) q).threshold =
    if f.raised then (stream s q).threshold else min 142 ((stream s q).threshold + 1) := by
  simp only [raiseThreshold]
  split <;> simp

theorem readCtr_raiseThreshold : readCtr (raiseThreshold f q s) = readCtr s := by
  simp only [raiseThreshold]
  split <;> rfl

/-- What an underrun leaves: the copy stomped, its stream's threshold raised, the underrun counted. -/
theorem underrun_leaves (hq : q = x.frame.stream.getD 0) : (port (underrun p x s) p).tx.map (·.ends) = some .stomp ∧
    (stream (underrun p x s) q).threshold =
      (if x.frame.raised then (stream s q).threshold else min 142 ((stream s q).threshold + 1)) ∧
    CountedBy 1 0x2C (4 * q + p) 1 s (underrun p x s) := by
  simp only [underrun, ← hq, setClassQueue_subs, stompCopy_leaves, threshold_updateFrame, readCtr_updateFrame,
    threshold_raiseThreshold, readCtr_raiseThreshold, bumpCopy_subs, CountedBy, true_and]
  exact countedBy_bump rfl

theorem exec_ctUnderrun {p : Port} (hck : ckRuns s = true) (htx : (port s p.val).tx = some x)
    (hunder : underruns s p.val x = true) : exec (.ctUnderrun p) s = .next (publish s (underrun p.val x s)) := by
  simp only [exec, execCtUnderrun]
  rw [act_on (by simp [hck, htx, hunder])]
  simp only [htx]

/-! ### A tunnelled frame is given up (R162) -/

theorem readCtr_stompAll {i : Nat} : readCtr (stompAll i s) = readCtr s := by
  simp only [stompAll]
  exact each_keeps (g := readCtr) fun p u => by (repeat' split) <;> rfl

theorem readCtr_dropUnstarted {i : Nat} : readCtr (dropUnstarted i q s) = readCtr s := by
  simp only [dropUnstarted, placeStream]
  split <;> rfl

/-- What is left of a frame that is given up: its VC fills it no more, and nothing is counted yet. -/
theorem giveUpTunnel_leaves : mFind (stream (giveUpTunnel q k f s) q).tunnels k = none ∧
    readCtr (giveUpTunnel q k f s) = readCtr s := by
  constructor
  · simp [giveUpTunnel, skipRest, mFind_mErase]
  · simp only [giveUpTunnel, skipRest, setVc_subs, setStream_subs, readCtr_dropUnstarted, readCtr_stompAll]

/-- A tunnelled frame at fault is given up, and counted under its fault. -/
theorem giveUpTunnel_counted {l : Stream} (hn : n < 256) :
    mFind (stream (publish s (bumpStream l.val n (giveUpTunnel l.val k f s))) l.val).tunnels k = none ∧
    CountedBy 1 0x2B l.val n s (publish s (bumpStream l.val n (giveUpTunnel l.val k f s))) := by
  obtain ⟨gone, uncounted⟩ := giveUpTunnel_leaves (s := s) (q := l.val) (k := k) (f := f)
  have counted : CountedBy 1 0x2B l.val n s (bumpStream l.val n (giveUpTunnel l.val k f s)) :=
    countedBy_bump (by rw [uncounted])
  exact ⟨by simp [gone], counted.publish (frameCounter_other (by decide) (by decide) (by omega) hn)⟩

theorem any_of_find? {α : Type} {as : List α} {test : α → Bool} {a : α} (h : as.find? test = some a) :
    as.any test = true :=
  List.any_eq_true.2 ⟨a, List.mem_of_find?_eq_some h, List.find?_some h⟩

theorem exec_tunnelFcsError {l : Stream} (hck : ckRuns s = true)
    (hf : (stream s l.val).tunnels.find? (fun e => e.2.carriedBad) = some (k, f)) :
    exec (.tunnelFcsError l) s = .next (publish s (bumpStream l.val 4 (giveUpTunnel l.val k f s))) := by
  simp only [exec, execTunnelFcsError]
  rw [act_on (by simp only [hck, any_of_find? hf, Bool.and_self])]
  simp only [hf]

theorem exec_tunnelOverlength {l : Stream} (hck : ckRuns s = true)
    (hf : (stream s l.val).tunnels.find? (fun e => tunnelTooLong s l.val e.2) = some (k, f)) :
    exec (.tunnelOverlength l) s = .next (publish s (bumpStream l.val 0 (giveUpTunnel l.val k f s))) := by
  simp only [exec, execTunnelOverlength]
  rw [act_on (by simp only [hck, any_of_find? hf, Bool.and_self])]
  simp only [hf]

/-- Settles O31: what an underrun leaves, and the tunnelled frames that are given up. -/
theorem cutThroughComplete : Obligations.CutThroughComplete := by
  unfold Obligations.CutThroughComplete
  intro s hck
  refine ⟨fun p x htx hunder => ⟨_, exec_ctUnderrun hck htx hunder, ?_, fun q hq => ?_, ?_⟩,
    fun q k f hf => ⟨_, exec_tunnelFcsError hck hf, giveUpTunnel_counted (by decide)⟩,
    fun q k f hf => ⟨_, exec_tunnelOverlength hck hf, giveUpTunnel_counted (by decide)⟩⟩
  all_goals obtain ⟨stomped, raised, counted⟩ := underrun_leaves (s := s) (p := p.val) (x := x) rfl
  · simpa [Option.map_eq_some_iff] using stomped
  · have named : x.frame.stream.getD 0 = q := by simp [hq]
    simpa [named] using raised
  · exact counted.publish (frameCounter_low (by decide) (by decide))

end Sys2Proof.Machine
end

section
/-!
SUPPORT. The frame of the commands of the Dziak links and of their training (08; 09).
-/
namespace Sys2Proof.Machine

/-- The commands of the links and of their training store nothing in the process image. -/
theorem mem_notMem_writes_of_link {c : Instr} (hf : familyOf c ∈ [.dziak, .training]) : .mem ∉ writes c := by
  cases c
  case packetReceived | pairResetTimeout | ackTimer | ackReceived | nakReceived | replayTimeout | linkDown |
    packetSend | creditWaitDeadline | creditReturn | auditSend | auditReceived | controlBlockDiscard | detectBeacon |
    backoffReset | ts1Detected | blockLock | alignComplete | paramReceived | paramAckReceived | speedCountdownEnd |
    eqReqReceived | eqDoneReceived | readyReceived | trainingTimeout | retrain | eyeMapComplete | dfeAdapt |
    calBlockSend | calBlockReceived => simp [writes]
  all_goals simp [familyOf] at hf

/-- Settles O59: the frame of every command, and no command of these families writes the image. -/
theorem linkFrames : Obligations.LinkFrames := by
  unfold Obligations.LinkFrames
  intro c s t hf h
  have frame : SameBut (writes c) s t := exec_frame h
  exact ⟨frame, readByte_of_sameBut frame (mem_notMem_writes_of_link hf)⟩

end Sys2Proof.Machine
end

section
/-!
SUPPORT. Blocks on a lane (08 R175 to R178, R183): a scrambled body and the bits sent before it, the parity of 67 bits,
and a packet's blocks through the striped sequence and back to its payload.
-/
namespace Sys2Proof.Machine

variable {h g : BitVec 58} {d r a : Block} {b x : Bool} {n i j m : Nat}

/-! ### The scrambler (R176) -/

/-- The bit on the lane `m` bits before the last one before bit `i` of a body: of the body as sent, or of a history. -/
def laneBit (h : BitVec 58) (r : Block) (i m : Nat) : Bool :=
  if m < i then r.getLsbD (i - 1 - m) else h.getLsbD (m - i)

theorem getLsbD_remember (hm : m < 58) :
    (remember h b).getLsbD m = if m = 0 then b else h.getLsbD (m - 1) := by
  cases m with
  | zero => cases b <;> simp [remember]
  | succ m =>
    have within : h[m] = h.getLsbD m := (BitVec.getLsbD_eq_getElem (by omega)).symm
    cases b <;> simp [remember, hm, within]

theorem getLsbD_putBit (hj : j < 64) : (putBit a i b).getLsbD j = if j = i then a.getLsbD j || b else a.getLsbD j := by
  cases b
  · simp [putBit]
  · have mark : (((1 <<< i : Nat) : Block)).getLsbD j = decide (j = i) := by
      rw [BitVec.natCast_eq_ofNat, BitVec.getLsbD_ofNat, Nat.one_shiftLeft, Nat.testBit_two_pow]
      simp [hj, eq_comm]
    simp only [putBit, ↓reduceIte, BitVec.getLsbD_or, mark]
    split <;> simp [*]

/-- A body whose bits from `i` on are still to come. -/
def ClearFrom (a : Block) (i : Nat) : Prop := ∀ j, i ≤ j → a.getLsbD j = false

theorem ClearFrom.putBit (ha : ClearFrom a i) : ClearFrom (putBit a i b) (i + 1) := by
  intro j hj
  by_cases hj64 : j < 64
  · rw [getLsbD_putBit hj64, if_neg (by omega)]
    exact ha j (by omega)
  · exact BitVec.getLsbD_of_ge _ _ (by omega)

/-- A bit that is put in its place reads back, and the bits below it stay. -/
theorem getLsbD_putBit_clear (ha : ClearFrom a i) (hi : i < 64) (hj : j ≤ i) :
    (putBit a i b).getLsbD j = if j = i then b else a.getLsbD j := by
  rw [getLsbD_putBit (by omega)]
  split
  next he => simp [ha j (by omega)]
  next => rfl

/-- The history holds the bits on the lane before bit `i`. -/
def Follows (h : BitVec 58) (r : Block) (i : Nat) (g : BitVec 58) : Prop := ∀ m < 58, g.getLsbD m = laneBit h r i m

/-- The bits of `r` below `i` are those of `d`, each with the bits 39 and 58 before it. -/
def ScrambledTo (h : BitVec 58) (d r : Block) (i : Nat) : Prop :=
  ∀ j < i, r.getLsbD j = ((d.getLsbD j ^^ laneBit h r j 38) ^^ laneBit h r j 57)

theorem laneBit_putBit (ha : ClearFrom a i) (hi : i < 64) (hj : j ≤ i) :
    laneBit h (putBit a i b) j m = laneBit h a j m := by
  simp only [laneBit]
  split
  next => rw [getLsbD_putBit_clear ha hi (by omega), if_neg (by omega)]
  next => rfl

theorem Follows.remember (hg : Follows h a i g) (ha : ClearFrom a i) (hi : i < 64) :
    Follows h (putBit a i b) (i + 1) (remember g b) := by
  intro m hm
  rw [getLsbD_remember hm]
  cases m with
  | zero => simp [laneBit, getLsbD_putBit_clear ha hi]
  | succ m =>
    have shifted : laneBit h (putBit a i b) (i + 1) (m + 1) = laneBit h (putBit a i b) i m := by
      simp only [laneBit, Nat.add_lt_add_iff_right, Nat.add_sub_add_right, Nat.add_sub_cancel]
      congr 2
      omega
    rw [shifted, laneBit_putBit ha hi le_rfl]
    exact hg m (by omega)

theorem ScrambledTo.putBit (hs : ScrambledTo h d a i) (hg : Follows h a i g) (ha : ClearFrom a i) (hi : i < 64) :
    ScrambledTo h d (putBit a i (d.getLsbD i ^^ feedback g)) (i + 1) := by
  intro j hj
  rw [getLsbD_putBit_clear ha hi (by omega), laneBit_putBit ha hi (by omega), laneBit_putBit ha hi (by omega)]
  split
  next he =>
    subst he
    rw [feedback, hg 38 (by decide), hg 57 (by decide), Bool.xor_assoc]
  next he => exact hs j (by omega)

/-- Scrambling keeps what it has sent, each next bit with those 39 and 58 before it, and its history follows. -/
theorem scrambleFrom_follows (hn : i + n = 64) (ha : ClearFrom a i) (hg : Follows h a i g) (hs : ScrambledTo h d a i) :
    ScrambledTo h d (scrambleFrom d n i g a).1 64 ∧
      Follows h (scrambleFrom d n i g a).1 64 (scrambleFrom d n i g a).2 := by
  induction n generalizing i g a with
  | zero =>
    obtain rfl : i = 64 := by omega
    exact ⟨hs, hg⟩
  | succ n ih =>
    exact ih (by omega) (ha.putBit) (hg.remember ha (by omega)) (hs.putBit hg ha (by omega))

theorem clearFrom_zero : ClearFrom 0 i := fun j _ => by simp

theorem scramble_follows :
    ScrambledTo h d (scramble h d).1 64 ∧ Follows h (scramble h d).1 64 (scramble h d).2 :=
  scrambleFrom_follows rfl clearFrom_zero (fun m _ => by simp [laneBit]) (fun j hj => by omega)

/-- What has been sent stays as it is. -/
theorem getLsbD_scrambleFrom (hn : i + n = 64) (ha : ClearFrom a i) (hj : j < i) :
    (scrambleFrom d n i g a).1.getLsbD j = a.getLsbD j := by
  induction n generalizing i g a with
  | zero => rfl
  | succ n ih =>
    rw [scrambleFrom, ih (by omega) ha.putBit (by omega), getLsbD_putBit_clear ha (by omega) (by omega),
      if_neg (by omega)]

/-- Descrambling goes back over the bits as they came: each is the body's again, with the sender's history. -/
theorem descrambleFrom_scrambleFrom {c : Block} (hn : i + n = 64) (ha : ClearFrom a i) (hc : ClearFrom c i)
    (hd : ∀ j < i, c.getLsbD j = d.getLsbD j) :
    descrambleFrom (scrambleFrom d n i g a).1 n i g c = (d, (scrambleFrom d n i g a).2) := by
  induction n generalizing i g a c with
  | zero =>
    refine Prod.ext (BitVec.eq_of_getLsbD_eq fun j hj => hd j (by omega)) rfl
  | succ n ih =>
    have sent : (scrambleFrom d (n + 1) i g a).1.getLsbD i = (d.getLsbD i ^^ feedback g) := by
      rw [scrambleFrom, getLsbD_scrambleFrom (by omega) ha.putBit (by omega),
        getLsbD_putBit_clear ha (by omega) le_rfl, if_pos rfl]
    have back : ((d.getLsbD i ^^ feedback g) ^^ feedback g) = d.getLsbD i := by
      rw [Bool.xor_assoc, Bool.xor_self, Bool.xor_false]
    rw [descrambleFrom, sent, back]
    refine ih (by omega) ha.putBit hc.putBit fun j hj => ?_
    rw [getLsbD_putBit_clear hc (by omega) (by omega)]
    split
    next he => rw [he]
    next he => exact hd j (by omega)

theorem descramble_scramble : descramble h (scramble h d).1 = (d, (scramble h d).2) :=
  descrambleFrom_scrambleFrom rfl clearFrom_zero clearFrom_zero fun j hj => by omega

/-! ### The 67 bits (R175, R177) -/

theorem popCount_congr {w x y : Nat} (hb : ∀ i < w, x.testBit i = y.testBit i) : popCount w x = popCount w y := by
  simp only [popCount]
  rw [List.filter_congr fun i hi => hb i (List.mem_range.1 hi)]

theorem popCount_succ {w x : Nat} : popCount (w + 1) x = popCount w x + if x.testBit w then 1 else 0 := by
  simp only [popCount, List.range_succ, List.filter_append, List.length_append]
  split <;> simp [*]

/-- A bit set above a number is one bit more. -/
theorem popCount_two_pow_add {w x : Nat} (hx : x < 2 ^ w) : popCount (w + 1) (2 ^ w + x) = popCount (w + 1) x + 1 := by
  have low : popCount w (2 ^ w + x) = popCount w x := popCount_congr fun i hi => Nat.testBit_two_pow_add_gt hi x
  have top : x.testBit w = false := Nat.testBit_lt_two_pow hx
  simp [popCount_succ, low, top, Nat.testBit_two_pow_add_eq]

/-- The sync header and the body of a lane's word, without its parity. -/
def laneBits (n : Nat) (b : Block) : Nat := n % 4 + b.toNat * 4

theorem laneBits_lt {b : Block} : laneBits n b < 2 ^ 66 := by
  simp only [laneBits]
  omega

/-- Parity adds the top bit where the ones are even (R177). -/
theorem toNat_laneWord {b : Block} :
    popCount 67 (laneBits n b) % 2 = 1 ∧ (laneWord n b).toNat = laneBits n b ∨
    popCount 67 (laneBits n b) % 2 = 0 ∧ (laneWord n b).toNat = 2 ^ 66 + laneBits n b := by
  have bits : (BitVec.ofNat 67 (n % 4 + b.toNat * 4)).toNat = laneBits n b :=
    (BitVec.toNat_ofNat ..).trans (Nat.mod_eq_of_lt (laneBits_lt.trans (by decide)))
  have top : (((1 <<< 66 : Nat) : BitVec 67)).toNat = 2 ^ 66 := by decide
  simp only [laneWord, oddOnes, bits, beq_iff_eq]
  split
  next hodd => exact .inl ⟨hodd, bits⟩
  next heven =>
    refine .inr ⟨by omega, ?_⟩
    rw [BitVec.toNat_or, bits, top, Nat.or_comm]
    simpa using (Nat.two_pow_add_eq_or_of_lt (laneBits_lt (n := n) (b := b)) 1).symm

theorem oddOnes_laneWord {b : Block} : oddOnes (laneWord n b) = true := by
  have more : popCount 67 (2 ^ 66 + laneBits n b) = popCount 67 (laneBits n b) + 1 := popCount_two_pow_add laneBits_lt
  rw [oddOnes, beq_iff_eq]
  obtain ⟨hodd, hw⟩ | ⟨heven, hw⟩ := toNat_laneWord (n := n) (b := b)
  · rw [hw, hodd]
  · rw [hw, more]
    omega

theorem wordSync_laneWord {b : Block} : wordSync (laneWord n b) = n % 4 := by
  have word := toNat_laneWord (n := n) (b := b)
  simp only [wordSync, bitsOf, laneBits] at word ⊢
  omega

theorem wordBody_laneWord {b : Block} : wordBody (laneWord n b) = b := by
  have word := toNat_laneWord (n := n) (b := b)
  apply BitVec.eq_of_toNat_eq
  simp only [wordBody, bitsOf, BitVec.toNat_ofNat, laneBits] at word ⊢
  omega

/-! ### The striped sequence (R183) -/

theorem frameBlocks_append {bad : Bool} {f : RxFrame} {l m : List (Nat × Block)} :
    frameBlocks bad f (l ++ m) = ((frameBlocks bad (frameBlocks bad f l).1 m).1,
      (frameBlocks bad f l).2 ++ (frameBlocks bad (frameBlocks bad f l).1 m).2) := by
  induction l generalizing f with
  | nil => rfl
  | cons c l ih => simp only [List.cons_append, frameBlocks, ih, List.append_assoc]

/-- Rows free of error are read as the one sequence of their blocks, however many lanes they are striped over. -/
theorem foldl_frameRow {f : RxFrame} {e : List RxEvent} {rows : List (List (Nat × Block))} :
    rows.foldl (fun a r => ((frameRow false a.1 r).1, a.2 ++ (frameRow false a.1 r).2)) (f, e) =
      ((frameBlocks false f rows.flatten).1, e ++ (frameBlocks false f rows.flatten).2) := by
  induction rows generalizing f e with
  | nil => simp [frameBlocks]
  | cons r rows ih =>
    simp only [List.foldl_cons, ih, List.flatten_cons, frameBlocks_append, List.append_assoc]
    rfl

theorem frameBlocks_payload {hdr : Block} {l m : List Block} :
    frameBlocks false (.inside hdr l) (m.map fun b => (syncData, b)) = (.inside hdr (l ++ m), []) := by
  induction m generalizing l with
  | nil => simp [frameBlocks]
  | cons b m ih =>
    have joins : frameBlock false (.inside hdr l) syncData b = (.inside hdr (l ++ [b]), []) := rfl
    simp [frameBlocks, joins, ih]

/-- A packet's blocks are that packet, from any state but within another. -/
theorem frameBlocks_packet {hdr tail : Block} {l : List Block} {f : RxFrame} (ht : blockType hdr = 0x2D)
    (hf : ∀ h d, f ≠ .inside h d) :
    frameBlocks false f ((syncControl, hdr) :: (l.map fun b => (syncData, b)) ++ [(syncTail, tail)]) =
      (.outside, [.packet hdr l tail]) := by
  have opens : frameBlock false f syncControl hdr = (.inside hdr [], []) := by
    cases f with
    | inside h d => exact absurd rfl (hf h d)
    | outside | skipping => simp [frameBlock, ht]
  rw [List.cons_append, frameBlocks]
  simp only [opens, frameBlocks_append, frameBlocks_payload]
  simp [frameBlocks, frameBlock, syncTail, syncControl, syncData]

theorem placed_packetBlocks {built ready seq : Nat} {hdr tail : Block} {p : List Byte} :
    (packetBlocks built ready seq hdr p tail).map (fun c => (c.sync, c.body)) =
      (syncControl, hdr) :: ((payloadBlocks p).map fun b => (syncData, b)) ++ [(syncTail, tail)] := by
  simp [packetBlocks]

/-! ### The payload (R178) -/

theorem leNat_lt {l : List Byte} : leNat l < 256 ^ l.length := by
  induction l with
  | nil => simp [leNat]
  | cons c l ih =>
    have low := c.isLt
    simp only [leNat, List.length_cons, Nat.pow_succ]
    omega

/-- A number's bytes are the bytes it was read from, filled with zero. -/
theorem leBytes_leNat {l : List Byte} (hl : l.length ≤ n) :
    leBytes n (leNat l) = l ++ List.replicate (n - l.length) 0 := by
  induction n generalizing l with
  | zero => simp [leBytes, List.length_eq_zero_iff.1 (Nat.le_zero.1 hl)]
  | succ n ih =>
    cases l with
    | nil => simpa [leBytes, leNat, List.replicate_succ] using ih (l := []) (by simp)
    | cons c l =>
      have low := c.isLt
      have rest : (c.toNat + 256 * leNat l) / 256 = leNat l := by omega
      have first : BitVec.ofNat 8 (c.toNat + 256 * leNat l) = c := by
        apply BitVec.eq_of_toNat_eq
        rw [BitVec.toNat_ofNat]
        omega
      simp only [leBytes, leNat, rest, first, ih (by simpa using hl)]
      simp

/-- A payload block holds its eight bytes, the last one filled with zero. -/
theorem bytes_of_block {l : List Byte} (hl : l.length ≤ 8) :
    leBytes 8 (BitVec.ofNat 64 (leNat l)).toNat = l ++ List.replicate (8 - l.length) 0 := by
  have small : leNat l < 2 ^ 64 :=
    leNat_lt.trans_le (by simpa [← Nat.pow_mul] using Nat.pow_le_pow_right (n := 256) (by decide) hl)
  rw [BitVec.toNat_ofNat, Nat.mod_eq_of_lt small, leBytes_leNat hl]

theorem length_leBytes {v : Nat} : (leBytes n v).length = n := by
  induction n generalizing v with
  | zero => rfl
  | succ n ih => simp [leBytes, ih]

theorem payloadBlocks_cons {p : List Byte} (hp : p ≠ []) :
    payloadBlocks p = BitVec.ofNat 64 (leNat (p.take 8)) :: payloadBlocks (p.drop 8) := by
  have nonempty := List.length_pos_iff.2 hp
  have count : cdiv p.length 8 = cdiv (p.drop 8).length 8 + 1 := by
    simp only [cdiv, List.length_drop]
    omega
  simp only [payloadBlocks, count, List.range_succ_eq_map, List.map_cons, List.map_map]
  congr 1
  refine List.map_congr_left fun j _ => ?_
  simp only [Function.comp_apply, slice, List.drop_drop, Nat.succ_eq_add_one]
  congr 4
  omega

/-- The payload blocks of a packet give back its payload. -/
theorem blockBytes_payloadBlocks (p : List Byte) : blockBytes p.length (payloadBlocks p) = p := by
  induction hn : p.length using Nat.strong_induction_on generalizing p with
  | _ n ih =>
    by_cases hp : p = []
    · subst hp hn
      rfl
    · have nonempty := List.length_pos_iff.2 hp
      have rest := ih (p.drop 8).length (by simp only [List.length_drop]; omega) (p.drop 8) rfl
      simp only [blockBytes] at rest
      rw [payloadBlocks_cons hp, blockBytes, List.flatMap_cons, bytes_of_block (by simp)]
      by_cases hlong : 8 ≤ p.length
      · have full : (p.take 8).length = 8 := by simp [hlong]
        rw [full, Nat.sub_self, List.replicate_zero, List.append_nil, ← hn, List.take_append, full,
          List.take_of_length_le (by omega), ← List.length_drop, rest, List.take_append_drop]
      · have short : p.take 8 = p := List.take_of_length_le (by omega)
        rw [short, ← hn, List.append_assoc, List.take_left]

/-- Settles O44: the scrambler's bits and their way back, the 67 bits of a block, and a packet's way over the lanes. -/
theorem blocksSurviveTheLane : Obligations.BlocksSurviveTheLane := by
  unfold Obligations.BlocksSurviveTheLane
  refine ⟨fun h d r hr => ?_, fun h d => descramble_scramble, fun n b hlow hhigh => ?_,
    fun built ready seq hdr tail p f rows ht hrows hf => ?_, blockBytes_payloadBlocks⟩
  · obtain ⟨bits, history⟩ := scramble_follows (h := h) (d := d)
    rw [← hr] at bits history
    refine ⟨fun i hi => ?_, fun j hj => ?_⟩
    · rw [bits i hi]
      simp only [laneBit, Nat.lt_iff_add_one_le, Nat.sub_sub, Nat.reduceAdd]
    · rw [history j hj, laneBit, if_pos (by omega)]
  · have sync : wordSync (laneWord n b) = n := wordSync_laneWord.trans (Nat.mod_eq_of_lt (by omega))
    refine ⟨?_, sync, wordBody_laneWord⟩
    simp only [wordGood, oddOnes_laneWord, sync, Bool.true_and, bne_iff_ne]
    omega
  · rw [foldl_frameRow, hrows, placed_packetBlocks, frameBlocks_packet ht hf]
    simp

end Sys2Proof.Machine
end

section
/-!
SUPPORT. The control blocks that a link builds (08 R182, R188, R189, R196, R207): an ACK or a NAK, and what building it
leaves of the link, of its VCs and of the counters.
-/
namespace Sys2Proof.Machine

variable {s t : State} {k n i type : Nat} {v : Option Nat} {b : Block}

/-! ### Bodies (R180, R182) -/

/-- Placing the CRC-8 leaves the type byte. -/
theorem blockType_withCrc8 {x : Nat} : blockType (withCrc8 x) = x % 256 := by
  simp only [blockType, bf, bitsOf, withCrc8, BitVec.toNat_ofNat]
  omega

theorem blockType_mkAck {S : Nat} {crv e : Bool} {w cl : Nat} (ht : type < 256) :
    blockType (mkAck type S crv w cl e) = type := by
  have weights : bitW crv (2 ^ 20) % 256 = 0 ∧ bitW e (2 ^ 24) % 256 = 0 := by
    cases crv <;> cases e <;> exact ⟨rfl, rfl⟩
  rw [mkAck, blockType_withCrc8]
  omega

/-- An ACK's or NAK's body carries S, whatever credit it returns. -/
theorem ackBody_carries_S : ∃ crv w cl e, ackBody s type k v = mkAck type (link s k).rxS crv w cl e := by
  cases v <;> exact ⟨_, _, _, _, rfl⟩

theorem blockType_ackBody (ht : type < 256) : blockType (ackBody s type k v) = type := by
  obtain ⟨crv, w, cl, e, body⟩ := ackBody_carries_S (s := s) (type := type) (k := k) (v := v)
  rw [body, blockType_mkAck ht]

/-! ### Building one (R189, R196) -/

@[simp] theorem link_wakeLink : (link (wakeLink k s) k).control = (link s k).control ∧
    (link (wakeLink k s) k).rxS = (link s k).rxS ∧ (link (wakeLink k s) k).rxError = (link s k).rxError ∧
    (link (wakeLink k s) k).retrains = (link s k).retrains := by
  simp only [wakeLink]
  split <;> simp

@[simp] theorem wakeLink_subs : vc (wakeLink k s) = vc s ∧ readCtr (wakeLink k s) = readCtr s ∧
    (wakeLink k s).now = s.now := by
  simp only [wakeLink]
  split <;> simp

/-- A control block built now, by its body. -/
def BuiltWith (s : State) (b : Block) (c : TxBlock) : Prop := c.built = s.now ∧ c.body = b

theorem ackBody_wakeLink : ackBody (wakeLink k s) type k v = ackBody s type k v := by
  cases v <;> simp [ackBody]

/-- A built ACK or NAK waits behind the link's other control blocks; it carries S, so U is 0 and the timer stops. -/
theorem link_buildAck : (∃ c, BuiltWith s (ackBody s type k v) c ∧
      (link (buildAck type k v s) k).control = (link s k).control ++ [c]) ∧
    (link (buildAck type k v s) k).rxU = 0 ∧ (link (buildAck type k v s) k).ackDue = none ∧
    (link (buildAck type k v s) k).rxS = (link s k).rxS ∧
    (link (buildAck type k v s) k).rxError = (link s k).rxError ∧
    (link (buildAck type k v s) k).retrains = (link s k).retrains := by
  have built : BuiltWith s (ackBody s type k v)
      { built := s.now, ready := readyCk (wakeLink k s) k 8, sync := syncControl, body := ackBody s type k v,
        tailOf := none } := ⟨rfl, rfl⟩
  cases v <;> simp [buildAck, noteReturn, noteS, queueControl, ackBody_wakeLink, built]

/-- One that returns a VC's credit reports it, and the rotation goes on behind the VC. -/
theorem buildAck_reports {w : Nat} : vc (buildAck type k (some w) s) k w = { vc s k w with
      reported := (vc s k w).freed, firstFree := none, lastReturn := s.now } ∧
    (link (buildAck type k (some w) s) k).returnNext = (w + 1) % 8 := by
  simp [buildAck, noteReturn, noteS, queueControl]

theorem readCtr_buildAck : readCtr (buildAck type k v s) = readCtr s := by
  cases v <;> simp [buildAck, noteReturn, noteS, queueControl]

/-! ### An ACK (R207) -/

/-- An ACK that is called for is built, or the NAK of the ck stands for it. -/
theorem sendAckFor_cases : sendAckFor k v s = buildAck 0x33 k v s ∧ builtNow s k 0x3C = [] ∨
    sendAckFor k v s = s ∧ builtNow s k 0x3C ≠ [] := by
  by_cases h : builtNow s k 0x3C = [] <;> simp [sendAckFor, h]

theorem sendAckFor_built (h : builtNow s k 0x3C = []) : sendAckFor k v s = buildAck 0x33 k v s := by
  simp [sendAckFor, h]

theorem link_sendAck : (link (sendAck k s) k).rxS = (link s k).rxS ∧
    (link (sendAck k s) k).rxError = (link s k).rxError ∧ (link (sendAck k s) k).retrains = (link s k).retrains := by
  obtain ⟨-, -, -, kept⟩ := link_buildAck (s := s) (k := k) (type := 0x33) (v := returnVc s k)
  obtain ⟨hack, -⟩ | ⟨hack, -⟩ := sendAckFor_cases (s := s) (k := k) (v := returnVc s k)
  · rw [sendAck, hack]
    exact kept
  · rw [sendAck, hack]
    exact ⟨rfl, rfl, rfl⟩

/-- A sent ACK is among the link's control blocks, with S and some credit return. -/
theorem sendAck_waits (h : builtNow s k 0x3C = []) : ∃ c crv w cl e, c ∈ (link (sendAck k s) k).control ∧
    c.built = s.now ∧ c.body = mkAck 0x33 (link s k).rxS crv w cl e := by
  obtain ⟨⟨c, hc, waits⟩, -⟩ := link_buildAck (s := s) (k := k) (type := 0x33) (v := returnVc s k)
  obtain ⟨crv, w, cl, e, body⟩ := ackBody_carries_S (s := s) (k := k) (type := 0x33) (v := returnVc s k)
  rw [sendAck, sendAckFor_built h]
  exact ⟨c, crv, w, cl, e, by simp [waits], hc.1, hc.2.trans body⟩

/-! ### A NAK (R188, R207) -/

/-- The link without the ACKs that it built in this ck. -/
def withoutAcks (k : Nat) (s : State) : State :=
  setLink s k { link s k with
    control := (link s k).control.filter (fun c => !(c.built == s.now && blockType c.body == 0x33)) }

@[simp] theorem withoutAcks_leaves : (link (withoutAcks k s) k).rxS = (link s k).rxS ∧
    (link (withoutAcks k s) k).rxError = (link s k).rxError ∧ (withoutAcks k s).now = s.now ∧
    builtNow (withoutAcks k s) k 0x33 = [] := by
  simp [withoutAcks, builtNow]

theorem sendNak_eq : sendNak k s = bumpLink k 4 (buildAck 0x3C k (nakVc s k) (withoutAcks k s)) := rfl

/-- A NAK leaves no ACK of its ck, and carries S. -/
theorem link_sendNak : builtNow (sendNak k s) k 0x33 = [] ∧
    (∃ c crv w cl e, c ∈ (link (sendNak k s) k).control ∧ c.built = s.now ∧
      c.body = mkAck 0x3C (link s k).rxS crv w cl e) ∧
    (link (sendNak k s) k).rxS = (link s k).rxS ∧ (link (sendNak k s) k).rxError = (link s k).rxError := by
  obtain ⟨⟨c, ⟨hbuilt, hbody⟩, waits⟩, -, -, hS, herror, -⟩ :=
    link_buildAck (s := withoutAcks k s) (k := k) (type := 0x3C) (v := nakVc s k)
  obtain ⟨crv, w, cl, e, body⟩ := ackBody_carries_S (s := withoutAcks k s) (k := k) (type := 0x3C) (v := nakVc s k)
  have htype : blockType c.body = 0x3C := by rw [hbody, blockType_ackBody (by decide)]
  have hnow : (sendNak k s).now = s.now := now_of_sameBut (l := [.links, .vcs, .counters]) (by simp) (by decide)
  obtain ⟨keptS, keptError, keptNow, noAck⟩ := withoutAcks_leaves (s := s) (k := k)
  rw [keptS] at hS body
  rw [keptError] at herror
  rw [builtNow, keptNow] at noAck
  refine ⟨?_, ⟨c, crv, w, cl, e, by simp [sendNak_eq, waits], hbuilt, hbody.trans body⟩, by simp [sendNak_eq, hS],
    by simp [sendNak_eq, herror]⟩
  rw [builtNow, hnow, sendNak_eq, bumpLink_subs.2.1, waits, List.filter_append, noAck]
  simp [htype]

theorem readCtr_sendNak : readCtr (sendNak k s) = readCtr (bumpLink k 4 s) := by
  have quiet : readCtr (buildAck 0x3C k (nakVc s k) (withoutAcks k s)) = readCtr s := by
    rw [readCtr_buildAck]
    simp [withoutAcks]
  funext c i n
  simp only [sendNak_eq, bumpLink, bump, readCtr_bumpBy, quiet]

end Sys2Proof.Machine
end

section
/-!
SUPPORT. Packets received on a link (08 R183, R186 to R188, R201, R207): what reading rows leaves, the outcome of each
event that they yield, and pair elimination.
-/
namespace Sys2Proof.Machine

variable {s t u w : State} {k n v : Nat} {hdr tail : Block} {data : List Block} {p : List Byte} {e : RxEvent}

/-! ### Reading rows (R176 to R178, R188) -/

theorem lt_of_mem_planLanes {i : Nat} (h : n ∈ planLanes i k) : n < 32 := by
  simp only [planLanes] at h
  (repeat' split at h) <;> simp [lanesFrom] at h <;> omega

theorem lt_of_mem_maskLanes {m : Nat} (h : n ∈ maskLanes s k m) : n < 32 := by
  obtain ⟨i, -, hi⟩ := List.mem_filterMap.1 h
  exact lt_of_mem_planLanes (List.mem_of_getElem? hi)

/-- Reading lanes counts under class 0x26 alone. -/
theorem readCtr_readLanes {l : List (Nat × LaneWord)} (hl : ∀ x ∈ l, x.1 < 32) {i : Nat} (hi : i < 2 ^ 16)
    (hn : n < 256) : readCtr (readLanes l s).2 0x27 i n = readCtr s 0x27 i n := by
  induction l generalizing s with
  | nil => rfl
  | cons x l ih =>
    obtain ⟨lane, word⟩ := x
    have here := hl _ (List.mem_cons_self ..)
    have apart : ctrId 0x27 i n ≠ ctrId 0x26 lane 0 := by
      simp only [ctrId]
      omega
    simp only [readLanes]
    rw [ih fun y hy => hl y (List.mem_cons_of_mem _ hy)]
    simp only [readLane, whenB]
    split <;> simp [bumpLane, bump, apart]

/-- A row leaves the link where it stands in the striped sequence, and nothing else of it. -/
theorem readRow_leaves {row : List LaneWord} : (∃ f, link (readRow k row s).2 k = { link s k with rxFrame := f }) ∧
    ∀ i < 2 ^ 16, ∀ n < 256, readCtr (readRow k row s).2 0x27 i n = readCtr s 0x27 i n := by
  have lanes : ∀ x ∈ (maskLanes s k (link s k).finalMask).zip row, x.1 < 32 :=
    fun x hx => lt_of_mem_maskLanes (List.of_mem_zip hx).1
  have kept : link (readLanes ((maskLanes s k (link s k).finalMask).zip row) s).2 = link s :=
    link_of_sameBut (l := [.lanes, .counters]) (by simp) (by decide)
  simp only [readRow, link_setLink, ↓reduceIte, kept, setLink_subs]
  exact ⟨⟨_, rfl⟩, fun i hi n hn => readCtr_readLanes lanes hi hn⟩

theorem readRows_leaves {rows : List (List LaneWord)} :
    (∃ f, link (readRows k rows s).2 k = { link s k with rxFrame := f }) ∧
    ∀ i < 2 ^ 16, ∀ n < 256, readCtr (readRows k rows s).2 0x27 i n = readCtr s 0x27 i n := by
  induction rows generalizing s with
  | nil => exact ⟨⟨_, rfl⟩, fun _ _ _ _ => rfl⟩
  | cons row rows ih =>
    obtain ⟨⟨f, first⟩, counted⟩ := readRow_leaves (s := s) (k := k) (row := row)
    obtain ⟨⟨g, rest⟩, counts⟩ := ih (s := (readRow k row s).2)
    refine ⟨⟨g, ?_⟩, fun i hi n hn => (counts i hi n hn).trans (counted i hi n hn)⟩
    simp only [readRows, rest, first]

/-- What rows that yield one event leave: the event, and the link and its counters as they were. -/
structure Yields (k : Nat) (e : RxEvent) (s u : State) : Prop where
  now : u.now = s.now
  st : (link u k).st = .active
  rxS : (link u k).rxS = (link s k).rxS
  rxError : (link u k).rxError = (link s k).rxError
  counted : ∀ n < 256, readCtr u 0x27 k n = readCtr s 0x27 k n

theorem active_of_carries (h : carries s k = true) : (link s k).st = .active := by
  simp only [carries, Bool.and_eq_true, beq_iff_eq] at h
  exact h.1.2

theorem yields_readRows {k : Link} {rows : Rows} (hc : carries s k.val = true)
    (hr : readRows k.val rows s = ([e], u)) : Yields k.val e s u := by
  obtain ⟨⟨f, kept⟩, counts⟩ := readRows_leaves (s := s) (k := k.val) (rows := rows)
  rw [hr] at kept counts
  have now : u.now = s.now := by
    have frame : SameBut [.links, .lanes, .counters] s (readRows k.val rows s).2 := by simp
    rw [hr] at frame
    exact now_of_sameBut frame (by decide)
  exact ⟨now, by simp [kept, active_of_carries hc], by simp [kept], by simp [kept],
    fun n hn => counts _ (by omega) n hn⟩

/-- Rows that yield one event: the command is what the event does. -/
theorem exec_packetReceived {k : Link} {before head middle last rows : Rows} (hc : carries s k.val = true)
    (hrows : rows = before ++ head ++ middle ++ last)
    (hl : ∀ r ∈ rows, r.length = popCount 8 (link s k.val).finalMask) (hr : readRows k.val rows s = ([e], u)) :
    exec (.packetReceived k before head middle last) s = .next (publish s (receiveEvent k.val e u)) := by
  subst hrows
  simp only [exec, execPacketReceived]
  rw [act_on (Bool.and_eq_true_iff.2 ⟨hc, List.all_eq_true.2 fun r hm => by simpa using hl r hm⟩), hr]
  rfl

/-! ### A packet fails (R188, R207) -/

/-- An event that fails the open packet: the counter of a failure, or of a packet that is not sound. -/
def FailsUnder (n : Nat) (e : RxEvent) : Prop :=
  e = .failed n ∨ ∃ hdr data tail, e = .packet hdr data tail ∧ packetFails hdr data tail = some n

theorem receiveEvent_fails (hu : (link u k).st = .active) (he : FailsUnder n e) :
    receiveEvent k e u = failPacket k n u := by
  obtain rfl | ⟨hdr, data, tail, rfl, hfails⟩ := he
  · simp [receiveEvent, hu]
  · simp [receiveEvent, receivePacket, hu, hfails]

theorem failPacket_error (h : (link s k).rxError = true) : failPacket k n s = bumpLink k n s := by
  simp [failPacket, h]

theorem failPacket_normal (h : (link s k).rxError = false) :
    failPacket k n s = sendNak k (setLink (bumpLink k n s) k { link s k with rxError := true }) := by
  simp [failPacket, h]

/-- A failure in NORMAL: ERROR, and one NAK with S in place of an ACK of the ck. -/
theorem link_failPacket (h : (link s k).rxError = false) : builtNow (failPacket k n s) k 0x33 = [] ∧
    (∃ c crv v cl m, c ∈ (link (failPacket k n s) k).control ∧ c.built = s.now ∧
      c.body = mkAck 0x3C (link s k).rxS crv v cl m) ∧
    (link (failPacket k n s) k).rxS = (link s k).rxS ∧ (link (failPacket k n s) k).rxError = true := by
  rw [failPacket_normal h]
  simpa using link_sendNak (s := setLink (bumpLink k n s) k { link s k with rxError := true }) (k := k)

theorem countedBy_failPacket (h : (link s k).rxError = false) (h4 : n ≠ 4) :
    CountedBy 1 0x27 k n s (failPacket k n s) ∧ CountedBy 1 0x27 k 4 s (failPacket k n s) := by
  have apart : ctrId 0x27 k n ≠ ctrId 0x27 k 4 ∧ ctrId 0x27 k 4 ≠ ctrId 0x27 k n := by
    simp only [ctrId]
    omega
  simp [CountedBy, failPacket_normal h, readCtr_sendNak, bumpLink, bump, apart]

/-! ### A sound packet, by its SEQ (R186, R187, R189) -/

theorem length_flatMap_leBytes {l : List Block} : (l.flatMap fun b => leBytes 8 b.toNat).length = 8 * l.length := by
  induction l with
  | nil => rfl
  | cons b l ih =>
    simp only [List.flatMap_cons, List.length_append, ih, length_leBytes, List.length_cons]
    omega

/-- A sound packet has the payload that its HDR announces. -/
theorem length_payload (h : packetFails hdr data tail = none) :
    (blockBytes (hdrLen hdr) data).length = hdrLen hdr := by
  have blocks : data.length = cdiv (hdrLen hdr) 8 := by
    by_contra hne
    simp [packetFails, hne] at h
  simp only [blockBytes, List.length_take, length_flatMap_leBytes, blocks, cdiv]
  omega

/-- What a sound packet's tail returns comes first (R197), then the packet's place in the sequence. -/
theorem receiveEvent_sound (hu : (link u k).st = .active) (hsound : packetFails hdr data tail = none)
    (hw : w = applyReturn k (tailS tail) true (tailVc tail) (tailCl tail) (tailEmpty tail) u)
    (hst : (link w k).st = .active) :
    receiveEvent k (.packet hdr data tail) u = sortPacket k hdr (blockBytes (hdrLen hdr) data) w := by
  subst hw
  simp [receiveEvent, receivePacket, hu, hsound, hst]

/-- The state in which an in-sequence packet is delivered: S moved on, its units counted, NORMAL (R187, R192). -/
def inSequence (k : Nat) (hdr : Block) (cost : Nat) (s : State) : State :=
  setVc (setLink s k { link s k with rxS := hdrSeq hdr, rxError := false, retrains := 0 }) k (hdrVc hdr)
    { vc s k (hdrVc hdr) with ac := ((vc s k (hdrVc hdr)).ac + cost) % 65536 }

theorem link_inSequence {cost : Nat} : link (inSequence k hdr cost s) k =
    { link s k with rxS := hdrSeq hdr, rxError := false, retrains := 0 } := by
  simp [inSequence]

theorem acceptPacket_eq : acceptPacket k hdr p s = countAccepted k
    (takePacket k (hdrVc hdr) hdr p (packetCost p.length) (inSequence k hdr (packetCost p.length) s)) := rfl

theorem sortPacket_accepts (hs : hdrSeq hdr = ((link s k).rxS + 1) % 4096)
    (hr : hasRoom s k (hdrVc hdr) (packetCost p.length) = true) : sortPacket k hdr p s = acceptPacket k hdr p s := by
  simp [sortPacket, hs, hr]

theorem sortPacket_refuses (hs : hdrSeq hdr = ((link s k).rxS + 1) % 4096)
    (hr : hasRoom s k (hdrVc hdr) (packetCost p.length) = false) : sortPacket k hdr p s = failPacket k 16 s := by
  simp [sortPacket, hs, hr]

theorem sortPacket_duplicate (hs : hdrSeq hdr ≠ ((link s k).rxS + 1) % 4096)
    (hd : ((link s k).rxS + 4096 - hdrSeq hdr) % 4096 ≤ 2046) :
    sortPacket k hdr p s = sendAck k (bumpLink k 2 s) := by
  simp [sortPacket, hs, hd]

theorem sortPacket_outOfSequence (hs : hdrSeq hdr ≠ ((link s k).rxS + 1) % 4096)
    (hd : 2046 < ((link s k).rxS + 4096 - hdrSeq hdr) % 4096) : sortPacket k hdr p s = bumpLink k 3 s := by
  simp [sortPacket, hs, hd]

theorem link_countAccepted : (link (countAccepted k s) k).rxS = (link s k).rxS ∧
    (link (countAccepted k s) k).rxError = (link s k).rxError ∧
    (link (countAccepted k s) k).retrains = (link s k).retrains := by
  simp only [countAccepted]
  split <;> simp [link_sendAck]

theorem link_acceptPacket : (link (acceptPacket k hdr p s) k).rxS = hdrSeq hdr ∧
    (link (acceptPacket k hdr p s) k).rxError = false ∧ (link (acceptPacket k hdr p s) k).retrains = 0 := by
  have delivered := link_of_sameBut (l := [.streams, .ports, .queues, .vcs, .pairs, .counters])
    (s := inSequence k hdr (packetCost p.length) s)
    (t := takePacket k (hdrVc hdr) hdr p (packetCost p.length) (inSequence k hdr (packetCost p.length) s))
    (by simp) (by decide)
  obtain ⟨hS, herror, hretrains⟩ := link_countAccepted (k := k)
    (s := takePacket k (hdrVc hdr) hdr p (packetCost p.length) (inSequence k hdr (packetCost p.length) s))
  rw [acceptPacket_eq, hS, herror, hretrains, delivered, link_inSequence]
  exact ⟨rfl, rfl, rfl⟩

/-! ### AC counts what is accepted, and delivery leaves it (R194) -/

/-- AC of every VC of every link, by key. -/
def acOf (s : State) (i : Nat) : Nat := (mGetD s.vcs i VcSt.init).ac

theorem acOf_vc : acOf s (8 * k + v) = (vc s k v).ac := rfl

theorem acOf_of_sameBut {l : List Part} (h : SameBut l s t) (hl : .vcs ∉ l) : acOf t = acOf s := by
  have vcs : s.vcs = t.vcs := h .vcs hl
  funext i
  simp [acOf, vcs]

theorem acOf_setVc {x : VcSt} (h : x.ac = (vc s k v).ac) : acOf (setVc s k v x) = acOf s := by
  funext i
  simp only [acOf, setVc, mGetD, mFind_mSet]
  split
  next hi => subst hi; exact h
  next => rfl

theorem acOf_each {α : Type} {l : List α} {f : α → State → State} (h : ∀ a u, acOf (f a u) = acOf u) :
    acOf (each l f s) = acOf s := each_keeps_mem fun a _ u => h a u

@[simp] theorem acOf_freeUnits : acOf (freeUnits k v n s) = acOf s := acOf_setVc rfl

@[simp] theorem acOf_freeMsg {m : Msg} : acOf (freeMsg k v m s) = acOf s := by
  simp only [freeMsg, whenB]
  (repeat' split) <;> simp

@[simp] theorem acOf_noteReturn : acOf (noteReturn k v s) = acOf s := acOf_setVc rfl

@[simp] theorem acOf_buildAck {type : Nat} {r : Option Nat} : acOf (buildAck type k r s) = acOf s := by
  have built : ∀ b, acOf (noteS k (queueControl k b (wakeLink k s))) = acOf s := fun b =>
    acOf_of_sameBut (l := [.links]) (by simp) (by decide)
  cases r <;> simp [buildAck, built]

@[simp] theorem acOf_setLink {x : LinkSt} : acOf (setLink s k x) = acOf s := rfl

@[simp] theorem acOf_sendAck : acOf (sendAck k s) = acOf s := by
  simp only [sendAck, sendAckFor]
  split <;> simp

@[simp] theorem acOf_countAccepted : acOf (countAccepted k s) = acOf s := by
  simp only [countAccepted]
  split <;> simp

/-! What a stream takes of a packet leaves every VC. -/

@[simp] theorem acOf_appendTunnel {key q : Nat} {b : List Byte} : acOf (appendTunnel key q b s) = acOf s :=
  acOf_of_sameBut (l := [.streams, .ports, .queues, .counters]) (by simp) (by decide)

@[simp] theorem acOf_closeTunnel {key q : Nat} : acOf (closeTunnel key q s) = acOf s :=
  acOf_of_sameBut (l := [.streams, .ports, .queues, .counters]) (by simp) (by decide)

@[simp] theorem acOf_openTunnel {key q : Nat} : acOf (openTunnel key q s) = acOf s :=
  acOf_of_sameBut (l := [.streams]) (by simp) (by decide)

@[simp] theorem acOf_orphanTunnel {key : Nat} : acOf (orphanTunnel key s) = acOf s := rfl

@[simp] theorem acOf_bump {c i m : Nat} : acOf (bump c i m s) = acOf s := rfl

@[simp] theorem acOf_setPair {j : Nat} {x : PairSt} : acOf (setPair s j v x) = acOf s := rfl

@[simp] theorem acOf_pourOne : acOf (pourOne k v s) = acOf s := by
  simp only [pourOne]
  (repeat' split) <;> simp [acOf_setVc]

@[simp] theorem acOf_pour : acOf (pour k v s) = acOf s := acOf_each fun _ _ => acOf_pourOne

@[simp] theorem acOf_dropOpen {h : Nat} : acOf (dropOpen k h v s) = acOf s := by
  simp only [dropOpen, bumpVc, whenB]
  (repeat' split) <;> simp [acOf_setVc]

@[simp] theorem acOf_joinMsg {h : Nat} {m : Msg} {eom : Bool} {cost : Nat} :
    acOf (joinMsg k h v m eom p cost s) = acOf s := by
  simp only [joinMsg]
  (repeat' split) <;> simp [acOf_setVc]

theorem acOf_actionDrop {a q kind : Nat} {count : State → State} (h : actionDrop t k v a q kind = some count) :
    acOf (count s) = acOf s :=
  acOf_of_sameBut (l := [.counters]) ((same_actionDrop h (by decide)).2 SameBut.refl) (by decide)

@[simp] theorem acOf_deliverPacket {r : VcmapRec} {cost : Nat} : acOf (deliverPacket k v r hdr p cost s) = acOf s := by
  simp only [deliverPacket, bumpVc]
  (repeat' split) <;> simp [acOf_setVc]
  all_goals exact (acOf_actionDrop ‹actionDrop _ _ _ _ _ _ = some _›).trans (by simp)

theorem acOf_takePacket {cost : Nat} : acOf (takePacket k v hdr p cost s) = acOf s := by
  simp only [takePacket, pairPacket, bumpLink, bumpVc, bumpPair]
  (repeat' split) <;> simp

/-- AC of a packet's VC takes its cost. -/
theorem ac_acceptPacket : (vc (acceptPacket k hdr p s) k (hdrVc hdr)).ac =
    ((vc s k (hdrVc hdr)).ac + packetCost p.length) % 65536 := by
  rw [← acOf_vc, acceptPacket_eq, acOf_countAccepted, acOf_takePacket, acOf_vc, inSequence, vc_setVc, if_pos rfl]

/-- A count from a state that reads the counter as another does. -/
theorem CountedBy.of_readCtr_eq {m c i j : Nat} (h : CountedBy m c i j u t) (hu : readCtr u c i j = readCtr s c i j) :
    CountedBy m c i j s t := by
  rw [CountedBy, ← hu]
  exact h

/-- A count, in a later state that reads the counter the same. -/
theorem CountedBy.readCtr_keeps {m c i j : Nat} (h : CountedBy m c i j s t) (hu : readCtr u c i j = readCtr t c i j) :
    CountedBy m c i j s u := hu.trans h

@[simp] theorem builtNow_publish {type : Nat} : builtNow (publish s t) k type = builtNow t k type := by simp [builtNow]

/-- Settles O32: a failed packet in NORMAL and in ERROR, and a sound one in each place of the sequence. -/
theorem packetSortingComplete : Obligations.PacketSortingComplete := by
  unfold Obligations.PacketSortingComplete
  intro s u k before head middle last rows e hc hrows hl hr
  have run := exec_packetReceived hc hrows hl hr
  obtain ⟨now, st, rxS, rxError, counts⟩ := yields_readRows hc hr
  refine ⟨fun n hn he => ⟨fun hnormal => ⟨_, run, ?_⟩, fun herror => ⟨_, run, ?_⟩⟩,
    fun hdr tail data w cost he hsound hcost hw hst => ?_⟩
  · have normal : (link u k.val).rxError = false := rxError.trans hnormal
    obtain ⟨hfailed, hnak⟩ := countedBy_failPacket (n := n) normal (by omega)
    obtain ⟨noAck, nak, keptS, inError⟩ := link_failPacket (n := n) normal
    rw [receiveEvent_fails st he]
    simp only [publish_subs, builtNow_publish]
    rw [now, rxS] at nak
    exact ⟨inError, keptS.trans rxS,
      (hfailed.of_readCtr_eq (counts n (by omega))).publish (frameCounter_link (by omega)),
      (hnak.of_readCtr_eq (counts 4 (by decide))).publish (frameCounter_link (by decide)), noAck, nak⟩
  · rw [receiveEvent_fails st he, failPacket_error (rxError.trans herror)]
    refine ⟨by simp,
      (countedBy_bumpLink.of_readCtr_eq (counts n (by omega))).publish (frameCounter_link (by omega)), ?_⟩
    rw [readCtr_publish (frameCounter_link (by decide)), bumpLink, readCtr_bump_other (by omega)]
    exact counts 4 (by decide)
  · have later : w.now = s.now := by
      have frame : SameBut [.regions, .links, .vcs, .lanes, .counters, .faults] u w := by simp [hw]
      exact (now_of_sameBut frame (by decide)).trans now
    subst he hcost
    rw [receiveEvent_sound st hsound hw hst] at run
    have cost : packetCost (hdrLen hdr) = packetCost (blockBytes (hdrLen hdr) data).length := by
      rw [length_payload hsound]
    rw [cost]
    refine ⟨fun hs => ⟨fun hroom => ⟨_, run, ?_⟩, fun hroom hnormal => ⟨_, run, ?_⟩⟩,
      fun hs => ⟨fun hd => ⟨_, run, ?_⟩, fun hd => ⟨_, run, ?_⟩⟩⟩
    · rw [sortPacket_accepts hs hroom]
      simp only [publish_subs]
      obtain ⟨moved, normal, progress⟩ := link_acceptPacket (s := w) (k := k.val) (hdr := hdr)
        (p := blockBytes (hdrLen hdr) data)
      exact ⟨moved, normal, progress, ac_acceptPacket⟩
    · rw [sortPacket_refuses hs hroom]
      simp only [publish_subs]
      obtain ⟨-, -, keptS, inError⟩ := link_failPacket (n := 16) hnormal
      exact ⟨keptS, inError, (countedBy_failPacket hnormal (by decide)).1.publish (frameCounter_link (by decide))⟩
    · rw [sortPacket_duplicate hs hd]
      simp only [publish_subs, link_sendAck, bumpLink_subs]
      have counted : CountedBy 1 0x27 k.val 2 w (sendAck k.val (bumpLink k.val 2 w)) :=
        countedBy_bumpLink.of_sameBut (l := [.links, .vcs]) (by simp) (by decide) (frameCounter_link (by decide))
      refine ⟨trivial, counted.publish (frameCounter_link (by decide)), fun hnone => ?_⟩
      simpa [later] using sendAck_waits (s := bumpLink k.val 2 w) (by simpa [builtNow] using hnone)
    · rw [sortPacket_outOfSequence hs hd]
      exact ⟨by simp, countedBy_bumpLink.publish (frameCounter_link (by decide))⟩

/-! ### Pair elimination (R201) -/

theorem pair_of_sameBut {l : List Part} (h : SameBut l s t) (hl : .pairs ∉ l) : pair t = pair s := by
  have pairs : s.pairs = t.pairs := h .pairs hl
  funext j v
  simp [pair, pairs]

/-- A packet of a mapped VC, accepted with elimination on: the pair's elimination decides on its delivery. -/
theorem acceptPacket_eliminates {r : VcmapRec} (hk : hdrKind hdr < 2) (hr : vcRec s k (hdrVc hdr) = some r)
    (he : eliminates s k = true) : acceptPacket k hdr p s = countAccepted k
      (pairPacket k (hdrVc hdr) r hdr p (packetCost p.length) (inSequence k hdr (packetCost p.length) s)) := by
  have record : vcRec (inSequence k hdr (packetCost p.length) s) k (hdrVc hdr) = some r := hr
  have on : eliminates (inSequence k hdr (packetCost p.length) s) k = true := he
  rw [acceptPacket_eq, takePacket, if_neg (by omega), record]
  simp [on]

theorem pair_countAccepted : pair (countAccepted k s) = pair s :=
  pair_of_sameBut (l := [.links, .vcs]) (by simp) (by decide)

theorem pair_deliverPacket {r : VcmapRec} {cost : Nat} : pair (deliverPacket k v r hdr p cost s) = pair s :=
  pair_of_sameBut (l := [.streams, .ports, .queues, .vcs, .counters]) (by simp) (by decide)

theorem pairPacket_passed {r : VcmapRec} {cost : Nat} (h : eliminate (pair s (k / 2) v) (hdrPseq hdr) = .passed) :
    pair (pairPacket k v r hdr p cost s) (k / 2) v =
      { pair s (k / 2) v with last := hdrPseq hdr, isReset := false, lastPass := s.now } := by
  simp [pairPacket, h, pair_deliverPacket]

theorem pairPacket_duplicate {r : VcmapRec} {cost : Nat}
    (h : eliminate (pair s (k / 2) v) (hdrPseq hdr) = .duplicate) :
    pairPacket k v r hdr p cost s = freeUnits k v cost (bumpPair (k / 2) v 1 s) := by
  simp [pairPacket, h]

theorem pairPacket_rogue {r : VcmapRec} {cost : Nat} (h : eliminate (pair s (k / 2) v) (hdrPseq hdr) = .rogue) :
    pairPacket k v r hdr p cost s = freeUnits k v cost (bumpPair (k / 2) v 2 s) := by
  simp [pairPacket, h]

/-- A packet that elimination drops is counted and gives its units back: the pair stays as it is. -/
theorem dropped_leaves {cost m : Nat} (hn : n = 1 ∨ n = 2) :
    pair (countAccepted k (freeUnits k v m (bumpPair (k / 2) v n (inSequence k hdr cost s)))) = pair s ∧
    CountedBy 1 0x29 (8 * (k / 2) + v) n s
      (countAccepted k (freeUnits k v m (bumpPair (k / 2) v n (inSequence k hdr cost s)))) := by
  refine ⟨pair_of_sameBut (l := [.links, .vcs, .counters]) (by simp [inSequence]) (by decide), ?_⟩
  have counted : CountedBy 1 0x29 (8 * (k / 2) + v) n s (bumpPair (k / 2) v n (inSequence k hdr cost s)) :=
    countedBy_bump rfl
  exact counted.of_sameBut (l := [.links, .vcs]) (by simp) (by decide) (frameCounter_low (by omega) (by omega))

/-- Settles O33: the three outcomes of pair elimination for an accepted packet. -/
theorem pairEliminationComplete : Obligations.PairEliminationComplete := by
  unfold Obligations.PairEliminationComplete
  intro s u w k before head middle last rows hdr tail data r hc hrows hl hr hsound hw hst hs hroom hkind hrec hon
  have run := exec_packetReceived hc hrows hl hr
  obtain ⟨now, st, -⟩ := yields_readRows hc hr
  have later : w.now = s.now := by
    have frame : SameBut [.regions, .links, .vcs, .lanes, .counters, .faults] u w := by simp [hw]
    exact (now_of_sameBut frame (by decide)).trans now
  rw [receiveEvent_sound st hsound hw hst, sortPacket_accepts hs (by rwa [length_payload hsound]),
    acceptPacket_eliminates hkind hrec hon] at run
  have same : pair (inSequence k.val hdr (packetCost (blockBytes (hdrLen hdr) data).length) w) = pair w := rfl
  refine ⟨fun h => ⟨_, run, ?_⟩, fun h => ⟨_, run, ?_⟩, fun h => ⟨_, run, ?_⟩⟩
  · simp only [publish_subs, pair_countAccepted]
    rw [pairPacket_passed (by rwa [same])]
    exact ⟨rfl, rfl, later⟩
  · rw [pairPacket_duplicate (by rwa [same])]
    obtain ⟨kept, counted⟩ := dropped_leaves (s := w) (k := k.val) (v := hdrVc hdr) (hdr := hdr)
      (cost := packetCost (blockBytes (hdrLen hdr) data).length)
      (m := packetCost (blockBytes (hdrLen hdr) data).length) (n := 1) (.inl rfl)
    exact ⟨by simp [kept], counted.publish (frameCounter_low (by decide) (by decide))⟩
  · rw [pairPacket_rogue (by rwa [same])]
    obtain ⟨kept, counted⟩ := dropped_leaves (s := w) (k := k.val) (v := hdrVc hdr) (hdr := hdr)
      (cost := packetCost (blockBytes (hdrLen hdr) data).length)
      (m := packetCost (blockBytes (hdrLen hdr) data).length) (n := 2) (.inr rfl)
    exact ⟨by simp [kept], counted.publish (frameCounter_low (by decide) (by decide))⟩

end Sys2Proof.Machine
end

section
/-!
SUPPORT. What a link sends (08 R183, R190, R191, R195, R196, R198, R203): a packet of an episode or a new one, a message
that waits too long for credit, credit returns and audits.
-/
namespace Sys2Proof.Machine

variable {s : State} {k v i seq : Nat} {hdr : Block} {p : List Byte} {m : TxMsg} {rest : List TxMsg}

/-! ### A packet goes to the lanes (R183, R203) -/

/-- A packet's blocks join those on their way; the replay store and the sequence stay. -/
theorem link_emitPacket : (link (emitPacket k seq hdr p s) k).sending =
      (link s k).sending ++ packetBlocks s.now (s.now + 16) seq hdr p (tailNow s k hdr p) ∧
    (link (emitPacket k seq hdr p s) k).store = (link s k).store ∧
    (link (emitPacket k seq hdr p s) k).txSeq = (link s k).txSeq := by
  simp [emitPacket, noteReturn, noteS]

/-- The tail's credit return leaves what a VC has sent and has yet to send. -/
theorem vc_emitPacket : (vc (emitPacket k seq hdr p s) k v).c = (vc s k v).c ∧
    (vc (emitPacket k seq hdr p s) k v).txQ = (vc s k v).txQ := by
  simp only [emitPacket, noteReturn, vc_setVc]
  split
  next he =>
    obtain rfl : v = tailReturn s k := by omega
    simp [noteS]
  next => simp [noteS]

/-! ### An episode's packet (R191) -/

theorem exec_packetSend_episode {k : Link} {e : Nat} (hmay : mayPacket s k.val = true)
    (he : (link s k.val).episode = some e) : exec (.packetSend k) s = .next (publish s (resend k.val e s)) := by
  simp only [exec, execPacketSend]
  rw [act_on (by simp [hmay, he])]
  simp only [he]

theorem resend_stored {e : Nat} {x : Stored} {l : List Stored}
    (hd : (link s k).store.dropWhile (fun p => p.seq != e) = x :: l) (hm : x.marked = false) :
    resend k e s = setLink (emitPacket k e x.hdr x.payload s) k
      { link (emitPacket k e x.hdr x.payload s) k with episode := l.head?.map (·.seq) } := by
  simp [resend, hd, hm]

/-! ### A new packet (R190, R195) -/

/-- The bytes of a message's next packet. -/
def nextLen (m : TxMsg) : Nat := min 256 (m.bytes.length - m.pos)

/-- The HDR of the next packet of a VC's head message (R182). -/
def nextHdr (s : State) (k v : Nat) (m : TxMsg) : Block :=
  mkHdr (link s k).txSeq v (nextLen m) m.kind (m.pos == 0) (m.pos + nextLen m == m.bytes.length)
    (if planPairs (plan s) then m.pseq + m.pos / 256 else 0)

/-- The VC has taken its next packet from the queue and is charged for it. -/
def chargeNext (k v : Nat) (m : TxMsg) (rest : List TxMsg) (s : State) : State :=
  setVc s k v { vc s k v with
    c := ((vc s k v).c + packetCost (nextLen m)) % 65536
    txQ := if m.pos + nextLen m = m.bytes.length then rest else { m with pos := m.pos + nextLen m } :: rest }

/-- A new packet as the replay store keeps it (R190). -/
def newStored (s : State) (k v : Nat) (m : TxMsg) : Stored :=
  { seq := (link s k).txSeq, vc := v, cost := packetCost (nextLen m), hdr := nextHdr s k v m,
    payload := slice m.bytes m.pos (nextLen m), count := 0, sentAt := none, charged := false, marked := false }

/-- The state in which a new packet's blocks have gone to the lanes. -/
def emitNext (k v : Nat) (m : TxMsg) (rest : List TxMsg) (s : State) : State :=
  emitPacket k (link s k).txSeq (nextHdr s k v m) (slice m.bytes m.pos (nextLen m)) (chargeNext k v m rest s)

theorem sendNew_eq : sendNew k v m rest s = setLink (emitNext k v m rest s) k { link (emitNext k v m rest s) k with
    txSeq := ((link s k).txSeq + 1) % 4096
    store := (link (emitNext k v m rest s) k).store ++ [newStored s k v m] } := rfl

/-- What a tail says of the receiving side is the same once the sender is charged. -/
theorem tailNow_chargeNext : tailNow (chargeNext k v m rest s) k hdr p = tailNow s k hdr p := by
  have received : ∀ u, ∃ c q, vc (chargeNext k v m rest s) k u = { vc s k u with c := c, txQ := q } := by
    intro u
    simp only [chargeNext, vc_setVc]
    split
    next he =>
      obtain rfl : u = v := by omega
      exact ⟨_, _, rfl⟩
    next => exact ⟨_, _, rfl⟩
  have frees : ∀ u, (vc (chargeNext k v m rest s) k u).freed = (vc s k u).freed ∧
      (vc (chargeNext k v m rest s) k u).reported = (vc s k u).reported := by
    intro u
    obtain ⟨c, q, hu⟩ := received u
    simp [hu]
  have returned : tailReturn (chargeNext k v m rest s) k = tailReturn s k := by
    have turns : rotation (chargeNext k v m rest s) k = rotation s k := rfl
    simp [tailReturn, unreported, turns, frees]
  obtain ⟨c, q, hv⟩ := received (tailReturn s k)
  have S : (link (chargeNext k v m rest s) k).rxS = (link s k).rxS := rfl
  simp only [tailNow, returned, hv, S]
  rfl

theorem exec_packetSend_new {k : Link} (hmay : mayPacket s k.val = true) (he : (link s k.val).episode = none)
    (hv : pickVc s k.val = some v) (hq : (vc s k.val v).txQ = m :: rest)
    (hroom : storeRoom s k.val (nextLen m) = true) :
    exec (.packetSend k) s = .next (publish s (sendNew k.val v m rest s)) := by
  have ready : newReady s k.val = true := by
    simp only [newReady, hv, hq]
    exact hroom
  simp only [exec, execPacketSend]
  rw [act_on (by simp [hmay, ready])]
  simp only [he, hv, hq]

/-- What a new packet leaves of the link: its blocks behind those on their way, the next SEQ, the packet stored. -/
theorem link_sendNew : (link (sendNew k v m rest s) k).sending = (link s k).sending ++
      packetBlocks s.now (s.now + 16) (link s k).txSeq (nextHdr s k v m) (slice m.bytes m.pos (nextLen m))
        (tailNow s k (nextHdr s k v m) (slice m.bytes m.pos (nextLen m))) ∧
    (link (sendNew k v m rest s) k).txSeq = ((link s k).txSeq + 1) % 4096 ∧
    (link (sendNew k v m rest s) k).store = (link s k).store ++ [newStored s k v m] := by
  obtain ⟨sending, store, -⟩ := link_emitPacket (s := chargeNext k v m rest s) (k := k) (seq := (link s k).txSeq)
    (hdr := nextHdr s k v m) (p := slice m.bytes m.pos (nextLen m))
  rw [tailNow_chargeNext] at sending
  simp only [sendNew_eq, link_setLink, ↓reduceIte, emitNext, sending, store, true_and]
  exact ⟨rfl, rfl⟩

/-- And of the VC: the cost charged, the message moved on or gone. -/
theorem vc_sendNew : (vc (sendNew k v m rest s) k v).c = ((vc s k v).c + packetCost (nextLen m)) % 65536 ∧
    (vc (sendNew k v m rest s) k v).txQ =
      if m.pos + nextLen m = m.bytes.length then rest else { m with pos := m.pos + nextLen m } :: rest := by
  simp [sendNew_eq, emitNext, vc_emitPacket, chargeNext]

/-! ### A message waits too long for credit (R195) -/

/-- The head lacks credit for its first packet beyond its deadline. -/
theorem waitsTooLong_head (hq : (vc s k v).txQ = m :: rest) (hpos : m.pos = 0) (hd : m.deadline < s.now)
    (hc : hasCredit s k v = false) : waitsTooLong s k v = some 0 := by
  simp [waitsTooLong, hq, List.zipIdx_cons, hpos, hd, hc]

theorem exec_creditWaitDeadline {k : Link} {v : VC} (hck : ckRuns s = true)
    (hi : waitsTooLong s k.val v.val = some i) : ∃ t, exec (.creditWaitDeadline k v) s = .next t ∧
      (vc t k.val v.val).txQ = (vc s k.val v.val).txQ.eraseIdx i ∧ CountedBy 1 0x28 (8 * k.val + v.val) 4 s t := by
  simp only [exec, execCreditWaitDeadline]
  refine ⟨_, act_on (by simp [hck, hi]), ?_⟩
  have frames : frameCounter (ctrId 0x28 (8 * k.val + v.val) 4) = false :=
    frameCounter_other (by decide) (by decide) (by omega) (by decide)
  have counted : CountedBy 1 0x28 (8 * k.val + v.val) 4 s (bumpVc k.val v.val 4 (setVc s k.val v.val
      { vc s k.val v.val with txQ := (vc s k.val v.val).txQ.eraseIdx i })) := countedBy_bump rfl
  simp only [hi, publish_subs]
  split
  · exact ⟨by simp, (counted.readCtr_keeps (readCtr_bump_other (by decide))).publish frames⟩
  · exact ⟨by simp, counted.publish frames⟩

/-! ### Credit returns (R196) -/

theorem exec_creditReturn {k : Link} {v : VC} (hc : carries s k.val = true) (hrec : (vcRec s k.val v.val).isSome = true)
    (hdue : returnDue s k.val v.val = true) (hnone : builtNow s k.val 0x3C = []) :
    exec (.creditReturn k v) s = .next (publish s (buildAck 0x33 k.val (some v.val) s)) := by
  simp only [exec, execCreditReturn]
  rw [act_on (by simp [hc, hrec, hdue]), sendAckFor_built hnone]

/-! ### Audits (R198) -/

/-- An AUDIT of one VC waits behind the link's other control blocks. -/
theorem auditVc_leaves : (∃ c, BuiltWith s (mkAudit (link s k).rxS v (vc s k v).ac) c ∧
      (link (auditVc k v s) k).control = (link s k).control ++ [c]) ∧
    (link (auditVc k v s) k).rxS = (link s k).rxS ∧ vc (auditVc k v s) = vc s ∧ (auditVc k v s).now = s.now := by
  simp only [auditVc, noteS, queueControl, link_setLink, ↓reduceIte, setLink_subs, setLink_fields,
    List.append_cancel_left_eq, List.cons.injEq, and_true, exists_eq_right']
  exact ⟨rfl, rfl⟩

/-- The audits of a list of VCs all wait, behind what waited before. -/
theorem audits_wait {vs : List Nat} : (∀ c ∈ (link s k).control, c ∈ (link (each vs (auditVc k) s) k).control) ∧
    ∀ v ∈ vs, ∃ c ∈ (link (each vs (auditVc k) s) k).control,
      BuiltWith s (mkAudit (link s k).rxS v (vc s k v).ac) c := by
  induction vs generalizing s with
  | nil => simp [each]
  | cons v vs ih =>
    obtain ⟨⟨c, hc, waits⟩, S, credit, now⟩ := auditVc_leaves (s := s) (k := k) (v := v)
    obtain ⟨kept, others⟩ := ih (s := auditVc k v s)
    have first : each (v :: vs) (auditVc k) s = each vs (auditVc k) (auditVc k v s) := rfl
    rw [first]
    refine ⟨fun d hd => kept d (by simp [waits, hd]), fun w hw => ?_⟩
    rcases List.mem_cons.1 hw with rfl | hw
    · exact ⟨c, kept c (by simp [waits]), hc⟩
    · obtain ⟨d, hd, built⟩ := others w hw
      simp only [BuiltWith, S, credit, now] at built
      exact ⟨d, hd, built⟩

/-- The VCs with a buffer, which are audited. -/
def bufferedVcs (s : State) (k : Nat) : List Nat := (List.range 8).filter fun v => (vcRec s k v).isSome

/-- The audits of a link's VCs, sent on awake lanes. -/
def sendAudits (k : Nat) (s : State) : State :=
  each (bufferedVcs s k) (auditVc k) (if (bufferedVcs s k).isEmpty then s else wakeLink k s)

theorem mem_bufferedVcs {v : VC} (h : (vcRec s k v.val).isSome = true) : v.val ∈ bufferedVcs s k :=
  List.mem_filter.2 ⟨List.mem_range.2 v.isLt, h⟩

theorem audit_waits (hv : v ∈ bufferedVcs s k) : ∃ c ∈ (link (sendAudits k s) k).control,
    BuiltWith s (mkAudit (link s k).rxS v (vc s k v).ac) c := by
  have some : (bufferedVcs s k).isEmpty = false := List.isEmpty_eq_false_iff_exists_mem.2 ⟨v, hv⟩
  obtain ⟨c, hc, built⟩ := (audits_wait (s := wakeLink k s) (k := k)).2 v hv
  simp only [BuiltWith, link_wakeLink, wakeLink_subs] at built
  rw [sendAudits, some]
  exact ⟨c, hc, built⟩

theorem lanesRec_of_sameBut {t : State} {l : List Part} (h : SameBut l s t) (hl : .tables ∉ l ∧ .ladder ∉ l) :
    lanesRec t = lanesRec s := by
  have tables : s.tables = t.tables := h .tables hl.1
  have ladder : s.ladder = t.ladder := h .ladder hl.2
  have plans : plan t = plan s := by simp [plan, ladderCode, ladderPin, ladder]
  funext k
  simp only [lanesRec, plans, tables]

theorem exec_auditSend {k : Link} (hc : carries s k.val = true) (ha : (lanesRec s k.val).auditUs ≠ 0)
    (hd : (link s k.val).auditDue ≤ s.now) : exec (.auditSend k) s =
      .next (publish s (setLink (sendAudits k.val s) k.val
        { link (sendAudits k.val s) k.val with auditDue := s.now + usCk (lanesRec s k.val).auditUs })) := by
  have frame : SameBut [.links] s (sendAudits k.val s) := by
    have woken : SameBut [.links] s (if (bufferedVcs s k.val).isEmpty then s else wakeLink k.val s) := by
      split <;> simp
    exact (same_each fun v u => by simp).2 woken
  have due : s.now + usCk (lanesRec s k.val).auditUs =
      (sendAudits k.val s).now + usCk (lanesRec (sendAudits k.val s) k.val).auditUs := by
    rw [now_of_sameBut frame (by decide), lanesRec_of_sameBut frame (by decide)]
  rw [due]
  simp only [exec, execAuditSend]
  rw [act_on (by simp [hc, ha, hd])]
  rfl

/-- Settles O34: a packet of an episode, a new one, a message without credit, a credit return and the audits. -/
theorem packetSendingComplete : Obligations.PacketSendingComplete := by
  unfold Obligations.PacketSendingComplete
  intro s k
  refine ⟨fun hmay => ⟨fun e x l he hd hm => ?_, fun v n m rest he hv hq hn hroom => ?_⟩,
    fun v m rest hck hq hpos hd hcredit => ?_, fun v i hck hi => exec_creditWaitDeadline hck hi,
    fun v hc hrec hdue hnone => ?_, fun hc haudit hdue => ?_⟩
  · refine ⟨_, exec_packetSend_episode hmay he, ?_⟩
    obtain ⟨sending, store, txSeq⟩ :=
      link_emitPacket (s := s) (k := k.val) (seq := e) (hdr := x.hdr) (p := x.payload)
    rw [resend_stored hd hm]
    simp [sending, store, txSeq]
  · subst hn
    refine ⟨_, nextHdr s k.val v m, exec_packetSend_new hmay he hv hq hroom, rfl, ?_⟩
    obtain ⟨sending, txSeq, store⟩ := link_sendNew (s := s) (k := k.val) (v := v) (m := m) (rest := rest)
    obtain ⟨c, txQ⟩ := vc_sendNew (s := s) (k := k.val) (v := v) (m := m) (rest := rest)
    simp only [publish_subs]
    exact ⟨sending, txSeq, ⟨_, store, rfl, rfl, rfl, rfl, rfl⟩, c, txQ⟩
  · obtain ⟨t, run, txQ, counted⟩ := exec_creditWaitDeadline hck (waitsTooLong_head hq hpos hd hcredit)
    exact ⟨t, run, by simp [txQ, hq], counted⟩
  · obtain ⟨⟨c, hbuilt, waits⟩, hU, -⟩ := link_buildAck (s := s) (k := k.val) (type := 0x33) (v := some v.val)
    obtain ⟨reports, next⟩ := buildAck_reports (s := s) (k := k.val) (type := 0x33) (w := v.val)
    refine ⟨_, exec_creditReturn hc hrec hdue hnone, ?_⟩
    simp only [publish_subs, reports, next, hU, waits, true_and]
    exact ⟨c, by simp, hbuilt⟩
  · refine ⟨_, exec_auditSend hc haudit hdue, ?_⟩
    simp only [publish_subs, link_setLink, ↓reduceIte, true_and]
    intro v hrec
    obtain ⟨c, waits, built⟩ := audit_waits (mem_bufferedVcs hrec)
    exact ⟨c, waits, built⟩

end Sys2Proof.Machine
end

section
/-!
SUPPORT. The upkeep of a link (08 R180, R189 to R193, R197, R198, R201, R207): acknowledgement and release, replay
episodes, audits, link down, discarded control blocks, and the reset of a pair's elimination state.
-/
namespace Sys2Proof.Machine

variable {s t u : State} {k : Link} {n v cl gone : Nat} {crv e : Bool} {kind : SKind} {b : Block} {p : Stored}
  {rest : List Stored}

theorem readCtr_of_sameBut {l : List Part} {c i : Nat} (h : SameBut l s t) (hl : .counters ∉ l)
    (hf : frameCounter (ctrId c i n) = false) : readCtr t c i n = readCtr s c i n := (h .counters hl _ hf).symm

theorem readCtr_bumpBy_other {i c i' c' m j : Nat} (h : n % 256 ≠ m % 256) :
    readCtr (bumpBy c i m j s) c' i' n = readCtr s c' i' n := by
  have apart : ctrId c' i' n ≠ ctrId c i m := fun e => h (by rw [← ctrId_mod (c := c'), e, ctrId_mod])
  simp [apart]

theorem readCtr_bumpLink_other {m : Nat} (hn : n < 256) (hm : m < 256) (h : n ≠ m) :
    readCtr (bumpLink k m s) 0x27 k n = readCtr s 0x27 k n := readCtr_bumpBy_other (by omega)

/-! ### Retrain and link down count under their own numbers (R192, R193; 09 R219 to R221) -/

/-- The numbers that a retrain counts under: the link's retrains and taken spares, the lanes' exclusions. -/
def retrainNumbers : List Nat := [1, 9, 23]

theorem readCtr_excludeLanes {m cause : Nat} (hn : n < 256) (h : n ∉ retrainNumbers) :
    readCtr (excludeLanes k.val m cause s) 0x27 k n = readCtr s 0x27 k n := by
  simp only [retrainNumbers, List.mem_cons, List.not_mem_nil, or_false, not_or] at h
  obtain ⟨h1, -, h23⟩ := h
  have lanes : ∀ (ns : List Nat) (f : Nat → Nat) (w : State),
      readCtr (each ns (fun j u => logFault 0x41 j (f j) (bumpLane j 1 u)) w) 0x27 k n = readCtr w 0x27 k n :=
    fun ns f w => each_keeps_mem (g := fun u => readCtr u 0x27 k n) fun j _ u => by
      simp only [logFault_subs]
      exact readCtr_bumpBy_other (by omega)
  simp only [excludeLanes, whenB]
  split
  · rw [readCtr_bumpLink_other hn (by decide) h23, lanes]
    simp only [setLink_subs]
  · rw [lanes]
    simp only [setLink_subs]

theorem readCtr_enterSync {again : Bool} (hn : n < 256) :
    readCtr (enterSync k again s) 0x27 k n = readCtr s 0x27 k n :=
  readCtr_of_sameBut (l := [.links, .lanes]) (by simp) (by decide) (frameCounter_link hn)

theorem readCtr_staleFromLink (hn : n < 256) : readCtr (staleFromLink k s) 0x27 k n = readCtr s 0x27 k n :=
  readCtr_of_sameBut (l := [.regions]) (by simp) (by decide) (frameCounter_link hn)

theorem readCtr_startRetrain {cause failing : Nat} {byCommit : Bool} (hn : n < 256) (h : n ∉ retrainNumbers) :
    readCtr (startRetrain k cause failing byCommit s) 0x27 k n = readCtr s 0x27 k n := by
  have h9 : n ≠ 9 := fun e => h (by simp [e, retrainNumbers])
  simp only [startRetrain]
  split
  · rfl
  · rw [readCtr_enterSync hn, readCtr_staleFromLink hn, readCtr_excludeLanes hn h]
    simp only [setLink_subs, logFault_subs]
    exact readCtr_bumpLink_other hn (by decide) h9

theorem readCtr_toDetect {timedOut down : Bool} (hn : n < 256) (h20 : n ≠ 20) :
    readCtr (toDetect k.val timedOut down s) 0x27 k n = readCtr s 0x27 k n := by
  simp only [toDetect]
  rw [readCtr_bumpLink_other hn (by decide) h20]
  exact readCtr_of_sameBut (l := [.links, .lanes, .vcs, .streams]) (by simp) (by decide) (frameCounter_link hn)

theorem link_toDetect {timedOut down : Bool} : (link (toDetect k.val timedOut down s) k).st = .detect ∧
    (link (toDetect k.val timedOut down s) k).down = (down || (link s k).down) ∧
    (link (toDetect k.val timedOut down s) k).store = [] := by
  have before : ∀ w, SameBut [.lanes, .vcs, .streams] s w → (link w k).down = (link s k).down := fun w h => by
    rw [link_of_sameBut h (by decide)]
  simp only [toDetect, bumpLink_subs, link_setLink, ↓reduceIte]
  exact ⟨trivial, by rw [before _ (by simp)], rfl⟩

/-- A link declared down goes back to DETECT, once what it discards is counted and its slots are stale. -/
theorem declareDown_toDetect {cause : Nat} : ∃ w, declareDown k.val cause false s = toDetect k.val false true w ∧
    readCtr w 0x27 k 11 = readCtr (bumpLink k 11 s) 0x27 k 11 := by
  refine ⟨_, rfl, ?_⟩
  rw [readCtr_staleFromLink (by decide)]
  simp only [logFault_subs]
  rw [readCtr_bumpBy_other (by decide)]

theorem declareDown_detects {cause : Nat} : (link (declareDown k.val cause false s) k).st = .detect ∧
    (link (declareDown k.val cause false s) k).down = true ∧ (link (declareDown k.val cause false s) k).store = [] ∧
    CountedBy 1 0x27 k 11 s (declareDown k.val cause false s) := by
  obtain ⟨w, down, hctr⟩ := declareDown_toDetect (s := s) (k := k) (cause := cause)
  obtain ⟨hst, hdown, hstore⟩ := link_toDetect (s := w) (k := k) (timedOut := false) (down := true)
  rw [down]
  exact ⟨hst, hdown, hstore,
    (countedBy_bumpLink (n := 11)).readCtr_keeps ((readCtr_toDetect (by decide) (by decide)).trans hctr)⟩

/-! ### Release and credit return (R190, R197) -/

theorem releaseUpTo_none (h : beyond s k n = 0) : releaseUpTo k n s = s := by simp [releaseUpTo, h]

theorem releaseUpTo_ignored (h : 2047 < beyond s k n) : releaseUpTo k n s = bumpLink k 8 s := by
  simp [releaseUpTo, h]

/-- S within 2,047 releases the packets up to it. -/
theorem link_releaseUpTo (hn : n < 4096) (hb : gone = beyond s k n) (h0 : 0 < gone) (h2047 : gone ≤ 2047)
    (hstore : gone ≤ (link s k).store.length) : (link (releaseUpTo k.val n s) k).released = n ∧
      (link (releaseUpTo k.val n s) k).store = (link s k).store.drop gone ∧
      (link (releaseUpTo k.val n s) k).retrains = 0 ∧ (link (releaseUpTo k.val n s) k).releasedAt = s.now := by
  have released : ((link s k).released + gone) % 4096 = n := by
    rw [hb, beyond] at *
    omega
  simp only [releaseUpTo, ← hb, Nat.min_eq_left hstore, if_neg (Nat.not_lt.mpr h2047), if_neg h0.ne', link_setLink,
    ↓reduceIte, and_self, and_true]
  exact released

theorem takeCredit_noEmpty : takeCredit k v cl false s = setVc s k v { vc s k v with cl := cl } := rfl

theorem bf_lt {lo w : Nat} : bf b lo w < 2 ^ w := Nat.mod_lt _ (Nat.two_pow_pos w)

/-- S has 12 bits in every block that carries it. -/
theorem returnOf_lt : (returnOf kind b).1 < 4096 := by cases kind <;> exact bf_lt (w := 12)

theorem readCtr_releaseUpTo (hn : n < 256) (h8 : n ≠ 8) {S : Nat} :
    readCtr (releaseUpTo k S s) 0x27 k n = readCtr s 0x27 k n := by
  simp only [releaseUpTo]
  split
  · exact readCtr_bumpLink_other hn (by decide) h8
  · split
    · rfl
    · exact readCtr_of_sameBut (l := [.vcs, .links]) (by simp [chargeRelease]) (by decide) (frameCounter_link hn)

theorem readCtr_takeCredit (hn : n < 256) (h10 : n ≠ 10) (h : n ∉ retrainNumbers) :
    readCtr (takeCredit k v cl e s) 0x27 k n = readCtr s 0x27 k n := by
  simp only [takeCredit]
  split
  · rw [readCtr_startRetrain hn h, readCtr_bumpLink_other hn (by decide) h10]
    simp only [setVc_subs]
  · simp only [setVc_subs]

theorem readCtr_applyReturn (hn : n < 256) (h8 : n ≠ 8) (h10 : n ≠ 10) (h : n ∉ retrainNumbers) {S : Nat} :
    readCtr (applyReturn k S crv v cl e s) 0x27 k n = readCtr s 0x27 k n := by
  simp only [applyReturn]
  split
  · rw [readCtr_takeCredit hn h10 h, readCtr_releaseUpTo hn h8]
  · exact readCtr_releaseUpTo hn h8

/-! ### Replay episodes (R191, R207) -/

section
variable {counted : Bool} (hstore : (link s k).store = p :: rest) (hm : p.marked = false)
  (hlim : p.count < (lanesRec s k).limitN)
include hstore hm hlim

theorem startEpisode_resends : startEpisode k counted s = whenB counted (bumpLink k 6) (setLink s k { link s k with
    store := { p with count := p.count + 1, sentAt := none } :: rest, episode := some p.seq }) := by
  simp [startEpisode, hstore, hm, Nat.not_le.mpr hlim]

/-- An episode begins at the oldest packet, which is to be sent once more. -/
theorem link_startEpisode : (link (startEpisode k counted s) k).episode = some p.seq ∧
    (link (startEpisode k counted s) k).store = { p with count := p.count + 1, sentAt := none } :: rest ∧
    (link (startEpisode k counted s) k).timerAt = (link s k).timerAt := by
  rw [startEpisode_resends hstore hm hlim]
  cases counted <;> simp [whenB]

/-- It counts unless it replaces one of the same ck (R207). -/
theorem readCtr_startEpisode :
    readCtr (startEpisode k counted s) = readCtr (whenB counted (bumpLink k 6) s) := by
  rw [startEpisode_resends hstore hm hlim]
  cases counted <;> rfl

theorem startEpisode_counts : CountedBy 1 0x27 k 6 s (startEpisode k true s) := by
  refine (countedBy_bumpLink (n := 6)).readCtr_keeps ?_
  rw [readCtr_startEpisode hstore hm hlim, whenB_true]

theorem readCtr_startEpisode_other (hn : n < 256) (h6 : n ≠ 6) :
    readCtr (startEpisode k counted s) 0x27 k n = readCtr s 0x27 k n := by
  rw [readCtr_startEpisode hstore hm hlim, whenB]
  split
  · exact readCtr_bumpLink_other hn (by decide) h6
  · rfl

end

theorem readCtr_undoTimer : readCtr (undoTimer k s) = readCtr s := by
  simp only [undoTimer]
  split
  · simp only [setLink_subs]
  · rfl

theorem exec_nakReceived (hc : carries s k = true) (hb : blockGood .nak b = true)
    (hu : u = applyReturn k (ackS b) (ackCrv b) (ackVc b) (ackCl b) (ackEmpty b)
      (if (link s k).timerAt = some s.now then undoTimer k (bumpLink k 5 s) else bumpLink k 5 s))
    (ha : (link u k).st = .active) : exec (.nakReceived k b) s =
      .next (publish s (startEpisode k (!((link s k).timerAt == some s.now)) u)) := by
  simp only [exec, execNakReceived]
  rw [act_on (by simp [hc, hb])]
  simp only [whenB, beq_iff_eq, ← hu, if_pos ha]

/-! ### Audits (R198) -/

theorem beyond_released (h : (link s k).released = n) : beyond s k n = 0 := by
  rw [beyond, h]
  omega

theorem exec_auditReceived (hc : carries s k = true) (hb : blockGood .audit b = true) : exec (.auditReceived k b) s =
    .next (publish s (if 2047 < beyond s k (ackS b) then bumpLink k 15 s
      else applyAudit k (auditVcOf b) (auditAc b) (releaseUpTo k (ackS b) s))) := by
  simp only [exec, execAuditReceived]
  rw [act_on (by simp [hc, hb])]

/-- An AUDIT at the release point releases nothing. -/
theorem exec_auditReceived_level (hc : carries s k = true) (hb : blockGood .audit b = true)
    (hr : (link s k).released = ackS b) : exec (.auditReceived k b) s =
      .next (publish s (applyAudit k (auditVcOf b) (auditAc b) s)) := by
  have level := beyond_released hr
  rw [exec_auditReceived hc hb, if_neg (by omega), releaseUpTo_none level]

theorem applyAudit_level {ac : Nat} (hd : auditDelta (vc s k v) ac = 0) : applyAudit k v ac s = s := by
  simp [applyAudit, hd]

theorem applyAudit_corrects {ac : Nat} {d : Int} (hd : d = auditDelta (vc s k v) ac) (h0 : d ≠ 0)
    (hle : d.natAbs ≤ (vc s k v).partnerBv) : CountedBy d.natAbs 0x27 k 13 s (applyAudit k v ac s) ∧
      (vc (applyAudit k v ac s) k v).cRel = (vc s k v).cRel ∧
      ((vc (applyAudit k v ac s) k v).c : Int) = (((vc s k v).c : Int) - d) % 65536 := by
  have corrected : applyAudit k v ac s = bumpBy 0x27 k 13 d.natAbs
      (setVc s k v { vc s k v with c := (((vc s k v).c - d) % 65536).toNat }) := by
    simp only [applyAudit, ← hd, if_neg h0, if_neg (Nat.not_lt.mpr hle)]
  rw [corrected]
  refine ⟨by simp [CountedBy], by simp, ?_⟩
  have nonneg : 0 ≤ (((vc s k v).c : Int) - d) % 65536 := Int.emod_nonneg _ (by decide)
  simp [Int.toNat_of_nonneg nonneg]

theorem applyAudit_retrains {ac : Nat} {d : Int} (ha : (link s k).st = .active) (hd : d = auditDelta (vc s k v) ac)
    (h0 : d ≠ 0) (hlt : (vc s k v).partnerBv < d.natAbs) : CountedBy 1 0x27 k 14 s (applyAudit k v ac s) ∧
      (link (applyAudit k v ac s) k).st = .sync := by
  have retrains : applyAudit k v ac s = startRetrain k 2 0xFF false (bumpLink k 14 s) := by
    simp only [applyAudit, ← hd, if_neg h0, if_pos hlt]
  rw [retrains]
  exact ⟨(countedBy_bumpLink (n := 14)).readCtr_keeps (readCtr_startRetrain (by decide) (by decide)),
    (link_startRetrain_self (by simpa using ha)).1⟩

/-! ### The commands -/

theorem exec_ackTimer {d : Nat} (hc : carries s k = true) (hd : (link s k).ackDue = some d) (hle : d ≤ s.now) :
    exec (.ackTimer k) s = .next (publish s (sendAck k s)) := act_on (by simp [hc, hd, hle])

theorem exec_ackReceived (hc : carries s k = true) (hb : blockGood kind b = true)
    (hr : returnOf kind b = (n, crv, v, cl, e)) :
    exec (.ackReceived k kind b) s = .next (publish s (applyReturn k n crv v cl e s)) := by
  simp only [exec, execAckReceived]
  rw [act_on (by simp [hc, hb]), hr]

/-- The link's replay timer has expired: counted, and noted for a NAK of the same ck (R207). -/
def noteTimeout (k : Nat) (s : State) : State := bumpLink k 7 (setLink s k { link s k with timerAt := some s.now })

theorem exec_replayTimeout {d : Nat} (hc : carries s k = true) (hd : replayDue s k = some d) (hle : d ≤ s.now) :
    exec (.replayTimeout k) s = .next (publish s (startEpisode k true (noteTimeout k s))) := by
  simp only [exec, execReplayTimeout]
  rw [act_on (by simp [hc, hd, hle])]
  rfl

theorem exec_linkDown (hck : ckRuns s = true) (hoff : (link s k).st ≠ .off) (hdet : (link s k).st ≠ .detect)
    (hwhy : (lanesRec s k).limitM ≤ (link s k).retrains ∨ keptLanes s k = 0) :
    exec (.linkDown k) s = .next (publish s (declareDown k (link s k).lastCause false s)) :=
  act_on (by simpa [hck, hoff, hdet] using hwhy)

theorem exec_controlBlockDiscard (hck : ckRuns s = true) (hoff : (link s k).st ≠ .off)
    (href : s.supply.srefFault = false) (hwhy : expectedType (link s k).st (blockType b) = false ∨
      checkedType (blockType b) = true ∧ crc8Good b = false) : exec (.controlBlockDiscard k b) s =
      .next (publish s (bumpLink k (if expectedType (link s k).st (blockType b) then 18 else 17) s)) :=
  act_on (by simpa [serdesRun, hck, hoff, href] using hwhy)

/-- What a discarded control block changes and counts. -/
theorem controlBlockDiscard_counts (hn : n < 256) :
    SameBut [.counters] s (publish s (bumpLink k n s)) ∧ CountedBy 1 0x27 k n s (publish s (bumpLink k n s)) :=
  ⟨by simp, countedBy_bumpLink.publish (frameCounter_link hn)⟩

/-- Settles O35: each clause is one command's operation, by its lemma; what a command counts it counts under numbers
of its own. -/
theorem linkUpkeepComplete : Obligations.LinkUpkeepComplete := by
  unfold Obligations.LinkUpkeepComplete
  refine fun s k => ⟨fun hc => ⟨?_, ?_, ?_, ?_, ?_, ?_, ?_⟩, fun hck => ⟨?_, fun hoff href => ⟨?_, ?_⟩, ?_⟩⟩
  · intro d hd hle hnak
    obtain ⟨-, hU, hdue, -⟩ := link_buildAck (s := s) (k := k) (type := 0x33) (v := returnVc s k)
    refine ⟨_, exec_ackTimer hc hd hle, ?_, ?_, by simpa using sendAck_waits hnak⟩
    · simpa [sendAck, sendAckFor_built hnak] using hdue
    · simpa [sendAck, sendAckFor_built hnak] using hU
  · intro kind b n v cl gone hb hr hgone h0 h2047 hstore
    have hn : n < 4096 := by simpa [hr] using returnOf_lt (kind := kind) (b := b)
    refine ⟨_, exec_ackReceived hc hb hr, ?_⟩
    simpa [applyReturn, takeCredit_noEmpty] using link_releaseUpTo hn hgone h0 h2047 hstore
  · intro kind b n v cl e hb hr hbeyond
    have ignored : applyReturn k n false v cl e s = bumpLink k 8 s := releaseUpTo_ignored hbeyond
    refine ⟨_, exec_ackReceived hc hb hr, ?_⟩
    rw [ignored]
    exact ⟨countedBy_bumpLink.publish (frameCounter_link (by decide)), by simp⟩
  · intro b u p rest hb hu ha hstore hm hlim
    obtain ⟨hepisode, hresend, -⟩ := link_startEpisode
      (counted := !((link s k).timerAt == some s.now)) hstore hm hlim
    have nak : CountedBy 1 0x27 k 5 s u := by
      refine (countedBy_bumpLink (n := 5)).readCtr_keeps ?_
      rw [hu, readCtr_applyReturn (by decide) (by decide) (by decide) (by decide)]
      split
      · rw [readCtr_undoTimer]
      · rfl
    refine ⟨_, exec_nakReceived hc hb hu ha, by simpa using hepisode, by simpa using hresend, fun h => ?_, fun h => ?_,
      (nak.readCtr_keeps (readCtr_startEpisode_other hstore hm hlim (by decide) (by decide))).publish
        (frameCounter_link (by decide))⟩
    · rw [beq_eq_false_iff_ne.mpr h]
      exact (startEpisode_counts hstore hm hlim).publish (frameCounter_link (by decide))
    · rw [readCtr_publish (frameCounter_link (by decide)), readCtr_startEpisode hstore hm hlim]
      simp [h, whenB]
  · intro p rest d hstore hdue hle hm hlim
    have noted : CountedBy 1 0x27 k 7 s (noteTimeout k s) := countedBy_bump (by simp)
    have hstore' : (link (noteTimeout k s) k).store = p :: rest := by simpa [noteTimeout] using hstore
    obtain ⟨hepisode, hresend, htimer⟩ := link_startEpisode (counted := true) hstore' hm hlim
    refine ⟨_, exec_replayTimeout hc hdue hle, by simpa using hepisode, by simpa using hresend,
      by simpa [noteTimeout] using htimer,
      ((startEpisode_counts hstore' hm hlim).of_readCtr_eq ?_).publish (frameCounter_link (by decide)),
      (noted.readCtr_keeps (readCtr_startEpisode_other hstore' hm hlim (by decide) (by decide))).publish
        (frameCounter_link (by decide))⟩
    exact readCtr_bumpBy_other (by decide)
  · rintro b x d hb hr rfl hd
    refine ⟨fun h0 => ⟨_, exec_auditReceived_level hc hb hr, ?_⟩,
      fun h0 hle => ⟨_, exec_auditReceived_level hc hb hr, ?_⟩,
      fun h0 hlt => ⟨_, exec_auditReceived_level hc hb hr, ?_⟩⟩
    · rw [applyAudit_level (hd.symm.trans h0)]
      simp
    · obtain ⟨hcounted, hrel, hcredit⟩ := applyAudit_corrects hd h0 hle
      exact ⟨hcounted.publish (frameCounter_link (by decide)), by simpa using hrel, by simpa using hcredit⟩
    · obtain ⟨hcounted, hsync⟩ := applyAudit_retrains (active_of_carries hc) hd h0 hlt
      exact ⟨hcounted.publish (frameCounter_link (by decide)), by simpa using hsync⟩
  · intro b hb hbeyond
    refine ⟨_, exec_auditReceived hc hb, ?_⟩
    rw [if_pos hbeyond]
    exact ⟨countedBy_bumpLink.publish (frameCounter_link (by decide)), by simp⟩
  · intro hoff hdet hwhy
    obtain ⟨hst, hdown, hstore, hcounted⟩ := declareDown_detects (s := s) (k := k) (cause := (link s k).lastCause)
    exact ⟨_, exec_linkDown hck hoff hdet hwhy, by simpa using hst, by simpa using hdown, by simpa using hstore,
      hcounted.publish (frameCounter_link (by decide))⟩
  · intro b hunexpected
    refine ⟨_, exec_controlBlockDiscard hck hoff href (.inl hunexpected), ?_⟩
    rw [hunexpected]
    exact controlBlockDiscard_counts (by decide)
  · intro b hexpected hchecked hbad
    refine ⟨_, exec_controlBlockDiscard hck hoff href (.inr ⟨hchecked, hbad⟩), ?_⟩
    rw [hexpected]
    exact controlBlockDiscard_counts (by decide)
  · intro j v hbare helim hplan hreset hpass
    have run : exec (.pairResetTimeout j v) s = .next (publish s (resetPair j v s)) :=
      act_on (by simp [hck, hbare, helim, hplan, hreset, hpass])
    exact ⟨_, run, by simp [resetPair],
      (countedBy_bump (by simp)).publish (frameCounter_low (by decide) (by decide))⟩

end Sys2Proof.Machine
end

section
/-!
SUPPORT. Training (09 R211 to R221): what an update leaves of a link's plan and masks, the blocks that wait on its kept
lanes, and what each training state is entered with.
-/
namespace Sys2Proof.Machine

variable {s t : State} {l : List Part} {k n m : Nat} {x : LinkSt} {y : LaneSt} {b : Block}

/-! ### Plan, record and masks -/

theorem plan_of_sameBut (h : SameBut l s t) (hl : .ladder ∉ l) : plan t = plan s := by
  have ladder : s.ladder = t.ladder := h .ladder hl
  simp [plan, ladderCode, ladderPin, ladder]

@[simp] theorem setLink_plan : plan (setLink s k x) = plan s ∧ linkLanes (setLink s k x) = linkLanes s ∧
    allLanes (setLink s k x) = allLanes s ∧ workingMask (setLink s k x) = workingMask s ∧
    maskLanes (setLink s k x) = maskLanes s ∧ laneHome (setLink s k x) = laneHome s ∧
    lanesRec (setLink s k x) = lanesRec s ∧ trainTimeout (setLink s k x) = trainTimeout s :=
  ⟨rfl, rfl, rfl, rfl, rfl, rfl, rfl, rfl⟩

@[simp] theorem setLane_plan : keptLanes (setLane s n y) = keptLanes s ∧ maskLanes (setLane s n y) = maskLanes s ∧
    laneHome (setLane s n y) = laneHome s ∧ laneRate (setLane s n y) = laneRate s ∧
    readyCk (setLane s n y) = readyCk s := ⟨rfl, rfl, rfl, rfl, rfl⟩

@[simp] theorem keptLanes_setLink (h : x.excluded = (link s k).excluded) :
    keptLanes (setLink s k x) k = keptLanes s k := by simp [keptLanes, h]

@[simp] theorem readyCk_setLink (h : x.wakeEnd = (link s k).wakeEnd) :
    readyCk (setLink s k x) k = readyCk s k := by
  funext ck
  simp [readyCk, h]

theorem allLanes_of_sameBut (h : SameBut l s t) (hl : .ladder ∉ l) : allLanes t = allLanes s := by
  funext k
  simp only [allLanes, width, linkLanes, plan_of_sameBut h hl]

theorem keptLanes_of_sameBut (h : SameBut l s t) (hl : .ladder ∉ l ∧ .links ∉ l) : keptLanes t = keptLanes s := by
  funext k
  simp only [keptLanes, allLanes_of_sameBut h hl.1, link_of_sameBut h hl.2]

theorem linkLanes_of_sameBut (h : SameBut l s t) (hl : .ladder ∉ l) : linkLanes t = linkLanes s := by
  funext k
  simp only [linkLanes, plan_of_sameBut h hl]

theorem workingMask_of_sameBut (h : SameBut l s t) (hl : .ladder ∉ l) : workingMask t = workingMask s := by
  funext k
  simp only [workingMask, width, allLanes_of_sameBut h hl, linkLanes_of_sameBut h hl, plan_of_sameBut h hl]

theorem maskLanes_of_sameBut (h : SameBut l s t) (hl : .ladder ∉ l) : maskLanes t = maskLanes s := by
  funext k m
  simp only [maskLanes, linkLanes_of_sameBut h hl]

theorem trainTimeout_of_sameBut (h : SameBut l s t) (hl : .tables ∉ l ∧ .ladder ∉ l) :
    trainTimeout t = trainTimeout s := by
  funext k st
  simp only [trainTimeout, lanesRec_of_sameBut h hl]

@[simp] theorem publish_plan : keptLanes (publish s t) = keptLanes t ∧ lanesRec (publish s t) = lanesRec t :=
  have same : SameBut [] t (publish s t) := by simp
  ⟨keptLanes_of_sameBut same (by simp), lanesRec_of_sameBut same (by simp)⟩

/-- A lane that is kept leaves some lane kept. -/
theorem ne_zero_of_hasBit {i : Nat} (h : hasBit m i = true) : m ≠ 0 := by
  rintro rfl
  simp [hasBit] at h

/-- A mask that passes two tests passes the second. -/
theorem and_eq_of_and_and {a b : Nat} (h : a &&& b &&& m = m) : b &&& m = m := by
  rw [← h, ← Nat.and_assoc, Nat.and_comm b, Nat.and_assoc a b b, Nat.and_self]

/-! ### Blocks that wait on the lanes (08 R178) -/

/-- A lane but for the blocks that wait on it. -/
def offQueue (y : LaneSt) : LaneSt := { y with queue := [] }

theorem offQueue_queueLane {j : Nat} : offQueue (lane (queueLane k j b s) n) = offQueue (lane s n) := by
  simp only [queueLane, lane_setLane]
  split
  next hn => subst hn; rfl
  next => rfl

theorem offQueue_onLanes : offQueue (lane (onLanes k b s) n) = offQueue (lane s n) :=
  each_keeps (g := fun u => offQueue (lane u n)) fun _ _ => offQueue_queueLane

/-- What waits on a lane is not put off it by another block. -/
theorem mem_queue_queueLane {j : Nat} {p : Nat × Block} (h : p ∈ (lane s n).queue) :
    p ∈ (lane (queueLane k j b s) n).queue := by
  simp only [queueLane, lane_setLane]
  split
  next hn => subst hn; simp [h]
  next => exact h

/-- One block on each lane of a list. -/
def onEach (k : Nat) (b : Block) (js : List Nat) (s : State) : State := each js (fun j => queueLane k j b) s

theorem onEach_cons {j : Nat} {js : List Nat} : onEach k b (j :: js) s = onEach k b js (queueLane k j b s) := rfl

theorem mem_queue_onEach {js : List Nat} {p : Nat × Block} (h : p ∈ (lane s n).queue) :
    p ∈ (lane (onEach k b js s) n).queue := by
  induction js generalizing s with
  | nil => exact h
  | cons j js ih => exact ih (mem_queue_queueLane h)

theorem onEach_waits {js : List Nat} (h : n ∈ js) : (readyCk s k 8, b) ∈ (lane (onEach k b js s) n).queue := by
  induction js generalizing s with
  | nil => cases h
  | cons j js ih =>
    have ready : readyCk (queueLane k j b s) k 8 = readyCk s k 8 := by simp [queueLane]
    rw [onEach_cons]
    rcases List.mem_cons.1 h with rfl | h
    · exact mem_queue_onEach (by simp [queueLane])
    · exact ready ▸ ih h

theorem mem_queue_onLanes {p : Nat × Block} (h : p ∈ (lane s n).queue) : p ∈ (lane (onLanes k b s) n).queue :=
  mem_queue_onEach h

/-- A block sent on every kept lane waits on each. -/
theorem onLanes_waits (h : n ∈ maskLanes s k (keptLanes s k)) :
    (readyCk s k 8, b) ∈ (lane (onLanes k b s) n).queue := onEach_waits h

@[simp] theorem link_onLanes : link (onLanes k b s) = link s :=
  link_of_sameBut (l := [.lanes]) (by simp) (by decide)

/-! ### The states (R212) -/

theorem link_enterState {st : LinkState} : link (enterState k st s) k =
    { link s k with st := st, stateDue := s.now + trainTimeout s k st } := by simp [enterState]

theorem link_enterAlign : link (enterAlign k s) k =
    { link s k with st := .align, stateDue := s.now + trainTimeout s k .align, tsCount := 0 } := by
  simp [enterAlign, enterState]

theorem link_enterParam : link (enterParam k s) k =
    { link s k with st := .param, stateDue := s.now + trainTimeout s k .param, paramNext := 0 } := by
  simp [enterParam, enterState]

/-- EQUALIZE's first requests touch the lanes alone. -/
theorem link_enterEqualize : link (enterEqualize k s) k =
    { link s k with st := .equalize, stateDue := s.now + trainTimeout s k .equalize } := by
  have requests : SameBut [.lanes] (enterState k .equalize s) (enterEqualize k s) := by
    refine (same_each fun n u => ?_).2 SameBut.refl
    (repeat' split) <;> simp
  rw [link_of_sameBut requests (by decide), link_enterState]

theorem stateDue_enterSync {again : Bool} :
    (link (enterSync k again s) k).stateDue = s.now + trainTimeout s k .sync := by
  have cleared : SameBut [.lanes] s (each (linkLanes s k) (fun n s => setLane s n { lane s n with
      deferred := false, queue := [], calWait := none, rxHist := none, rxBad := false }) s) := by simp
  simp only [enterSync, link_enterState, setLink_plan, setLink_fields, now_of_sameBut cleared (by decide),
    trainTimeout_of_sameBut cleared (by decide)]

end Sys2Proof.Machine
end

section
/-!
SUPPORT. The training states from DETECT to SPEEDUP (09 R211 to R216): what a change of block lock completes, what the
exchange of PARAM completes, and what goes out on the way.
-/
namespace Sys2Proof.Machine

variable {s t : State} {k : Nat} {b : Block} {x : LinkSt}

/-! ### Block lock (R212, R214) -/

/-- What has completed EQUALIZE on every kept lane holds block lock there. -/
theorem locked_of_equalized (h : equalized s k = keptLanes s k) :
    (link s k).locked &&& keptLanes s k = keptLanes s k := and_eq_of_and_and h

/-- A kept lane without block lock holds up every state. -/
theorem lockChanged_waits (h : (link s k).locked &&& keptLanes s k ≠ keptLanes s k) : lockChanged k s = s := by
  simp only [lockChanged]
  split
  next => simp [tryParam, allLocked, h]
  next =>
    have unequal : equalized s k ≠ keptLanes s k := fun e => h (locked_of_equalized e)
    simp [tryReady, unequal]
  next => simp [tryLocked, h]

theorem lockChanged_sync (hst : (link s k).st = .sync) (h0 : keptLanes s k ≠ 0)
    (h : (link s k).locked &&& keptLanes s k = keptLanes s k) : lockChanged k s = enterAlign k s := by
  simp [lockChanged, tryLocked, hst, h0, h]

theorem lockChanged_speedup (hst : (link s k).st = .speedup) (hrate : (link s k).rate = (link s k).agreed)
    (h0 : keptLanes s k ≠ 0) (h : (link s k).locked &&& keptLanes s k = keptLanes s k) :
    lockChanged k s = enterEqualize k s := by
  simp [lockChanged, tryLocked, hst, hrate, h0, h]

/-- The link once a lane has gained or lost block lock. -/
def relocked (x : LinkSt) (i : Nat) (on : Bool) : LinkSt :=
  if on then { x with locked := setBit x.locked i }
  else { x with locked := clrBit x.locked i, aligned := clrBit x.aligned i }

theorem relocked_eq {i : Nat} {on : Bool} : relocked x i on = { x with
    locked := if on then setBit x.locked i else clrBit x.locked i
    aligned := if on then x.aligned else clrBit x.aligned i } := by cases on <;> rfl

/-! ### PARAM (R211, R215) -/

/-- What PARAM carries is of the record, the kept lanes, the link and its VCs. -/
theorem paramContent_congr {i : Nat} (hrec : lanesRec t k = lanesRec s k) (hkept : keptLanes t k = keptLanes s k)
    (hS : (link t k).rxS = (link s k).rxS) (hvc : vc t k = vc s k) : paramContent t k i = paramContent s k i := by
  simp only [paramContent, hrec, hkept, hS, hvc]

theorem paramContent_setLink {i : Nat} (he : x.excluded = (link s k).excluded) (hS : x.rxS = (link s k).rxS) :
    paramContent (setLink s k x) k i = paramContent s k i :=
  paramContent_congr rfl (keptLanes_setLink he) (by simp [hS]) rfl

theorem paramsAgree_congr (hrec : lanesRec t k = lanesRec s k) (hkept : keptLanes t k = keptLanes s k)
    (hparams : partnerParam t k = partnerParam s k) : paramsAgree t k = paramsAgree s k := by
  have index0 : paramContent t k 0 = paramContent s k 0 := by simp only [paramContent, hrec, hkept]
  have index1 : paramContent t k 1 = paramContent s k 1 := by simp only [paramContent, hrec]
  simp only [paramsAgree, hparams, hrec, index0, index1]

theorem tryParam_waits (h : (link s k).paramAcked = false) : tryParam k s = s := by simp [tryParam, paramDone, h]

/-- Excluding no lane leaves the link as it was. -/
theorem excludeLanes_none {cause : Nat} : excludeLanes k 0 cause s = setLink s k (link s k) := by
  simp [excludeLanes, maskLanes, hasBit, each, whenB]

/-- What PARAM has agreed on (R215), before any lane is excluded. -/
def agreedOn (k : Nat) (s : State) : State :=
  let rate := bf (partnerParam s k 0) 12 2
  let b := partnerParam s k 11
  setLink (if rate < (lanesRec s k).rate then bumpLink k 22 s else s) k { link s k with
    agreed := rate, moduleRates := bf b 12 3, moduleStore := bf b 15 8, vendor := bf b 23 16
    keepEq := (link s k).retrain && rate == (link s k).rate }

theorem keptLanes_agreedOn : keptLanes (agreedOn k s) k = keptLanes s k := by
  simp only [agreedOn]
  split <;> exact keptLanes_setLink (by simp)

theorem finishParam_eq {rate : Nat} (hrate : rate = bf (partnerParam s k 0) 12 2) (h0 : keptLanes s k ≠ 0)
    (hall : keptLanes s k - (keptLanes s k &&& bf (partnerParam s k 0) 30 8) = 0) : finishParam k s =
      if rate = (link s k).rate then enterEqualize k (setLink (agreedOn k s) k (link (agreedOn k s) k))
      else
        let u := enterState k .speedup (setLink (agreedOn k s) k (link (agreedOn k s) k))
        setLink u k { link u k with locked := 0, speedLeft := some 16 } := by
  have begun : finishParam k s =
      let u := excludeLanes k (keptLanes (agreedOn k s) k -
        (keptLanes (agreedOn k s) k &&& bf (partnerParam (agreedOn k s) k 0) 30 8)) 7 (agreedOn k s)
      if keptLanes u k = 0 then noneFinished k u
      else if bf (partnerParam s k 0) 12 2 = (link s k).rate then enterEqualize k u
      else
        let u := enterState k .speedup u
        setLink u k { link u k with locked := 0, speedLeft := some 16 } := rfl
  have theirs : partnerParam (agreedOn k s) k 0 = partnerParam s k 0 := by simp [agreedOn, partnerParam]
  rw [begun, theirs, keptLanes_agreedOn, hall, excludeLanes_none, ← hrate]
  simp [keptLanes_agreedOn, h0]

theorem finishParam_agrees {rate : Nat} (hrate : rate = bf (partnerParam s k 0) 12 2) (h0 : keptLanes s k ≠ 0)
    (hall : keptLanes s k - (keptLanes s k &&& bf (partnerParam s k 0) 30 8) = 0) :
    (link (finishParam k s) k).agreed = rate ∧
    (rate = (link s k).rate → (link (finishParam k s) k).st = .equalize) ∧
    (rate ≠ (link s k).rate →
      (link (finishParam k s) k).st = .speedup ∧ (link (finishParam k s) k).speedLeft = some 16) := by
  have agreed : (link (agreedOn k s) k).agreed = rate := by simp [agreedOn, hrate]
  rw [finishParam_eq hrate h0 hall]
  by_cases same : rate = (link s k).rate
  · simp [same, link_enterEqualize, agreed.trans same]
  · simp [same, link_enterState, agreed]

/-- The link once a PARAM_ACK has said whether the module's mask is full. -/
def acked (full : Bool) (k : Nat) (s : State) : State := setLink s k { link s k with paramAcked := full }

theorem link_acked {full : Bool} : link (acked full k s) k = { link s k with paramAcked := full } := by simp [acked]

theorem keptLanes_acked {full : Bool} : keptLanes (acked full k s) k = keptLanes s k := by simp [acked]

theorem partnerParam_acked {full : Bool} : partnerParam (acked full k s) k = partnerParam s k := by
  funext i
  simp only [partnerParam, link_acked]

theorem paramsAgree_acked {full : Bool} : paramsAgree (acked full k s) k = paramsAgree s k :=
  paramsAgree_congr rfl keptLanes_acked partnerParam_acked

/-- The acknowledgement of a set that agrees ends PARAM. -/
theorem tryParam_acked (hseen : (link s k).paramSeen = 0x0FFF) (hagree : paramsAgree s k = true)
    (hlock : allLocked s k = true) : tryParam k (acked true k s) = finishParam k (acked true k s) := by
  have locked : allLocked (acked true k s) k = true := by
    simpa only [allLocked, link_acked, keptLanes_acked] using hlock
  have done : paramDone (acked true k s) k = true := by simp [paramDone, link_acked, hseen, paramsAgree_acked, hagree]
  simp [tryParam, done, locked]

/-! ### What goes out (R211) -/

theorem trainingBlock_param {i : Nat} (hst : (link s k).st = .param) : trainingBlock s k i = some (syncControl,
    mkParam (link s k).paramNext (paramContent s k (link s k).paramNext)) := by simp [trainingBlock, hst]

theorem link_countRow_param (hst : (link s k).st = .param) : (link (countRow k s) k).st = .param ∧
    (link (countRow k s) k).paramNext = ((link s k).paramNext + 1) % 12 := by simp [countRow, hst]

theorem paramContent_countRow {i : Nat} : paramContent (countRow k s) k i = paramContent s k i :=
  paramContent_setLink rfl rfl

theorem paramContent_publish {o : State} {i : Nat} : paramContent (publish o s) k i = paramContent s k i :=
  paramContent_congr (by simp) (by simp) (by simp) (by simp)

/-- PARAM begins with its index 0. -/
theorem trainingBlock_enterParam {o : State} {i : Nat} : trainingBlock (publish o (enterParam k s)) k i =
    some (syncControl, mkParam 0 (paramContent s k 0)) := by
  have content : paramContent (enterParam k s) k 0 = paramContent s k 0 :=
    paramContent_congr rfl (by simp [enterParam, enterState]) (by simp [link_enterParam]) rfl
  rw [trainingBlock_param (by simp [link_enterParam])]
  simp [link_enterParam, paramContent_publish, content]

/-! ### The commands -/

section
variable {k : Link} (hrun : serdesRun s = true)
include hrun

theorem exec_detectBeacon (hst : (link s k).st = .detect) (hdue : (link s k).beaconDue ≤ s.now) :
    exec (.detectBeacon k) s = .next (publish s (setLink s k { link s k with
      beaconDue := s.now + msCk (link s k).backoff, beaconLeft := 64 })) := by
  simp only [exec, execDetectBeacon]
  exact act_on (by simp [hrun, hst, hdue])

theorem exec_backoffReset (hst : (link s k).st = .active) (hlong : (link s k).backoff ≠ 1)
    (hdue : (link s k).activeSince + msCk 1000 ≤ s.now) : exec (.backoffReset k) s =
      .next (publish s (setLink s k { link s k with backoff := 1 })) := by
  have runs : ckRuns s = true := (Bool.and_eq_true_iff.1 hrun).1
  simp only [exec, execBackoffReset]
  exact act_on (by simp [runs, hst, hlong, hdue])

theorem exec_ts1Detected (hst : (link s k).st = .detect) (hb : trainingGood 0x80 b = true) :
    exec (.ts1Detected k b) s = .next (publish s (enterSync k false s)) := by
  simp only [exec, execTs1Detected]
  exact act_on (by simp [hrun, hst, hb])

theorem exec_blockLock {i : Fin 8} {on : Bool} (hi : hasBit (keptLanes s k) i = true) (hoff : (link s k).st ≠ .off)
    (hdet : (link s k).st ≠ .detect) : exec (.blockLock k i on) s =
      .next (publish s (lockChanged k (setLink s k (relocked (link s k) i on)))) := by
  simp only [exec, execBlockLock]
  rw [act_on (by simp [hrun, hi, hoff, hdet])]
  rfl

theorem exec_alignComplete {m : BitVec 8} {aligned : Nat} (hst : (link s k).st = .align)
    (ha : aligned = m.toNat &&& (link s k).locked) : exec (.alignComplete k m) s = .next (publish s
      (if keptLanes s k ≠ 0 ∧ aligned &&& keptLanes s k = keptLanes s k
        then enterParam k (setLink s k { link s k with aligned := aligned })
        else setLink s k { link s k with aligned := aligned })) := by
  simp only [exec, execAlignComplete]
  rw [act_on (by simp [hrun, hst])]
  simp [← ha]

theorem exec_paramReceived_reserved (hst : (link s k).st = .param) (hb : trainingGood 0x82 b = true)
    (hi : 12 ≤ bf b 8 4) : exec (.paramReceived k b) s = .next (publish s (bumpLink k 17 s)) := by
  simp only [exec, execParamReceived]
  rw [act_on (by simp [hrun, hst, hb]), if_pos hi]

theorem exec_paramReceived {seen : Nat} (hst : (link s k).st = .param) (hb : trainingGood 0x82 b = true)
    (hi : bf b 8 4 < 12) (hseen : seen = if mFind (link s k).params (bf b 8 4) = some b
      then setBit (link s k).paramSeen (bf b 8 4) else clrBit (link s k).paramSeen (bf b 8 4)) :
    exec (.paramReceived k b) s = .next (publish s (tryParam k (onLanes k (mkParamAck seen) (setLink s k
      { link s k with params := mSet (link s k).params (bf b 8 4) b, paramSeen := seen })))) := by
  simp only [exec, execParamReceived]
  rw [act_on (by simp [hrun, hst, hb]), if_neg (Nat.not_le.mpr hi), ← hseen]

theorem exec_paramAckReceived (hst : (link s k).st = .param) (hb : trainingGood 0x83 b = true) :
    exec (.paramAckReceived k b) s = .next (publish s (tryParam k (acked (bf b 8 16 == 0x0FFF) k s))) := by
  simp only [exec, execParamAckReceived]
  exact act_on (by simp [hrun, hst, hb])

theorem exec_speedCountdownEnd (hst : (link s k).st = .speedup) (hrate : (link s k).rate ≠ (link s k).agreed)
    (hleft : (link s k).speedLeft = none) (hdue : (link s k).rowDue ≤ s.now) : exec (.speedCountdownEnd k) s =
      .next (publish s (setLink s k { link s k with
        rate := (link s k).agreed, locked := 0, rowDue := s.now + usCk 1 })) := by
  simp only [exec, execSpeedCountdownEnd]
  exact act_on (by simp [hrun, hst, hrate, hleft, hdue])

end

/-- Settles O36: DETECT is left for SYNC, SYNC and SPEEDUP by the last block lock, ALIGN by the last aligned lane, PARAM
by the acknowledgement of a set that agrees. -/
theorem trainingStatesComplete : Obligations.TrainingStatesComplete := by
  unfold Obligations.TrainingStatesComplete
  intro s k hrun
  refine ⟨fun hst => ⟨fun hdue => ?_, fun b hb => ?_⟩, fun ha hlong hdue => ?_, fun i on y hi hoff hdet hy => ?_,
    fun m y hst hy => ?_, fun hst => ⟨fun i => ?_, fun b hb hi => ?_, fun b y hb hi ha hy => ?_, fun b hb hm => ?_,
    fun b rate hb hm hseen hagree hlock h0 hall hrate => ?_⟩, fun hst hrate hleft hdue => ?_⟩
  · exact ⟨_, exec_detectBeacon hrun hst hdue, by simp⟩
  · obtain ⟨hsync, hretrain, -⟩ := link_enterSync_self (s := s) (k := k) (again := false)
    exact ⟨_, exec_ts1Detected hrun hst hb, by simpa using hsync, by simpa using hretrain,
      by simpa using stateDue_enterSync⟩
  · exact ⟨_, exec_backoffReset hrun ha hlong hdue, by simp⟩
  · have h0 : keptLanes s k ≠ 0 := ne_zero_of_hasBit hi
    refine ⟨_, exec_blockLock hrun hi hoff hdet, fun hlost => ?_, fun hall hst => ?_, fun hall hst hrate => ?_⟩
    · rw [lockChanged_waits (by simpa [relocked_eq, ← hy] using hlost)]
      simp [relocked_eq, hy]
    · rw [lockChanged_sync (by simpa [relocked_eq] using hst) (by simpa [relocked_eq] using h0)
        (by simpa [relocked_eq, ← hy] using hall)]
      simp [link_enterAlign]
    · rw [lockChanged_speedup (by simpa [relocked_eq] using hst) (by simpa [relocked_eq] using hrate)
        (by simpa [relocked_eq] using h0) (by simpa [relocked_eq, ← hy] using hall)]
      simp [link_enterEqualize]
  · refine ⟨_, exec_alignComplete hrun hst hy, fun hlost => ?_, fun h0 hall => ?_⟩
    · simp [hlost]
    · rw [if_pos ⟨h0, hall⟩]
      exact ⟨by simp [link_enterParam], fun i => by rw [trainingBlock_enterParam, paramContent_setLink] <;> rfl⟩
  · obtain ⟨hparam, hnext⟩ := link_countRow_param hst
    rw [trainingBlock_param hparam, hnext, paramContent_countRow]
  · exact ⟨_, exec_paramReceived_reserved hrun hst hb hi, countedBy_bumpLink.publish (frameCounter_link (by decide)),
      by simp⟩
  · refine ⟨_, exec_paramReceived hrun hst hb hi hy, ?_⟩
    rw [tryParam_waits (by simpa using ha)]
    refine ⟨fun n hn => ?_, by simp, by simp [mFind_mSet]⟩
    have waits := onLanes_waits (k := k) (s := setLink s k { link s k with
      params := mSet (link s k).params (bf b 8 4) b, paramSeen := y }) (b := mkParamAck y) (by simpa using hn)
    simpa using waits
  · have short : (bf b 8 16 == 0x0FFF) = false := beq_eq_false_iff_ne.2 hm
    refine ⟨_, exec_paramAckReceived hrun hst hb, ?_⟩
    rw [short, tryParam_waits (by rw [link_acked])]
    simp [link_acked]
  · have full : (bf b 8 16 == 0x0FFF) = true := beq_iff_eq.2 hm
    refine ⟨_, exec_paramAckReceived hrun hst hb, ?_⟩
    rw [full, tryParam_acked hseen hagree hlock]
    have ends := finishParam_agrees (s := acked true k s) (rate := rate) (by rw [partnerParam_acked, hrate])
      (by rwa [keptLanes_acked]) (by rwa [keptLanes_acked, partnerParam_acked])
    simpa [link_acked] using ends
  · exact ⟨_, exec_speedCountdownEnd hrun hst hrate hleft hdue, by simp [hst]⟩

end Sys2Proof.Machine
end

section
/-!
SUPPORT. EQUALIZE's end, the READY exchange, timeouts and retrains (09 R217 to R221; 08 R192, R199): what each leaves of
the link, what waits on its lanes, and what is counted.
-/
namespace Sys2Proof.Machine

variable {s t : State} {k n m i theirs lost : Nat} {b : Block} {p : Nat × Block}

/-! ### Emphasis (R217) -/

/-- A transmitter takes the setting that its partner asks for. -/
def emphasize (k i e : Nat) (s : State) : State :=
  match physLane s k i with
  | some n => setLane s n { lane s n with emphasis := e }
  | none => s

theorem lane_emphasize {e : Nat} (h : physLane s k i = some n) :
    lane (emphasize k i e s) n = { lane s n with emphasis := e } := by simp [emphasize, h]

theorem emphasize_none {e : Nat} (h : physLane s k i = none) : emphasize k i e s = s := by simp [emphasize, h]

theorem same_emphasize {e : Nat} : SameBut [.lanes] s (emphasize k i e s) := by
  simp only [emphasize]
  split <;> simp

/-- The module has chosen a setting for a lane. -/
def takeDone (k i e : Nat) (s : State) : State :=
  emphasize k i e (setLink s k { link s k with eqRecv := setBit (link s k).eqRecv i })

theorem link_takeDone {e : Nat} : link (takeDone k i e s) k = { link s k with
    eqRecv := setBit (link s k).eqRecv i } := by
  rw [takeDone, link_of_sameBut same_emphasize (by decide)]
  simp

theorem lane_takeDone {e : Nat} (h : physLane s k i = some n) :
    lane (takeDone k i e s) n = { lane s n with emphasis := e } :=
  lane_emphasize (s := setLink s k { link s k with eqRecv := setBit (link s k).eqRecv i }) h

theorem same_takeDone {e : Nat} : SameBut [.links, .lanes] s (takeDone k i e s) := by
  have linked : SameBut [.links, .lanes] s (setLink s k { link s k with eqRecv := setBit (link s k).eqRecv i }) := by
    simp
  exact linked.trans (same_emphasize.mono (by simp))

theorem keptLanes_takeDone {e : Nat} : keptLanes (takeDone k i e s) k = keptLanes s k := by
  rw [takeDone, keptLanes_of_sameBut same_emphasize (by decide)]
  simp

theorem ownFinal_takeDone {e : Nat} : ownFinal (takeDone k i e s) k = ownFinal s k := by
  simp only [ownFinal, keptLanes_takeDone, link_takeDone, plan_of_sameBut same_takeDone (by decide),
    workingMask_of_sameBut same_takeDone (by decide)]

theorem readyCk_takeDone {e ck : Nat} : readyCk (takeDone k i e s) k ck = readyCk s k ck := by
  simp only [readyCk, link_takeDone, now_of_sameBut same_takeDone (by decide)]

/-! ### READY goes out (R218) -/

theorem link_sendReady : link (sendReady k m s) k = { link s k with readySent := m } := by simp [sendReady]

theorem offQueue_sendReady : offQueue (lane (sendReady k m s) n) = offQueue (lane s n) := by
  simp [sendReady, offQueue_onLanes]

theorem mem_queue_sendReady (h : p ∈ (lane s n).queue) : p ∈ (lane (sendReady k m s) n).queue :=
  mem_queue_onLanes (by simpa using h)

theorem sendReady_waits (h : n ∈ maskLanes s k (keptLanes s k)) :
    (readyCk s k 8, mkReady (link s k).rxS m) ∈ (lane (sendReady k m s) n).queue := by
  have waits := onLanes_waits (k := k) (s := setLink s k { link s k with readySent := m })
    (b := mkReady (link s k).rxS m) (by simpa using h)
  simpa [sendReady] using waits

theorem tryReady_waits (h : equalized s k ≠ keptLanes s k) : tryReady k s = s := by simp [tryReady, h]

theorem tryReady_begins (hsent : (link s k).readySent = 0) (h0 : keptLanes s k ≠ 0)
    (h : equalized s k = keptLanes s k) : tryReady k s = sendReady k (ownFinal s k) s := by
  simp [tryReady, beginReady, hsent, h0, h]

/-- Whether or not READY goes out, no lane changes but for what waits on it, and that stays. -/
theorem offQueue_tryReady : offQueue (lane (tryReady k s) n) = offQueue (lane s n) := by
  simp only [tryReady, beginReady]
  split
  · exact offQueue_sendReady
  · rfl

theorem mem_queue_tryReady (h : p ∈ (lane s n).queue) : p ∈ (lane (tryReady k s) n).queue := by
  simp only [tryReady, beginReady]
  split
  · exact mem_queue_sendReady h
  · exact h

/-! ### READY comes in (R218, R221) -/

/-- Excluding lanes leaves what READY has been sent with and received on. -/
theorem ready_excludeLanes {cause j : Nat} :
    (link (excludeLanes k m cause s) j).readySent = (link s j).readySent ∧
    (link (excludeLanes k m cause s) j).readyRecv = (link s j).readyRecv := by
  simp only [excludeLanes]
  rw [link_of_sameBut (l := [.counters, .faults]) ((same_whenB (by simp)).2 ((same_each (by simp)).2 SameBut.refl))
    (by decide), link_setLink]
  split
  next hj => subst hj; exact ⟨rfl, rfl⟩
  next => exact ⟨rfl, rfl⟩

/-- READY has been received on one more lane. -/
def noteReady (k i : Nat) (s : State) : State :=
  setLink s k { link s k with readyRecv := setBit (link s k).readyRecv i }

theorem link_noteReady : link (noteReady k i s) k = { link s k with
    readyRecv := setBit (link s k).readyRecv i } := by simp [noteReady]

/-- A module whose mask holds every lane of this end's leaves the mask as it is. -/
theorem meetMask_agrees (h : (link s k).readySent &&& theirs = (link s k).readySent) : meetMask k theirs s = s := by
  have working : (link s k).readySent &&& workingMask s k &&& theirs = (link s k).readySent &&& workingMask s k := by
    rw [Nat.and_right_comm, h]
  simp [meetMask, dropFromMask, working]

/-- READY's mask once lanes have fallen out of the one sent before. -/
def leftMask (v : State) (k m : Nat) : Nat :=
  equalized v k &&& (ownFinal v k &&& (m ||| (allLanes v k - workingMask v k)))

theorem dropFromMask_eq (h : lost ≠ 0) : dropFromMask k lost s = sendReady k
    (leftMask (excludeLanes k lost 7 s) k (link s k).readySent) (excludeLanes k lost 7 s) := by
  simp [dropFromMask, h, leftMask]

/-- Working lanes that the module leaves out of its mask fall out of this end's, whose READY goes out again. -/
theorem link_meetMask {v : State} (h0 : lost ≠ 0) (h : lost = ((link s k).readySent &&& workingMask s k) -
    ((link s k).readySent &&& workingMask s k &&& theirs)) (hv : v = excludeLanes k lost 7 s)
    (hm : m = equalized v k &&& (ownFinal v k &&& ((link s k).readySent ||| (allLanes s k - workingMask s k)))) :
    link (meetMask k theirs s) k = { link v k with readySent := m } := by
  have excluded : SameBut [.links, .counters, .faults] s v := by simp [hv]
  have left : leftMask v k (link s k).readySent = m := by
    rw [leftMask, allLanes_of_sameBut excluded (by decide), workingMask_of_sameBut excluded (by decide), hm]
  rw [meetMask, ← h, dropFromMask_eq h0, ← hv, left, link_sendReady]

/-! ### ACTIVE begins (R218) -/

/-- A new timing lane's path delay touches neither the final mask nor the start of ACTIVE. -/
theorem freshPath_keeps {c : Prop} [Decidable c] {y : LinkSt} :
    (if c then y else freshPath y).finalMask = y.finalMask ∧
    (if c then y else freshPath y).activeSince = y.activeSince := by split <;> exact ⟨rfl, rfl⟩

/-- ACTIVE's entry puts the final mask in force, whatever it does to lanes, credit and replay. -/
theorem link_enterActive : (link (enterActive k m s) k).st = .active ∧ (link (enterActive k m s) k).finalMask = m ∧
    (link (enterActive k m s) k).retrain = false ∧ (link (enterActive k m s) k).activeSince = s.now := by
  have now : (enterActive k m s).now = s.now :=
    now_of_sameBut (l := [.links, .vcs, .pairs, .lanes, .counters]) (by simp) (by decide)
  simp only [enterActive, setLink_fields] at now
  simp only [enterActive, link_setLink, ↓reduceIte, freshPath_keeps, now, and_self]

theorem tryActive_waits (h : (link s k).readySent &&& (link s k).readyRecv ≠ (link s k).readySent) :
    tryActive k s = s := by simp [tryActive, h]

theorem tryActive_enters (h0 : (link s k).readySent ≠ 0)
    (h : (link s k).readySent &&& (link s k).readyRecv = (link s k).readySent) :
    tryActive k s = enterActive k (link s k).readySent s := by simp [tryActive, h0, h]

/-! ### Timeouts (R212, R219) -/

section
variable {k : Link}

/-- A link declared down goes back to DETECT; what counts the timeout is not its count. -/
theorem declareDown_uncounted {cause : Nat} {timedOut : Bool} :
    ∃ w, declareDown k cause timedOut s = toDetect k timedOut true w ∧
      readCtr w 0x27 k 21 = readCtr s 0x27 k 21 := by
  refine ⟨_, rfl, ?_⟩
  rw [readCtr_staleFromLink (by decide)]
  simp only [logFault_subs]
  rw [readCtr_bumpBy_other (by decide), readCtr_bumpLink_other (by decide) (by decide) (by decide)]

/-- DETECT by way of a link down in a retrain, at once in first training; either is counted. -/
theorem noneFinished_detects : (link (noneFinished k s) k).st = .detect ∧
    CountedBy 1 0x27 k 21 s (noneFinished k s) := by
  have counted : CountedBy 1 0x27 k 21 s
      (logFault 0x43 k (7 + 0xFF * 256 + stateCode (link s k).st * 65536) (bumpLink k 21 s)) :=
    countedBy_bumpLink.readCtr_keeps (by simp only [logFault_subs])
  have detects : ∃ timedOut down w, noneFinished k s = toDetect k timedOut down w ∧ CountedBy 1 0x27 k 21 s w := by
    simp only [noneFinished]
    split
    · obtain ⟨w, down, hctr⟩ := declareDown_uncounted (k := k) (cause := 7) (timedOut := true)
      exact ⟨true, true, w, down, counted.readCtr_keeps hctr⟩
    · exact ⟨true, false, _, rfl, counted⟩
  obtain ⟨timedOut, down, w, hw, hctr⟩ := detects
  rw [hw]
  exact ⟨link_toDetect.1, hctr.readCtr_keeps (readCtr_toDetect (by decide) (by decide))⟩

/-- No lane finishes DETECT. -/
theorem finishedLanes_detect (h : (link s k).st = .detect) : finishedLanes s k = 0 := by simp [finishedLanes, h]

theorem detectAgain_backs_off : (link (detectAgain k s) k).st = (link s k).st ∧
    (link (detectAgain k s) k).backoff = min 256 (2 * (link s k).backoff) ∧
    CountedBy 1 0x27 k 21 s (detectAgain k s) := by
  have counted : ∀ u, readCtr u = readCtr s → CountedBy 1 0x27 k 21 s (bumpLink k 21 u) := fun u hu =>
    countedBy_bump (by rw [hu])
  refine ⟨by simp [detectAgain], by simp [detectAgain], ?_⟩
  simp only [detectAgain]
  refine (counted _ ?_).readCtr_keeps (readCtr_bumpLink_other (by decide) (by decide) (by decide))
  simp

end

/-! ### Retrains (R220; 08 R192) -/

/-- A retrain's own count is not that of an exclusion or a spare. -/
theorem readCtr_excludeLanes_retrains {k : Link} {cause : Nat} :
    readCtr (excludeLanes k m cause s) 0x27 k 9 = readCtr s 0x27 k 9 := by
  have lanes : ∀ (ns : List Nat) (f : Nat → Nat) (w : State),
      readCtr (each ns (fun j u => logFault 0x41 j (f j) (bumpLane j 1 u)) w) 0x27 k 9 = readCtr w 0x27 k 9 :=
    fun ns f w => each_keeps (g := fun u => readCtr u 0x27 k 9) fun j u => by
      simp only [logFault_subs]
      exact readCtr_bumpBy_other (by decide)
  simp only [excludeLanes, whenB]
  split
  · rw [readCtr_bumpLink_other (by decide) (by decide) (by decide), lanes]
    simp only [setLink_subs]
  · rw [lanes]
    simp only [setLink_subs]

theorem startRetrain_counts {k : Link} {cause failing : Nat} {byCommit : Bool} (ha : (link s k).st = .active) :
    CountedBy 1 0x27 k 9 s (startRetrain k cause failing byCommit s) := by
  have counted : CountedBy 1 0x27 k 9 s (bumpLink k 9 s) := countedBy_bumpLink
  refine counted.readCtr_keeps ?_
  simp only [startRetrain, ha, ne_eq, not_true_eq_false, ↓reduceIte]
  rw [readCtr_enterSync (by decide), readCtr_staleFromLink (by decide), readCtr_excludeLanes_retrains]
  simp

/-! ### The commands -/

section
variable {k : Link} (hrun : serdesRun s = true)
include hrun

section
variable (hst : (link s k).st = .equalize)
include hst

theorem exec_eqReqReceived (hb : trainingGood 0x85 b = true) : exec (.eqReqReceived k b) s =
    .next (publish s (emphasize k (bf b 8 3) (bf b 12 4) s)) := by
  simp only [exec, execEqReqReceived]
  exact act_on (by simp [hrun, hst, hb])

theorem exec_eqDoneReceived (hb : trainingGood 0x86 b = true) (hi : hasBit (keptLanes s k) (bf b 8 3) = true) :
    exec (.eqDoneReceived k b) s =
      .next (publish s (tryReady k (takeDone k (bf b 8 3) (bf b 12 4) s))) := by
  simp only [exec, execEqDoneReceived]
  rw [act_on (by simp [hrun, hst, hb, hi])]
  rfl

theorem exec_readyReceived {i : Fin 8} {v : State} (hb : trainingGood 0x87 b = true)
    (hsent : (link s k).readySent ≠ 0) (hv : v = noteReady k i (meetMask k (bf b 20 8) s)) :
    exec (.readyReceived k i b) s = .next (publish s
      (if (link v k).readySent = 0 then noneFinished k v
        else if (link v k).readySent &&& bf b 20 8 = (link v k).readySent then tryActive k v else v)) := by
  simp only [exec, execReadyReceived]
  rw [act_on (by simp [hrun, hst, hb, hsent])]
  simp [hv, noteReady]

theorem exec_readyReceived_agrees {i : Fin 8} (hb : trainingGood 0x87 b = true) (hsent : (link s k).readySent ≠ 0)
    (h : (link s k).readySent &&& bf b 20 8 = (link s k).readySent) :
    exec (.readyReceived k i b) s = .next (publish s (tryActive k (noteReady k i s))) := by
  rw [exec_readyReceived hrun hst hb hsent rfl, meetMask_agrees h]
  simp only [link_noteReady, if_neg hsent, if_pos h]

end

theorem exec_trainingTimeout (hoff : (link s k).st ≠ .off) (hactive : (link s k).st ≠ .active)
    (hdue : (link s k).stateDue ≤ s.now) : exec (.trainingTimeout k) s = .next (publish s
      (if (link s k).st = .detect then detectAgain k s
        else if finishedLanes s k = 0 then noneFinished k s
        else moveOn k (excludeLanes k (keptLanes s k - finishedLanes s k) 7 s))) := by
  have runs : ckRuns s = true := (Bool.and_eq_true_iff.1 hrun).1
  simp only [exec, execTrainingTimeout]
  exact act_on (by simp [runs, hoff, hactive, hdue])

theorem exec_retrain {w : RetrainCause} (hst : (link s k).st = .active) (hw : w ≠ .timeout)
    (hclosed : w = .closedEye → (closedLane s k).isSome = true) : ∃ failing, exec (.retrain k w) s =
      .next (publish s (startRetrain k (causeCode w) failing (w == .commit) s)) := by
  have runs : ckRuns s = true := (Bool.and_eq_true_iff.1 hrun).1
  simp only [exec, execRetrain]
  refine ⟨_, act_on ?_⟩
  by_cases hw' : w = .closedEye
  · simp [runs, hst, hw', hclosed hw']
  · simp [runs, hst, hw, hw']

end

/-- Settles O37: EQUALIZE ends in READY, READY in ACTIVE with the mask that both ends name, a timeout in the next state
or in DETECT, a retrain in SYNC. -/
theorem equalizeAndRetrainComplete : Obligations.EqualizeAndRetrainComplete := by
  unfold Obligations.EqualizeAndRetrainComplete
  intro s k hrun
  refine ⟨fun hst => ⟨fun b hb => ⟨_, exec_eqReqReceived hrun hst hb, fun n hn => ?_, fun hn => ?_⟩, ?_, ?_⟩,
    ?_, fun hst => ⟨fun w hw hclosed => ?_, ?_⟩⟩
  · simpa using lane_emphasize hn
  · rw [emphasize_none hn]
    simp
  · rintro b - z hb hi rfl hsent hz
    have all : equalized (takeDone k (bf b 8 3) (bf b 12 4) s) k = z := by
      simp [equalized, link_takeDone, keptLanes_takeDone, hz]
    refine ⟨_, exec_eqDoneReceived hrun hst hb hi, fun n hn => ?_, fun hsome => ?_, fun hall => ?_⟩
    · have kept := congrArg LaneSt.emphasis
        (offQueue_tryReady (s := takeDone k (bf b 8 3) (bf b 12 4) s) (k := k) (n := n))
      simpa [offQueue, lane_takeDone hn] using kept
    · rw [tryReady_waits (by rwa [all, keptLanes_takeDone])]
      simp [link_takeDone]
    · rw [tryReady_begins (by simpa [link_takeDone] using hsent)
        (by simpa [keptLanes_takeDone] using ne_zero_of_hasBit hi) (by rw [all, keptLanes_takeDone, hall]),
        ownFinal_takeDone]
      refine ⟨by simp [link_sendReady], fun n hn => ?_⟩
      have waits := sendReady_waits (s := takeDone k (bf b 8 3) (bf b 12 4) s) (k := k) (m := ownFinal s k) (n := n)
        (by rwa [keptLanes_takeDone, maskLanes_of_sameBut same_takeDone (by decide)])
      simpa [readyCk_takeDone, link_takeDone] using waits
  · rintro b i m recv lost hb rfl hm0 rfl hlost
    refine ⟨fun hagree => ?_, fun v left h0 hv hleft => ?_⟩
    · refine ⟨_, exec_readyReceived_agrees hrun hst hb hm0 hagree, fun hwait => ?_, fun hall => ?_⟩
      · rw [tryActive_waits (by simpa [link_noteReady] using hwait)]
        simp [link_noteReady, hst]
      · obtain ⟨hactive, hfinal, hretrain, hsince⟩ := link_enterActive (s := noteReady k i s) (k := k)
          (m := (link s k).readySent)
        rw [tryActive_enters (by simpa [link_noteReady] using hm0) (by simpa [link_noteReady] using hall)]
        simp only [link_noteReady, publish_subs]
        exact ⟨hactive, hfinal, hretrain, hsince⟩
    · have out := link_meetMask h0 hlost hv hleft
      obtain ⟨-, hrecv⟩ := ready_excludeLanes (s := s) (k := k) (m := lost) (cause := 7) (j := k)
      have still : (link v k).st = .equalize := by rw [hv, link_excludeLanes.1, hst]
      refine ⟨_, exec_readyReceived hrun hst hb hm0 rfl, fun hnone => ?_, fun hsome hless => ?_⟩
      · simp only [link_noteReady, out, if_pos hnone, publish_subs]
        exact noneFinished_detects.1
      · simp only [link_noteReady, out, if_neg hsome, if_neg hless, publish_subs]
        exact ⟨trivial, by rw [hv, hrecv], trivial, still⟩
  · intro hoff hactive hdue
    refine ⟨_, exec_trainingTimeout hrun hoff hactive hdue, fun hdet => ?_, fun hdet hnone => ?_, fun hsome => ?_⟩
    · obtain ⟨hst, hbackoff, hcounted⟩ := detectAgain_backs_off (s := s) (k := k)
      rw [if_pos hdet]
      exact ⟨by simpa [hdet] using hst, hcounted.publish (frameCounter_link (by decide)), by simpa using hbackoff⟩
    · obtain ⟨hst, hcounted⟩ := noneFinished_detects (s := s) (k := k)
      rw [if_neg hdet, if_pos hnone]
      exact ⟨by simpa using hst, hcounted.publish (frameCounter_link (by decide))⟩
    · rw [if_neg fun hdet => hsome (finishedLanes_detect hdet), if_neg hsome]
      refine ⟨fun hst => ?_, fun hst => ?_, fun hst => ?_⟩
      · simp [moveOn, link_excludeLanes, hst, link_enterAlign]
      · simp [moveOn, link_excludeLanes, hst, link_enterParam]
      · simp [moveOn, link_excludeLanes, hst, link_enterEqualize]
  · obtain ⟨failing, hexec⟩ := exec_retrain hrun hst hw hclosed
    obtain ⟨hsync, hagain, hcause⟩ := link_startRetrain_self (cause := causeCode w) (failing := failing)
      (byCommit := w == .commit) hst
    exact ⟨_, hexec, by simpa using hsync, by simpa using hagain, by simpa using hcause,
      (startRetrain_counts hst).publish (frameCounter_link (by decide))⟩
  · simp only [exec, execRetrain]
    exact act_off (by simp)

end Sys2Proof.Machine
end

section
/-!
SUPPORT. Curlew (09 R217, R222 to R226): what a full map and a fast one leave of their lane, the sampler's moves, DFE,
and CAL blocks.
-/
namespace Sys2Proof.Machine

variable {s : State} {k i n : Nat} {x : LaneSt} {pts : BitVec 2048}

theorem frameCounter_lane {n : Lane} {c : Nat} (hc : c < 256) : frameCounter (ctrId 0x26 n.val c) = false :=
  frameCounter_other (by decide) (by decide) (by omega) hc

/-! ### The sampler's moves (R223, R226) -/

theorem lane_phaseMove : lane (phaseMove n s) n = { lane s n with
    phase := if phaseCalls (lane s n) then
      (if 0 < phaseGap (lane s n) then ((lane s n).phase + 1) % 64 else ((lane s n).phase + 63) % 64)
      else (lane s n).phase
    latency := if phaseCalls (lane s n) then
      (if 0 < phaseGap (lane s n) then (lane s n).latency + samplerStep (laneRate s n)
        else (lane s n).latency - samplerStep (laneRate s n))
      else (lane s n).latency } := by
  simp only [phaseMove]
  split
  · simp
  · rfl

theorem lane_thresholdMove : lane (thresholdMove n s) n = { lane s n with
    threshold := if thresholdCalls (lane s n) then
      (if 0 < thresholdGap (lane s n) then min 31 ((lane s n).threshold + 1) else (lane s n).threshold - 1)
      else (lane s n).threshold } := by
  simp only [thresholdMove]
  split
  · simp
  · rfl

/-- In a quiet window the moves that are called for wait. -/
theorem lane_actOnMap_quiet (hq : s.quiet = true) : lane (actOnMap n s) n = { lane s n with
    deferred := phaseCalls (lane s n) || thresholdCalls (lane s n) || (lane s n).deferred } := by
  simp only [actOnMap, hq, ↓reduceIte]
  cases hp : phaseCalls (lane s n) <;> cases ht : thresholdCalls (lane s n) <;> simp [bitW]

/-- A phase step leaves what the threshold's move turns on. -/
theorem thresholdMove_after_phaseMove :
    (lane (thresholdMove n (phaseMove n s)) n).threshold = (lane (thresholdMove n s) n).threshold := by
  have calls : thresholdCalls (lane (phaseMove n s) n) = thresholdCalls (lane s n) := by rw [lane_phaseMove]; rfl
  have gap : thresholdGap (lane (phaseMove n s) n) = thresholdGap (lane s n) := by rw [lane_phaseMove]; rfl
  simp only [lane_thresholdMove, calls, gap]
  rw [lane_phaseMove]

/-- Elsewhere both are made. -/
theorem lane_actOnMap_moves (hq : s.quiet = false) :
    (lane (actOnMap n s) n).phase = (lane (phaseMove n s) n).phase ∧
    (lane (actOnMap n s) n).latency = (lane (phaseMove n s) n).latency ∧
    (lane (actOnMap n s) n).threshold = (lane (thresholdMove n s) n).threshold := by
  simp only [actOnMap, hq, Bool.false_eq_true, ↓reduceIte, samplerMove]
  exact ⟨by rw [lane_thresholdMove], by rw [lane_thresholdMove], thresholdMove_after_phaseMove⟩

/-! ### Full maps (R222) -/

theorem fullMap_closed {o : LaneSt} (ho : o = { lane s n with mapStart := s.now, spoiled := [] })
    (hx : x = mapped o (withoutSpoiled (lane s n).spoiled pts)) (hw : x.eyeWidth < 4) : fullMap n pts s =
      bumpLane n 4 (setLane s n { o with
        eyeWidth := x.eyeWidth, eyeHeight := x.eyeHeight, closedRun := o.closedRun + 1 }) := by
  subst ho hx
  simp only [fullMap, if_pos hw]

theorem fullMap_open {o : LaneSt} (ho : o = { lane s n with mapStart := s.now, spoiled := [] })
    (hx : x = mapped o (withoutSpoiled (lane s n).spoiled pts)) (hw : 4 ≤ x.eyeWidth) :
    fullMap n pts s = actOnMap n (setLane s n { x with closedRun := 0 }) := by
  subst ho hx
  simp only [fullMap, if_neg (Nat.not_lt.mpr hw)]

/-! ### Fast maps (R217, R222) -/

/-- A closed eye is counted. -/
def countClosed (n : Nat) (pts : BitVec 2048) (s : State) : State :=
  whenB (decide ((mapped (lane s n) pts).eyeWidth < 4)) (bumpLane n 4) s

@[simp] theorem countClosed_subs : link (countClosed n pts s) = link s ∧ lane (countClosed n pts s) = lane s ∧
    (countClosed n pts s).now = s.now ∧ readyCk (countClosed n pts s) = readyCk s := by
  simp only [countClosed, whenB]
  split
  · exact ⟨rfl, rfl, rfl, rfl⟩
  · exact ⟨rfl, rfl, rfl, rfl⟩

/-- The lane once a fast map has scored the setting in force. -/
def scored (k n : Nat) (pts : BitVec 2048) (s : State) : LaneSt :=
  let x := lane s n
  if decide (x.eqPoints < openPoints pts) || (x.partnerSetting == 0 || (link s k).keepEq)
  then { mapped x pts with eqPoints := openPoints pts, eqBest := x.partnerSetting } else x

/-- The last setting, or the one kept, is followed by the choice; every other by the next. -/
theorem fastMap_eq : fastMap k i n pts s =
    if (link s k).keepEq || (lane s n).partnerSetting == 15
    then chooseSetting k i n (setLane (countClosed n pts s) n (scored k n pts s))
    else queueLane k n (mkEq 0x85 i ((lane s n).partnerSetting + 1))
      (setLane (setLane (countClosed n pts s) n (scored k n pts s)) n { scored k n pts s with
        partnerSetting := (lane s n).partnerSetting + 1, mapStart := s.now }) := by
  have counted : whenB (decide ((mapped (lane s n) pts).eyeWidth < 4)) (bumpLane n 4) s = countClosed n pts s := rfl
  simp only [fastMap, scored, counted, countClosed_subs, setLane_subs, setLane_fields]

theorem fastMap_next (hkeep : (link s k).keepEq = false) (hnext : (lane s n).partnerSetting < 15) :
    (lane (fastMap k i n pts s) n).partnerSetting = (lane s n).partnerSetting + 1 ∧
    (readyCk s k 8, mkEq 0x85 i ((lane s n).partnerSetting + 1)) ∈ (lane (fastMap k i n pts s) n).queue := by
  have notLast : (lane s n).partnerSetting ≠ 15 := by omega
  rw [fastMap_eq, if_neg (by simp [hkeep, notLast])]
  simp [queueLane]

theorem readyCk_drawFree : readyCk (drawFree s) = readyCk s := rfl

/-- The best setting of a lane whose eye is large enough is sent. -/
theorem chooseSetting_sends (hw : 8 ≤ (lane s n).eyeWidth) (hh : 4 ≤ (lane s n).eyeHeight) :
    (lane (chooseSetting k i n s) n).partnerSetting = (lane s n).eqBest ∧
    (readyCk s k 8, mkEq 0x86 i (lane s n).eqBest) ∈ (lane (chooseSetting k i n s) n).queue := by
  have large : ¬((lane s n).eyeWidth < 8 ∨ (lane s n).eyeHeight < 4) := by omega
  simp only [chooseSetting, if_neg large]
  refine ⟨?_, mem_queue_tryReady ?_⟩
  · refine (congrArg LaneSt.partnerSetting offQueue_tryReady).trans ?_
    simp [offQueue, queueLane]
  · simp [queueLane, readyCk_drawFree]

/-- A fast map of the last setting that is no better than the best leaves the best chosen. -/
theorem fastMap_last (hkeep : (link s k).keepEq = false) (hlast : (lane s n).partnerSetting = 15)
    (hworse : openPoints pts ≤ (lane s n).eqPoints) :
    fastMap k i n pts s = chooseSetting k i n (setLane (countClosed n pts s) n (lane s n)) := by
  have same : scored k n pts s = lane s n := by simp [scored, hkeep, hlast, hworse]
  rw [fastMap_eq, if_pos (by simp [hlast]), same]

/-! ### DFE and CAL blocks (R224, R225) -/

theorem dfeOn_of_flag (h : ∀ r, s.tables.cal = some r → r.dfe = true) : dfeOn s = true := by
  simp only [dfeOn]
  split
  next r hr => exact h r hr
  next => rfl

/-- A CAL block that has waited 64 slots stands ahead of the striped sequence. -/
theorem activeLane_cal (howed : (link s k).timeOwed = false) (hq : (lane s n).queue = []) (hmay : calMay s k n = true)
    (hwait : 64 ≤ (lane s n).calWait.getD 0) : activeLane k n s = placeCal n s := by
  simp [activeLane, howed, hq, hmay, hwait]

/-! ### The commands -/

section
variable {n : Lane} (hrun : serdesRun s = true)
include hrun

theorem exec_eyeMapComplete_full (hmap : mapRuns s n false = true) :
    exec (.eyeMapComplete n false pts) s = .next (publish s (fullMap n pts s)) := by
  simp only [exec, execEyeMapComplete]
  exact act_on (by simp [hrun, hmap])

theorem exec_eyeMapComplete_fast (hmap : mapRuns s n true = true) (hhome : laneHome s n = some (k, i)) :
    exec (.eyeMapComplete n true pts) s = .next (publish s (fastMap k i n pts s)) := by
  simp only [exec, execEyeMapComplete]
  rw [act_on (by simp [hrun, hmap])]
  simp only [↓reduceIte, hhome]

theorem exec_dfeAdapt {e d1 d2 d3 : Bool} (hadapts : adapts s n = true) (hon : dfeOn s = true)
    (hdue : (lane s n).dfeDue ≤ 67 * s.now) : exec (.dfeAdapt n e d1 d2 d3) s =
      .next (publish s (setLane s n { lane s n with
        taps := [tapStep e d1 ((lane s n).taps.getD 0 0), tapStep e d2 ((lane s n).taps.getD 1 0),
          tapStep e d3 ((lane s n).taps.getD 2 0)]
        dfeDue := max ((lane s n).dfeDue + 64 * slotCk (laneRate s n)) (67 * s.now) })) := by
  simp only [exec, execDfeAdapt]
  exact act_on (by simp [hrun, hadapts, hon, hdue])

theorem exec_calBlockSend (hactive : laneActive s n = true) (hdue : calDueNow s n = true)
    (hhome : laneHome s n = some (k, i)) (hawake : (link s k).asleep = false) : exec (.calBlockSend n) s =
      .next (publish s (setLane s n { lane s n with
        calDue := (lane s n).calDue + laneSlots s n (2 ^ calRate s.tables n)
        calWait := (lane s n).calWait.orElse fun _ => some 0 })) := by
  simp only [exec, execCalBlockSend]
  exact act_on (by simp [hrun, hactive, hdue, hhome, hawake])

theorem exec_calBlockReceived {b : Block} (hactive : laneActive s n = true) (htype : blockType b = 0x99)
    (hwrong : b ≠ calBody) : exec (.calBlockReceived n b) s =
      .next (publish s (bumpLane n 5 (setLane s n { lane s n with
        spoiled := (lane s n).spoiled ++ pointsHere s n }))) := by
  simp only [exec, execCalBlockReceived]
  exact act_on (by simp [hrun, hactive, htype, hwrong])

end

/-- Settles O38: a full map moves the sampler, holds its moves back in a quiet window, or finds the eye closed; a fast
map asks for the next setting or sends the best; taps step, and CAL blocks fall due, are placed and spoil their
points. -/
theorem lanesComplete : Obligations.LanesComplete := by
  unfold Obligations.LanesComplete
  intro s n hrun
  refine ⟨fun pts o x hmap ho hx => ⟨_, exec_eyeMapComplete_full hrun hmap, fun hw => ?_, fun hw hq => ?_,
      fun hw hq => ?_⟩,
    fun pts k i hmap hhome hkeep hnext => ⟨_, exec_eyeMapComplete_fast hrun hmap hhome, ?_⟩,
    fun pts k i hmap hhome hkeep hlast hworse hw hh => ⟨_, exec_eyeMapComplete_fast hrun hmap hhome, ?_⟩,
    fun e d1 d2 d3 hadapts hon hdue => ⟨_, exec_dfeAdapt hrun hadapts (dfeOn_of_flag hon) hdue, by simp⟩,
    fun k i hactive hdue hhome hawake => ⟨_, exec_calBlockSend hrun hactive hdue hhome hawake, ?_⟩,
    fun k howed hq hmay hwait => activeLane_cal howed hq hmay hwait,
    fun b hactive htype hwrong => ⟨_, exec_calBlockReceived hrun hactive htype hwrong, ?_, ?_, by simp⟩⟩
  · rw [fullMap_closed ho hx hw]
    exact ⟨by simp, (countedBy_bump (by simp)).publish (frameCounter_lane (by decide))⟩
  · rw [fullMap_open ho hx hw, publish_subs.2.2.1, lane_actOnMap_quiet (by simpa using hq)]
    simp only [lane_setLane, ↓reduceIte]
    exact ⟨trivial, trivial, rfl⟩
  · obtain ⟨hphase, hlatency, hthreshold⟩ := lane_actOnMap_moves (s := setLane s n { x with closedRun := 0 })
      (n := n) (by simpa using hq)
    rw [fullMap_open ho hx hw, publish_subs.2.2.1, hphase, hlatency, hthreshold, lane_phaseMove, lane_thresholdMove]
    simp only [lane_setLane, ↓reduceIte, setLane_plan]
    exact ⟨rfl, rfl, rfl⟩
  · simpa using fastMap_next hkeep hnext
  · rw [fastMap_last hkeep hlast hworse]
    simpa using chooseSetting_sends (s := setLane (countClosed n pts s) n (lane s n)) (k := k) (i := i) (n := n)
      (by simpa using hw) (by simpa using hh)
  · cases (lane s n).calWait <;> simp
  · simp
  · exact (countedBy_bump (by simp)).publish (frameCounter_lane (by decide))

end Sys2Proof.Machine
end

section
/-!
SUPPORT. The canonical form of the process image (10 R230; 03 R46) under every command and every ck that passes.
-/
namespace Sys2Proof.Machine

variable {s t : State} {g : Bool} {op : State → State}

/-! ### A step is an occurrence -/

/-- The state with the command at the front of the queue taken from it. -/
def dequeued (s : State) : State := { s with pending := s.pending.tail }

theorem dequeued_of_empty (h : s.pending = []) : dequeued s = s := by
  have keep : ∀ l, s.pending = l → ({ s with pending := l } : State) = s := by rintro _ rfl; rfl
  exact keep _ (by simp [h])

theorem step_of_empty (h : s.pending = []) :
    step s = act (running s) (fun u => ckDuties (tick (ckEnds u))) (dequeued s) := by
  rw [dequeued_of_empty h]
  simp only [step, h, idleStep]

theorem step_of_front {c : Instr} {rest : List Instr} (h : s.pending = c :: rest) : step s = exec c (dequeued s) := by
  simp only [step, dequeued, h, List.tail_cons]

/-! ### The image that a reset leaves -/

@[simp] theorem mem_fullReset : (fullReset s).mem = [] := by
  rw [fullReset_eq]
  rfl

@[simp] theorem mem_loseRails : (loseRails s).mem = [] := mem_fullReset

@[simp] theorem mem_powerCycle : (powerCycle s).mem = [] := by simp [powerCycle]

@[simp] theorem mem_shutDown : (shutDown s).mem = [] := by
  simp only [shutDown]
  split <;> simp

/-! ### Commands -/

theorem formed_act (h : act g op s = .next t) (hf : Formed s) (hop : Formed (op s)) : Formed t := by
  rcases act_next h with ⟨-, rfl⟩ | ⟨-, rfl⟩
  · exact hf
  · simpa [Formed] using hop

theorem formed_clearWords {lo n : Nat} (h : Formed s) : Formed (clearWords lo n s) := memWf_filter h

theorem formed_clearDone (h : Formed s) : Formed (clearDone s) := by
  have cleared : Formed (clearedImage s) := by
    have words : Formed (clearWords 0 65536 { s with boot := { s.boot with cleared := true, phase := .early } }) :=
      formed_clearWords (s := { s with boot := { s.boot with cleared := true, phase := .early } }) h
    simpa [Formed, clearedImage] using words
  simp only [clearDone]
  split
  · exact cleared.of (by simp [noMem])
  · exact cleared

section
variable {c : Instr} (h : exec c s = .next t) (hf : Formed s)
include h hf

/-- A command that asserts the internal reset leaves an empty image, or the image as it was. -/
theorem formed_of_assertsReset (hc : assertsReset c = true) : Formed t := by
  cases c
  case powerOn vin vdd x =>
    simp only [exec, execPowerOn] at h
    refine formed_act h hf ?_
    simp only [readExtpwr, whenB]
    split
    · exact formed_nil (by simp)
    · exact hf
  case railBrownOut =>
    simp only [exec, execRailBrownOut] at h
    exact formed_act h hf (formed_nil (by simp))
  case resetN =>
    simp only [exec, execResetN] at h
    refine formed_act h hf ?_
    (repeat' split)
    · exact formed_nil (by simp)
    · exact formed_nil (by simp)
    · exact hf
  case vinUndervoltage =>
    simp only [exec, execVinUndervoltage] at h
    refine formed_act h hf ?_
    simp only [whenB]
    split
    · exact formed_nil (by simp)
    · exact hf
  case xinLoss =>
    simp only [exec, execXinLoss] at h
    exact formed_act h hf (formed_nil (by simp))
  case thermalShutdown =>
    simp only [exec, execThermalShutdown] at h
    refine formed_act h hf ?_
    split
    · exact hf
    · exact formed_nil (by simp)
  case slotSwitchReset =>
    simp only [exec, execSlotSwitchReset] at h
    exact formed_act h hf (formed_nil (by simp))
  case s4Entry =>
    simp only [exec, execS4Entry] at h
    refine formed_act h hf ?_
    split
    · exact formed_nil (by simp)
    · exact hf
  all_goals nomatch hc

/-- Of the other commands those that store in the image keep its form, and the rest leave the image. -/
theorem formed_exec : Formed t := by
  by_cases hm : .mem ∈ writes c
  case neg =>
    have image : s.mem = t.mem := exec_frame h .mem hm
    simpa [Formed, ← image] using hf
  cases c
  case powerOn | railBrownOut | resetN | vinUndervoltage | xinLoss | thermalShutdown | slotSwitchReset | s4Entry =>
    exact formed_of_assertsReset h hf rfl
  case processImageClearDone =>
    rw [exec_processImageClearDone] at h
    exact formed_act h hf (formed_clearDone hf)
  case heronStart =>
    simp only [exec, execHeronStart] at h
    exact formed_act h hf (formed_startHeron hf)
  case cycleBoundary =>
    simp only [exec, execCycleBoundary] at h
    exact formed_act h hf (formed_boundary hf)
  case heronVote =>
    simp only [exec, execHeronVote] at h
    exact formed_act h hf (formed_voteUnder hf)
  case hostWrite =>
    simp only [exec, execHostWrite] at h
    exact formed_act h hf (formed_landWrite (s := { s with halfLatch := none }) hf)
  case halfReadLatch =>
    simp only [exec, execHalfReadLatch] at h
    refine formed_act h hf ?_
    split
    · exact formed_readHalf hf
    · exact formed_readWhole hf
  case avocetHalfCompletion ch =>
    simp only [exec, execAvocetHalfCompletion] at h
    exact formed_act h hf ((formed_landGroup (c := ch.val) hf).of (by simp [noMem]))
  case avocetFullCompletion ch =>
    simp only [exec, execAvocetFullCompletion] at h
    exact formed_act h hf ((formed_landGroup (c := ch.val) hf).of (by simp [noMem]))
  case avocetBusError =>
    simp only [exec, execAvocetBusError] at h
    exact formed_act h hf (formed_stopAvocet hf)
  case s3Exit w =>
    simp only [exec, execS3Exit] at h
    exact formed_act h hf (formed_leaveS3 (hf.of (t := wakeEffect w s) (by simp [noMem])))
  case scrubRead m u =>
    simp only [exec, execScrubRead] at h
    exact formed_act h hf (formed_scrubNext (hf.of (t := each u addUpset s) (by simp [noMem])))
  all_goals simp [writes] at hm

end

/-- A ck that passes keeps the form. -/
theorem formed_ck (h : Formed s) : Formed (ckDuties (tick (ckEnds s))) :=
  formed_ckDuties ((formed_ckEnds h).of (by simp [noMem]))

/-- Settles O4: a step is a ck that passes or a command, and each keeps the form. -/
theorem stepKeepsImageForm : Obligations.StepKeepsImageForm := by
  unfold Obligations.StepKeepsImageForm
  intro s t hf h
  have formed : Formed (dequeued s) := hf
  cases queue : s.pending with
  | nil =>
    rw [step_of_empty queue] at h
    exact formed_act h formed (formed_ck formed)
  | cons c rest =>
    rw [step_of_front queue] at h
    exact formed_exec h formed

end Sys2Proof.Machine
end

section
/-!
SUPPORT. Which bytes of the process image a command leaves (10 R230, R232, R236): each operation that stores in the
image stores to words that can be named before it runs, and every byte of another word reads as before.
-/
namespace Sys2Proof.Machine

variable {s t u : State} {a w n : Nat} {b : Byte} {v : Word} {be : BitVec 4} {l : List Part}

/-- What holds of a state under each of a list of operations holds after the list. -/
theorem each_invariant {α : Type} {P : State → Prop} {f : α → State → State} {as : List α}
    (h : ∀ x ∈ as, ∀ u, P u → P (f x u)) (hs : P s) : P (each as f s) := by
  unfold each
  induction as generalizing s with
  | nil => exact hs
  | cons x as ih => exact ih (fun y hy => h y (List.mem_cons_of_mem _ hy)) (h x (List.mem_cons_self ..) s hs)

theorem readByte_act {g : Bool} {op : State → State} (h : act g op s = .next t)
    (hop : readByte (op s) a = readByte s a) : readByte t a = readByte s a := by
  rcases act_next h with ⟨-, rfl⟩ | ⟨-, rfl⟩
  · rfl
  · simpa using hop

/-! ### Words (10 R230, R232) -/

/-- Below the station block an SRAM word is four bytes of the image; within it, none (10 R242). -/
theorem readByte_setSram (ha : w < 0xFFC0 → a / 4 ≠ w) : readByte (setSram w v s) a = readByte s a := by
  simp only [setSram]
  split
  · exact readByte_of_sameBut (l := [.hostWords]) (by simp) (by decide) a
  · exact readByte_other (ha (by omega))

theorem readByte_correctWord {m : MemoryId} {copy : Nat} : readByte (correctWord m copy w s) a = readByte s a :=
  readByte_of_sameBut (l := [.upsets, .faults]) (by simp) (by decide) a

/-- A read rewrites the word that it judges where that is uncorrectable, and no other (15 R329). -/
theorem readByte_judgeImage (ha : w < 0xFFC0 → a / 4 = w → uncorrectable (flips s .processImage 0 w) = false) :
    readByte (judgeImage w s) a = readByte s a := by
  simp only [judgeImage]
  split
  next bad => exact readByte_setSram fun hw e => absurd (ha hw e) (by simp [bad])
  · exact readByte_correctWord

theorem readByte_judgeMerge (ha : a / 4 ≠ w) : readByte (judgeMerge w s) a = readByte s a := by
  simp only [judgeMerge]
  split
  · rw [readByte_of_sameBut (s := setSram w (storedWord s w) s) (l := [.upsets, .counters, .faults]) (by simp)
      (by decide)]
    exact readByte_setSram fun _ => ha
  · exact readByte_correctWord

theorem readByte_storeWord (ha : a / 4 ≠ w) : readByte (storeWord w v be s) a = readByte s a := by
  simp only [storeWord]
  split
  · exact readByte_other ha
  · split
    · rfl
    · rw [readByte_other ha, readByte_judgeMerge ha]

/-- A clear of a range leaves what lies outside it (03 R46). -/
theorem readByte_clearWords_outside {lo : Nat} (ha : ¬(lo ≤ a / 4 ∧ a / 4 < lo + n)) :
    readByte (clearWords lo n s) a = readByte s a := by
  have kept : outside (4 * lo) (4 * (lo + n)) a = true := by
    simp only [outside, Bool.or_eq_true, decide_eq_true_eq]
    omega
  have found : mFind (s.mem.filter fun x => outside (4 * lo) (4 * (lo + n)) x.1) a = mFind s.mem a := by
    rw [mFind_filter, if_pos kept]
  exact congrArg (Option.getD · memDefault) found

/-! ### Host accesses (10 R233, R235, R236) -/

/-- A host write to the station block stores nothing below it. -/
theorem readByte_writeStation : readByte (writeStation n v be s) a = readByte s a :=
  readByte_of_sameBut (l := [.upsets, .hostWords, .doorbell, .ignWr, .rearm, .chans, .counters, .faults]) (by simp)
    (by decide) a

/-- A host write stores to the word that its address reaches (10 R236). -/
theorem readByte_landWrite {lag : Nat} (ha : w < 0xFFC0 → hostWriteTarget s lag w ≠ some (a / 4)) :
    readByte (landWrite lag w v be s) a = readByte s a := by
  simp only [landWrite]
  split
  · rfl
  split
  · rfl
  split
  · rw [readByte_writeStation]
    exact readByte_of_sameBut (l := [.power]) (by simp) (by decide) a
  have other := ha (by omega)
  simp only [writeRegion]
  split
  · rfl
  split
  next x target =>
    split
    · rfl
    · exact readByte_storeWord fun e => other (by rw [target, e])
  · rfl

theorem readByte_judgeRead (ha : w < 0xFFC0 → hostReadTarget s w = a / 4 →
    uncorrectable (flips s .processImage 0 (a / 4)) = false) : readByte (judgeRead w s) a = readByte s a := by
  simp only [judgeRead]
  split
  · rfl
  split
  · exact readByte_judgeImage fun hw => absurd hw (by omega)
  split
  · rfl
  · exact readByte_judgeImage fun _ e => e ▸ ha (by omega) e.symm

/-- A host read rewrites the word that it reaches where that is uncorrectable. -/
theorem readByte_hostRead {pa : BitVec 17} (ha : accessWord s pa < 0xFFC0 → hostReadTarget s (accessWord s pa) = a / 4 →
    uncorrectable (flips s .processImage 0 (a / 4)) = false) :
    readByte (if s.straps.pipW16 then readHalf pa s else readWhole pa s) a = readByte s a := by
  split
  next half =>
    rw [accessWord_half half] at ha
    have judged : ∀ fresh : Bool,
        readByte (if fresh = true then judgeRead (pa.toNat / 2) s else s) a = readByte s a := fun fresh => by
      split
      · exact readByte_judgeRead ha
      · rfl
    simp only [readHalf, whenB]
    split
    · exact judged _
    · exact judged true
  next whole =>
    rw [accessWord_whole (by simpa using whole)] at ha
    exact readByte_judgeRead ha

/-! ### Avocet's write groups (10 R236; 11 R257, R258) -/

theorem hardwareTarget_of_sameBut (h : SameBut l s t) (hl : .tables ∉ l ∧ .regions ∉ l) :
    hardwareTarget t = hardwareTarget s := by
  have tables : s.tables = t.tables := h .tables hl.1
  have regions : s.regions = t.regions := h .regions hl.2
  funext x
  simp only [hardwareTarget, regionAt, region, tables, regions]

theorem hardwareTarget_setChan {c : Nat} {x : ChanSt} : hardwareTarget (setChan s c x) = hardwareTarget s := rfl

theorem hardwareTarget_landWord {m : Bool} : hardwareTarget (landWord w v be m s) = hardwareTarget s :=
  hardwareTarget_of_sameBut (l := [.mem, .upsets, .hwWrote, .hostWords, .counters, .faults]) (by simp) (by decide)

theorem readByte_landWord {m : Bool} (ha : a / 4 ≠ hardwareTarget s w) :
    readByte (landWord w v be m s) a = readByte s a := by
  simp only [landWord]
  split
  · rw [readByte_other ha, readByte_judgeMerge ha]
    rfl
  · rw [readByte_storeWord ha]
    rfl

/-- Bytes that land store to the words that they touch, each in the hardware-side bank. -/
theorem readByte_landImage {x : Nat} {bytes : List Byte} {m : Bool}
    (ha : a / 4 ∉ (wordsOf x bytes.length).map (hardwareTarget s)) :
    readByte (landImage x bytes m s) a = readByte s a := by
  have invariant : hardwareTarget (landImage x bytes m s) = hardwareTarget s ∧
      readByte (landImage x bytes m s) a = readByte s a :=
    each_invariant (P := fun u => hardwareTarget u = hardwareTarget s ∧ readByte u a = readByte s a)
      (fun w hw u ⟨target, kept⟩ => by
        have other : a / 4 ≠ hardwareTarget u w := fun e => ha (List.mem_map.2 ⟨w, hw, by rw [e, target]⟩)
        exact ⟨hardwareTarget_landWord.trans target, (readByte_landWord other).trans kept⟩) ⟨rfl, rfl⟩
  exact invariant.2

theorem readByte_landBytes {c x hi : Nat} {r : DmaRec} (ha : r.dstSpace = 0 → a / 4 ∉
    (wordsOf (r.dst % 2 ^ 18 + x) (slice (chan s c).bytes x (hi - x)).length).map (hardwareTarget s)) :
    readByte (landBytes c r x hi s) a = readByte s a := by
  simp only [landBytes]
  split
  next space => exact readByte_landImage (ha space)
  · exact readByte_of_sameBut (l := [.streams, .rxCells, .chans, .counters]) (by simp) (by decide) a
  · exact readByte_of_sameBut (l := [.vcs, .pairs, .counters]) (by simp) (by decide) a

/-- A write group stores to the words where it lands. -/
theorem readByte_landGroup {c : Nat} (ha : a / 4 ∉ landsIn s c) : readByte (landGroup c s) a = readByte s a := by
  simp only [landGroup]
  simp only [landsIn] at ha
  split
  next r running =>
    simp only [running] at ha
    split
    · rfl
    next due =>
      have lands : r.dstSpace = 0 → a / 4 ∉ (wordsOf (r.dst % 2 ^ 18 + (chan s c).landed)
          (slice (chan s c).bytes (chan s c).landed ((chan s c).wrote - (chan s c).landed)).length).map
            (hardwareTarget s) := fun space => by
        rwa [if_pos ⟨space, by simpa using due⟩] at ha
      split
      · refine (readByte_landBytes ?_).trans rfl
        simpa only [chan_setChan, ↓reduceIte, hardwareTarget_setChan] using lands
      · exact readByte_landBytes lands
      · rfl
  · rfl

/-! ### Uncorrectable words (11 R266; 15 R329) -/

/-- Every part but the image and its flipped bits. -/
def offImage : List Part := noMem.erase .upsets

@[simp] theorem mem_offImage {p : Part} : p ∈ offImage ↔ p ≠ .mem ∧ p ≠ .upsets := by
  cases p <;> decide

/-- A byte has a value, and its word is not in uncorrectable error. -/
def Sound (a : Nat) (b : Byte) (s : State) : Prop :=
  readByte s a = b ∧ uncorrectable (flips s .processImage 0 (a / 4)) = false

theorem Sound.of (hs : Sound a b s) (h : SameBut offImage s t) : Sound a b t := by
  obtain ⟨value, sound⟩ := hs
  exact ⟨(readByte_of_sameBut h (by simp) a).trans value, by rwa [flips_of_sameBut h (by simp)]⟩

theorem flips_clearUpset {m m' : MemoryId} {copy copy' w' : Nat} :
    flips (clearUpset m copy w s) m' copy' w' =
      if upsetKey m' copy' w' = upsetKey m copy w then [] else flips s m' copy' w' := by
  simp only [flips, clearUpset, mGetD, mFind_mErase]
  split <;> rfl

theorem sound_clearUpset {m : MemoryId} {copy : Nat} (hs : Sound a b s) : Sound a b (clearUpset m copy w s) := by
  obtain ⟨value, sound⟩ := hs
  refine ⟨value, ?_⟩
  rw [flips_clearUpset]
  split
  · rfl
  · exact sound

theorem sound_correctWord {m : MemoryId} {copy : Nat} (hs : Sound a b s) : Sound a b (correctWord m copy w s) := by
  simp only [correctWord]
  split
  · exact (sound_clearUpset (w := w) (m := m) (copy := copy) hs).of (by simp [noteCorrected])
  · exact hs

theorem sound_setSram (hs : Sound a b s) (ha : a / 4 ≠ w) : Sound a b (setSram w v s) := by
  obtain ⟨value, sound⟩ := hs
  exact ⟨(readByte_setSram fun _ => ha).trans value,
    by rwa [flips_of_sameBut (l := [.mem, .hostWords]) (s := s) (by simp) (by decide)]⟩

theorem sound_judgeImage (hs : Sound a b s) : Sound a b (judgeImage w s) := by
  simp only [judgeImage]
  split
  next bad =>
    have other : a / 4 ≠ w := fun e => absurd hs.2 (by simp [e, bad])
    have noted : Sound a b (noteImageError w s) := hs.of (by simp)
    exact sound_setSram (sound_clearUpset noted) other
  · exact sound_correctWord hs

/-- What a bus error leaves behind: only words in uncorrectable error are rewritten. -/
theorem sound_containError {c : Nat} (hs : Sound a b s) : Sound a b (containError c s) := by
  simp only [containError]
  split
  · exact hs
  split
  · exact hs
  split
  · exact each_invariant (fun w _ u hu => (sound_judgeImage (w := w) hu).of (by simp)) hs
  next r _ _ _ =>
    have cleared : ∀ code, Sound a b (each (returnedBad s c)
        (fun w u => clearUpset (sourceMemory r) 0 w (logFault code 0 (8 * w) u)) s) := fun code =>
      each_invariant (fun w _ u hu => sound_clearUpset (hu.of (t := logFault code 0 (8 * w) u) (by simp))) hs
    exact (cleared (if r.srcSpace = 1 then 0x20 else 0x21)).of (by simp)

theorem sound_stopAvocet (hs : Sound a b s) : Sound a b (stopAvocet s) := by
  simp only [stopAvocet]
  generalize List.filterMap _ _ = errors
  have contained : Sound a b (each (errors.map (·.1)) containError (discardAssemblies s)) :=
    each_invariant (fun _ _ _ => sound_containError) (hs.of (by simp))
  exact contained.of (by simp)

/-! ### Cycle boundaries (01 R10; 11 R267) -/

/-- Every part but the image and Avocet's state. -/
def offWords : List Part := noMem.erase .avocet

@[simp] theorem mem_offWords {p : Part} : p ∈ offWords ↔ p ≠ .mem ∧ p ≠ .avocet := by
  cases p <;> decide

/-- A byte has a value, and a stop of Avocet has left no error in its word. -/
def Spared (a : Nat) (b : Byte) (s : State) : Prop := readByte s a = b ∧ a / 4 ∉ s.avocet.faultWords

theorem Spared.of (hs : Spared a b s) (h : SameBut offWords s t) : Spared a b t := by
  obtain ⟨value, spared⟩ := hs
  have avocet : s.avocet = t.avocet := h .avocet (by simp)
  exact ⟨(readByte_of_sameBut h (by simp) a).trans value, avocet ▸ spared⟩

/-- What leaves the image and adds no word in error. -/
theorem Spared.narrow (hs : Spared a b s) (image : t.mem = s.mem)
    (hx : t.avocet.faultWords ⊆ s.avocet.faultWords) : Spared a b t := by
  obtain ⟨value, spared⟩ := hs
  exact ⟨by rwa [readByte, image], fun hm => spared (hx hm)⟩

theorem spared_applySet {x : Staged} (hs : Spared a b s) : Spared a b (applySet x s) := by
  have forced : Spared a b (putInForce x (takeShadows s)) := hs.of (by simp)
  have noted : ∀ u, Spared a b u → Spared a b (bumpDev 39 { u with staged := none }) := fun u hu => hu.of (by simp)
  simp only [applySet]
  refine noted _ ?_
  split
  · exact forced
  · exact forced.narrow rfl (List.Subset.refl _)

theorem spared_commitStep (hs : Spared a b s) : Spared a b (commitStep s) := by
  have applied : ∀ x, Spared a b (applySet x { s with commit := none }) := fun x =>
    spared_applySet (hs.of (t := { s with commit := none }) (by simp))
  simp only [commitStep]
  split
  next c _ =>
    split
    · exact (applied (stagedSet s c.number)).of (by simp)
    · exact hs
  · exact hs

theorem spared_startAvocet (hs : Spared a b s) : Spared a b (startAvocet s) := by
  have started : Spared a b { s with avocet := { s.avocet with running := true, stopped := false } } :=
    hs.narrow rfl (List.Subset.refl _)
  exact started.of (by simp [startAvocet])

/-- A restart rewrites words that a stop has left in error, and no other. -/
theorem spared_scrubWords (hs : Spared a b s) : Spared a b (scrubWords s) := by
  have zeroed : ∀ ws : List Nat, ws ⊆ s.avocet.faultWords →
      Spared a b (each ws (fun w u => setSram w 0 u) s) := fun ws hws => by
    have kept : readByte (each ws (fun w u => setSram w 0 u) s) a = readByte s a :=
      each_keeps_mem (g := fun u => readByte u a) fun w hw u => readByte_setSram fun _ e => hs.2 (hws (e ▸ hw))
    have avocet : (each ws (fun w u => setSram w 0 u) s).avocet = s.avocet :=
      ((by simp : SameBut [.mem, .hostWords] s _) .avocet (by decide)).symm
    exact ⟨kept.trans hs.1, avocet ▸ hs.2⟩
  simp only [scrubWords]
  exact (zeroed _ (List.filter_sublist.subset)).narrow rfl (List.Subset.refl _)

theorem spared_avocetBoundary {due : Bool} (hs : Spared a b s) : Spared a b (avocetBoundary due s) := by
  simp only [avocetBoundary]
  generalize (if s.avocet.errNow = true then s.avocet.errCycles + 1 else 0) = cycles
  have halted : ∀ u, Spared a b u → Spared a b (haltDiscard (logFault 0x51 0 0 u)) := fun u hu => hu.of (by simp)
  have counted : Spared a b { s with avocet := { s.avocet with
      errNow := false, errCycles := cycles, dmaCommit := s.avocet.dmaCommit && !due } } :=
    hs.narrow rfl (List.Subset.refl _)
  split
  · exact counted
  split
  · split
    · exact spared_startAvocet (counted.narrow rfl (List.nil_subset _))
    · exact counted
  split
  · exact halted _ (counted.narrow rfl (List.Subset.refl _))
  · exact spared_startAvocet ((spared_scrubWords counted).narrow rfl (List.nil_subset _))

theorem spared_inOneCk {f : Bool → State → State} (hf : ∀ go, Spared a b (f go s)) : Spared a b (inOneCk f s) := by
  simp only [inOneCk]
  split
  · exact hf true
  · exact (hf false).of (by simp)

theorem spared_boundaryOf {go : Bool} (hs : Spared a b s) : Spared a b (boundaryOf go s) := by
  simp only [boundaryOf, boundaryDuties]
  have passed : Spared a b (countCycle (endStep (passedOver go s))) := hs.of (by simp)
  exact spared_avocetBoundary ((spared_commitStep passed).of (by simp))

theorem spared_boundary (hs : Spared a b s) : Spared a b (boundary s) := spared_inOneCk fun _ => spared_boundaryOf hs

theorem spared_heronWork (hs : Spared a b s) : Spared a b (heronWork s) := by
  refine spared_inOneCk fun go => ?_
  have opened : Spared a b (if boundaryDue s then boundaryOf go s else s) := by
    split
    · exact spared_boundaryOf hs
    · exact hs
  exact opened.of (by simp)

theorem spared_voteUnder {us : List HeronUpset} (hs : Spared a b s) : Spared a b (voteUnder us s) := by
  have worked : Spared a b (heronWork (each (us.filter isFired) heronUpset s)) := spared_heronWork (hs.of (by simp))
  exact worked.of (by simp [voteUnder])

/-- The boundaries passed in S3 (14 R317). -/
theorem spared_leaveS3 (hs : Spared a b s) : Spared a b (leaveS3 s) := by
  have passed : ∀ u, Spared a b u → Spared a b (passBoundaries u) := fun u hu => by
    simp only [passBoundaries]
    refine each_invariant (fun _ _ v hv => ?_) hu
    split
    · exact (spared_boundary hv).of (by simp)
    · exact hv
  have woken : Spared a b { s with power := { s.power with level := 0, quietSince := none, woken := false } } :=
    hs.of (by simp)
  exact (passed _ woken).of (by simp [leaveS3])

/-! ### Heron's start (03 R46) -/

/-- A word of an inbound region of the tables in force. -/
def inboundWord (t : Tables) (w : Nat) : Bool := t.pimap.any fun x => x.2.kind == 0 &&
  (areas x.2).any fun y => decide (y.1 ≤ w) && decide (w < y.1 + y.2)

theorem readByte_enterRegions (ha : inboundWord s.tables (a / 4) = false) :
    readByte (enterRegions s) a = readByte s a := by
  simp only [inboundWord, List.any_eq_false, Bool.and_eq_true, beq_iff_eq, List.any_eq_true, decide_eq_true_eq] at ha
  refine each_keeps_mem (g := fun u => readByte u a) fun x hx u => ?_
  split
  next inbound =>
    exact each_keeps_mem (g := fun v => readByte v a) fun y hy v =>
      readByte_clearWords_outside fun within => ha x hx ⟨inbound, y, hy, within⟩
  · rfl

/-- Heron's start zeroes the inbound regions and stores nothing else. -/
theorem readByte_startHeron (ha : inboundWord s.tables (a / 4) = false) :
    readByte (startHeron s) a = readByte s a := by
  have begun : ∀ n u, SameBut [.heronClock, .meters, .coarse, .queues, .streams, .ports, .counters] u
      (startStreams n (endPauses (bumpDev 0 { setHeronClock u with heron := { (setHeronClock u).heron with
        started := true, cycle := 1, len := cycleUnits (setHeronClock u) } }))) := fun n u => by simp
  have served : ∀ u, inboundWord u.tables (a / 4) = false →
      readByte (openCycle true (enterService u)) a = readByte u a := fun u hu => by
    rw [readByte_of_sameBut (s := enterRegions u) (l := noMem) (by simp [enterService, noMem]) (by decide)]
    exact readByte_enterRegions hu
  have tables : ∀ n, s.tables = (startStreams n _).tables := fun n => begun n s .tables (by decide)
  simp only [startHeron]
  rw [served _ (by rw [← tables]; exact ha), readByte_of_sameBut (begun _ s) (by decide)]

/-! ### The scrubber (15 R327) -/

theorem readByte_judgeWord {m : MemoryId} (ha : m = .processImage → a / 4 ≠ w) :
    readByte (judgeWord m w s) a = readByte s a := by
  cases m
  case processImage => exact readByte_judgeImage fun _ e => absurd e (ha rfl)
  case multiTables | singleTables =>
    exact each_keeps (g := fun u => readByte u a) fun _ u =>
      readByte_of_sameBut (l := noMem) (by simp [noMem]) (by decide) a
  all_goals
    simp only [judgeWord]
    split <;> exact readByte_of_sameBut (l := noMem) (by simp [noMem]) (by decide) a

/-- A scrub read stores to the word that falls to it. -/
theorem readByte_scrubNext {m : MemoryId} (ha : m = .processImage → a / 4 ≠ (scrub s (memCode m)).next) :
    readByte (scrubNext m s) a = readByte s a := readByte_judgeWord ha

/-! ### Commands -/

/-- Settles O13: the commands that store in the image, each by the lemma on its stores; the others leave it. -/
theorem imageFrame : Obligations.ImageFrame := by
  unfold Obligations.ImageFrame
  intro c s t a h hs
  by_cases hm : .mem ∈ writes c
  case neg => exact readByte_of_sameBut (exec_frame h) hm a
  cases c
  case powerOn | railBrownOut | resetN | vinUndervoltage | xinLoss | thermalShutdown | slotSwitchReset | s4Entry |
    processImageClearDone => simp [storesTo] at hs
  case heronStart =>
    simp only [exec, execHeronStart] at h
    exact readByte_act h (readByte_startHeron hs)
  case cycleBoundary =>
    simp only [exec, execCycleBoundary] at h
    have spared : Spared a (readByte s a) s := ⟨rfl, by simpa [storesTo] using hs⟩
    exact readByte_act h (spared_boundary spared).1
  case heronVote =>
    simp only [exec, execHeronVote] at h
    have spared : Spared a (readByte s a) s := ⟨rfl, by simpa [storesTo] using hs⟩
    exact readByte_act h (spared_voteUnder spared).1
  case s3Exit cause =>
    simp only [exec, execS3Exit] at h
    have spared : Spared a (readByte s a) s := ⟨rfl, by simpa [storesTo] using hs⟩
    exact readByte_act h (spared_leaveS3 (spared.of (t := wakeEffect cause s) (by simp))).1
  case hostWrite pa v x =>
    simp only [exec, execHostWrite] at h
    refine readByte_act h (readByte_landWrite (s := unlatched s) fun hw target => ?_)
    have reached : hostWriteTarget s x.lag.val (accessWord s pa) = some (a / 4) := target
    simp [storesTo, hw, reached] at hs
  case halfReadLatch pa =>
    simp only [exec, execHalfReadLatch] at h
    refine readByte_act h (readByte_hostRead fun hw target => ?_)
    simpa [storesTo, hw, target] using hs
  case avocetHalfCompletion ch =>
    simp only [exec, execAvocetHalfCompletion] at h
    refine readByte_act h ?_
    rw [readByte_of_sameBut (s := landGroup ch.val s) (l := [.chans, .counters]) (by simp) (by decide)]
    exact readByte_landGroup (by simpa [storesTo] using hs)
  case avocetFullCompletion ch =>
    simp only [exec, execAvocetFullCompletion] at h
    refine readByte_act h ?_
    rw [readByte_of_sameBut (s := landGroup ch.val s)
      (l := [.regions, .inputs, .streams, .rxCells, .listeners, .vcs, .chans, .counters]) (by simp) (by decide)]
    exact readByte_landGroup (by simpa [storesTo] using hs)
  case avocetBusError =>
    simp only [exec, execAvocetBusError] at h
    have sound : Sound a (readByte s a) s := ⟨rfl, hs⟩
    exact readByte_act h (sound_stopAvocet sound).1
  case scrubRead m us =>
    simp only [exec, execScrubRead] at h
    have struck : SameBut [.upsets] s (each us addUpset s) := by simp
    have same : scrub (each us addUpset s) = scrub s := by
      have scrubs : s.scrubs = (each us addUpset s).scrubs := struck .scrubs (by decide)
      funext i
      simp only [scrub, scrubs]
    refine readByte_act h ((readByte_scrubNext fun e next => ?_).trans (readByte_of_sameBut struck (by decide) a))
    simp [storesTo, e, next, same] at hs
  all_goals simp [writes] at hm

end Sys2Proof.Machine
end

section
/-!
SUPPORT. The process image port: the half-read latch (10 R233), the event flags and the mask (R243), PATN_N's re-arm
pulse (R246), and doorbells (R245).
-/
namespace Sys2Proof.Machine

variable {s t u o : State} {pa : BitVec 17} {v : Word} {be : BitVec 4} {n lag w : Nat} {x : BitVec 16}

/-! ### The half-read latch (R233) -/

/-- A read of half 0 latches the upper half of the value it gives. -/
theorem halfLatch_readHalf_low (h : pa.getLsbD 0 = false) :
    (readHalf pa s).halfLatch = some (pa.toNat / 2, highHalf (hostWord s (pa.toNat / 2))) := by
  simp only [readHalf, h, ↓reduceIte, Bool.false_eq_true]

theorem halfLatch_readHalf_high (h : pa.getLsbD 0 = true) : (readHalf pa s).halfLatch = none := by
  simp only [readHalf, h, ↓reduceIte]

/-- A read of half 1 gives the latched bits of its word. -/
theorem mem_out_readHalf_latched (h : pa.getLsbD 0 = true) (hl : s.halfLatch = some (pa.toNat / 2, x)) :
    .pd s.now pa (x.setWidth 32) ∈ (readHalf pa s).out := by
  simp only [readHalf, h, hl, ↓reduceIte]
  exact mem_out_emit

/-- With no bits of its word latched it gives the word's own upper half. -/
theorem mem_out_readHalf_unlatched (h : pa.getLsbD 0 = true) (hl : ∀ y, s.halfLatch ≠ some (pa.toNat / 2, y)) :
    .pd s.now pa ((highHalf (hostWord s (pa.toNat / 2))).setWidth 32) ∈ (readHalf pa s).out := by
  cases latch : s.halfLatch with
  | none => exact mem_out_readHalf_high h latch
  | some y =>
    have other : y.1 ≠ pa.toNat / 2 := fun e => hl y.2 (by rw [latch, ← e])
    simp only [readHalf, h, latch, other, ↓reduceIte]
    exact mem_out_emit

/-- Every host write discards the latch. -/
theorem halfLatch_landed : (landed lag w v be s).halfLatch = none := by
  have kept : (unlatched s).halfLatch = (landWrite lag w v be (unlatched s)).halfLatch :=
    (show SameBut [.mem, .upsets, .hostWords, .doorbell, .ignWr, .rearm, .chans, .counters, .power, .faults]
      (unlatched s) (landWrite lag w v be (unlatched s)) by simp) .halfLatch (by decide)
  simp only [landed, publish_fields, ← kept]
  rfl

/-- Settles O39: each kind of access by what it puts on PD and what it leaves in the latch. -/
theorem halfReadsNeverTorn : Obligations.HalfReadsNeverTorn := by
  unfold Obligations.HalfReadsNeverTorn
  intro s pa n hr hl hb
  have reads := exec_halfReadLatch_on (pa := pa) hr hl hb
  refine ⟨fun hw hpa => ?_, fun hw hpa u latch => ?_, fun hw hpa latch => ?_, fun hw => ?_,
    fun hp c v be w lag hc => ?_⟩
  · have half := getLsbD_zero_of_even hpa
    have word : pa.toNat / 2 = n := by omega
    rw [if_pos hw] at reads
    exact ⟨_, reads, mem_out_publish (word ▸ mem_out_readHalf_low half), by
      simp only [publish_fields, halfLatch_readHalf_low half, word]⟩
  · have half := getLsbD_zero_of_odd hpa
    have word : pa.toNat / 2 = n := by omega
    rw [if_pos hw] at reads
    exact ⟨_, reads, mem_out_publish (mem_out_readHalf_latched half (word ▸ latch)), by
      simp only [publish_fields, halfLatch_readHalf_high half]⟩
  · have half := getLsbD_zero_of_odd hpa
    have word : pa.toNat / 2 = n := by omega
    rw [if_pos hw] at reads
    exact ⟨_, reads, mem_out_publish (word ▸ mem_out_readHalf_unlatched half (word ▸ latch)), by
      simp only [publish_fields, halfLatch_readHalf_high half]⟩
  · rw [if_neg (by simp [hw])] at reads
    exact ⟨_, reads, mem_out_publish mem_out_readWhole, by simp [readWhole]⟩
  · simp only [List.mem_cons, List.not_mem_nil, or_false] at hc
    rcases hc with rfl | rfl | rfl | rfl | rfl
    · exact ⟨_, exec_hostWrite hp, halfLatch_landed⟩
    · exact ⟨_, exec_eventFlagClear hp, halfLatch_landed⟩
    · exact ⟨_, exec_attnmaskWrite hp, halfLatch_landed⟩
    · exact ⟨_, exec_doorbellRing hp, halfLatch_landed⟩
    · exact ⟨_, exec_hostltrWrite hp, halfLatch_landed⟩

/-! ### Event flags and the re-arm pulse (R243, R246) -/

/-- PATN_N stays asserted where an unmasked flag stays. -/
theorem patnOn_of_unmasked (hp : patnOn s = true) (boot : t.boot = s.boot) (supply : t.supply = s.supply)
    (level : t.power.level = s.power.level) (pulse : t.station.rearmEnd = s.station.rearmEnd)
    (flags : t.station.events &&& ~~~t.station.attnMask ≠ 0) : patnOn t = true := by
  simp only [patnOn, inService, Bool.and_eq_true] at hp ⊢
  obtain ⟨service, -⟩ := hp
  refine ⟨by rw [boot, supply, level, pulse]; exact service, by simpa using flags⟩

/-- The state on which a host write to the station block works. -/
def awake (s : State) : State := wakeS3 (unlatched s)

@[simp] theorem awake_fields : (awake s).station = s.station ∧ (awake s).boot = s.boot ∧ (awake s).upsets = s.upsets ∧
    (awake s).now = s.now ∧ (awake s).supply = s.supply ∧ (awake s).power.level = s.power.level := by
  simp [awake]

theorem patnOn_awake : patnOn (awake s) = patnOn s := by apply patnOn_congr <;> simp

theorem setNow_congr (station : t.station = s.station) (now : t.now = s.now) : setNow t n = setNow s n := by
  unfold setNow
  rw [station, now]

theorem setNow_awake : setNow (awake s) n = setNow s n := setNow_congr awake_fields.1 awake_fields.2.2.2.1

/-- A write that leaves PATN_N asserted starts the pulse. -/
theorem rearm_starts (ho : patnOn o = true) (ht : patnOn t = true) :
    (rearm o t).station.rearmEnd = some (t.now + 80) := by
  simp [rearm, ho, ht]

theorem rearm_flags : (rearm o t).station.events = t.station.events ∧
    (rearm o t).station.attnMask = t.station.attnMask := by
  simp only [rearm]
  split <;> exact ⟨rfl, rfl⟩

/-- A write to words EVENTS to HEVT7. -/
theorem landed_flags {k : Fin 13} (hc : s.boot.cleared = true) : landed 0 (0xFFD8 + k.val) v 15 s =
    publish s (if k = 0 then rearm (awake s) (clearFlags 24 v (awake s)) else clearFlags (24 + k.val) v (awake s)) := by
  rw [landed_word (n := 24 + k.val) (by decide) hc (by omega), writeStation_flags]
  rfl

/-- Where no change calls for a flag, publish leaves EVENTS. -/
theorem events_publish_quiet (hb : changeBits o t = 0) : (publish o t).station.events = t.station.events := by
  rw [flags_publish.1]
  split
  · rfl
  · rw [hb]; exact BitVec.or_zero

theorem station_clearFlags_hevt {k : Fin 13} (hk : 5 ≤ k.val) : (clearFlags (24 + k.val) v u).station.hevt =
    u.station.hevt &&& ~~~((v &&& ~~~setNow u (24 + k.val)).setWidth 256 <<< (32 * (k.val - 5))) := by
  obtain ⟨k, lt⟩ := k
  simp only at hk
  interval_cases k <;> rfl

/-- EVENTS is cleared by a 1, and PATN_N pulses where it stays asserted. -/
theorem landed_events {b : Word} (hc : s.boot.cleared = true) (hb : b = v &&& ~~~setNow s 24) :
    (landed 0 0xFFD8 v 15 s).station.events = s.station.events &&& ~~~b ∧
      (patnOn s = true → s.station.events &&& ~~~b &&& ~~~s.station.attnMask ≠ 0 →
        (landed 0 0xFFD8 v 15 s).station.rearmEnd = some (s.now + 80)) := by
  have lands : landed 0 0xFFD8 v 15 s = publish s (rearm (awake s) (clearFlags 24 v (awake s))) :=
    landed_flags (k := 0) hc
  have cleared : (clearFlags 24 v (awake s)).station.events = s.station.events &&& ~~~b := by
    simp [clearFlags, setNow_awake, hb]
  have quiet : changeBits s (rearm (awake s) (clearFlags 24 v (awake s))) = 0 :=
    changeBits_zero (l := [.halfLatch, .power, .rearm]) (by simp [awake]) (by decide)
  rw [lands]
  refine ⟨by rw [events_publish_quiet quiet, rearm_flags.1, cleared], fun hp flags => ?_⟩
  have stays : patnOn (clearFlags 24 v (awake s)) = true := by
    refine patnOn_of_unmasked hp (by simp [clearFlags]) (by simp [clearFlags]) (by simp [clearFlags])
      (by simp [clearFlags]) ?_
    rw [cleared]
    simpa [clearFlags] using flags
  simp only [publish_station, rearm_starts (patnOn_awake.trans hp) stays]
  simp [clearFlags]

theorem events_setHostWord : (setHostWord n v s).station.events = s.station.events := by
  simp only [setHostWord]
  split <;> rfl

theorem events_setSram : (setSram w v s).station.events = s.station.events := by
  simp only [setSram]
  split
  · exact events_setHostWord
  · rfl

/-- A merge into a word of the image leaves the flags. -/
theorem events_judgeMerge : (judgeMerge w s).station.events = s.station.events := by
  cases hu : uncorrectable (flips s .processImage 0 w)
  · rw [judgeMerge_sound hu, station_correctWord]
  · rw [judgeMerge_error hu, station_noteImageError, events_setSram]

theorem events_storeHostWord : (storeHostWord n v be s).station.events = s.station.events := by
  simp only [storeHostWord, events_setHostWord]
  split
  · rfl
  · exact events_judgeMerge

/-- A write to ATTNMASK lands in the bytes it enables, and PATN_N pulses where it stays asserted. -/
theorem landed_attnMask (h0 : be ≠ 0) (hc : s.boot.cleared = true) :
    (landed 0 0xFFD6 v be s).station.attnMask = mergeWord (mergedInto s 0xFFD6) v be ∧
      (patnOn s = true → s.station.events &&& ~~~mergeWord (mergedInto s 0xFFD6) v be ≠ 0 →
        (landed 0 0xFFD6 v be s).station.rearmEnd = some (s.now + 80)) := by
  have cleared : (awake s).boot.cleared = true := by simpa using hc
  have host : 22 ∈ hostNumbers := by decide
  have lands : landed 0 0xFFD6 v be s = publish s (rearm (awake s) (storeHostWord 22 v be (awake s))) :=
    landed_word (n := 22) h0 hc rfl
  have flipped : flips (awake s) = flips s := by funext; simp [flips]
  have merges : mergedInto (awake s) 0xFFD6 = mergedInto s 0xFFD6 := by
    rw [mergedInto_host (n := 22) host cleared, mergedInto_host (n := 22) host hc, flipped]
    simp
  have mask : (storeHostWord 22 v be (awake s)).station.attnMask = mergeWord (mergedInto s 0xFFD6) v be :=
    (hostField_storeHostWord host cleared).trans (by rw [merges])
  have stored :
      SameBut [.mem, .upsets, .hostWords, .counters, .faults] (awake s) (storeHostWord 22 v be (awake s)) := by simp
  rw [lands]
  refine ⟨by simp only [publish_station, rearm_flags, mask], fun hp flags => ?_⟩
  have power : (awake s).power = (storeHostWord 22 v be (awake s)).power := stored .power (by decide)
  have now : (awake s).now = (storeHostWord 22 v be (awake s)).now := stored .now (by decide)
  have stays : patnOn (storeHostWord 22 v be (awake s)) = true :=
    patnOn_of_unmasked (patnOn_awake.trans hp) (stored .boot (by decide)).symm (stored .supply (by decide)).symm
      (by rw [power]) (stored .rearm (by decide)).symm (by simpa [events_storeHostWord, mask] using flags)
  simp only [publish_station, rearm_starts (patnOn_awake.trans hp) stays, ← now, awake_fields]

/-! ### What PATN_N's pad follows (R246; 15 R326) -/

/-- What follows a command ends with the pins, on a state that differs in no part. -/
theorem publish_drives : ∃ u, publish o t = drivePins o u ∧ SameBut [] t u ∧
    u.station.attnCount = t.station.attnCount := by
  simp only [publish]
  split
  · exact ⟨t, rfl, SameBut.refl, rfl⟩
  · refine ⟨_, rfl, by simp, ?_⟩
    rw [unheard_changeFrames.2]
    rfl

theorem patnOn_drivePins : patnOn (drivePins o u) = patnOn u := by
  simp only [drivePins]
  (repeat' split) <;> rfl

theorem ck_ckPatn : Crossing.ckPatn.ck = 2 := by decide

/-- PATN_N's pad changes 2 ck after what holds it. -/
theorem patnN_mem_out_drivePins (h : patnOn o ≠ patnOn u) :
    .level (u.now + 2) .patnN (if patnOn u then 0 else 1) ∈ (drivePins o u).out := by
  have pin : ∀ e, patnOn (emit e u) = patnOn u := fun _ => rfl
  simp only [drivePins, ck_ckPatn]
  split <;> cases hu : patnOn u <;> simp_all [bitW]

/-- An assertion is counted. -/
theorem attnCount_drivePins (ho : patnOn o = false) (hu : patnOn u = true) :
    (drivePins o u).station.attnCount = u.station.attnCount + 1 := by
  have pin : ∀ e, patnOn (emit e u) = true := fun _ => hu
  have pins : ∀ e f, patnOn (emit e (emit f u)) = true := fun _ _ => hu
  simp only [drivePins]
  split <;> simp [ho, hu, pin, pins]

/-- The pulse's end lets PATN_N follow the flags again. -/
theorem rearmEnds_asserts {d : Nat} (hd : s.station.rearmEnd = some d)
    (hp : patnOn (publish s { s with station := { s.station with rearmEnd := none } }) = true) :
    (publish s { s with station := { s.station with rearmEnd := none } }).station.attnCount =
        s.station.attnCount + 1 ∧
      .level (s.now + 2) .patnN 0 ∈ (publish s { s with station := { s.station with rearmEnd := none } }).out := by
  obtain ⟨u, driven, same, count⟩ :=
    publish_drives (o := s) (t := { s with station := { s.station with rearmEnd := none } })
  have now : s.now = u.now := same .now (by decide)
  have released : patnOn s = false := by simp [patnOn, hd]
  rw [driven, patnOn_drivePins] at hp
  rw [driven, now]
  refine ⟨(attnCount_drivePins released hp).trans (by rw [count]), ?_⟩
  simpa [hp] using patnN_mem_out_drivePins (o := s) (u := u) (by simp [released, hp])

/-! ### Doorbells (R243, R245) -/

/-- A doorbell's bit alone is rung by a write of it. -/
theorem rungBits (b : Fin 32) : (List.range 32).filter (fun i => ((1 <<< b.val : Nat) : Word).getLsbD i) = [b.val] := by
  revert b
  decide

/-- A doorbell rung stands in its word, and among those rung in this ck. -/
theorem doorbell_ringBit {b : Nat} : doorbellOf (ringBit b s).station = (s.station.doorbell ||| 1 <<< b, s.now,
    (if s.station.rungAt = s.now then s.station.rung else 0) ||| 1 <<< b) := by
  have kept : ∀ f u, doorbellOf (fire f u).station = doorbellOf u.station := fun f u =>
    ((by simp : SameBut [.chans, .counters] u (fire f u)) .doorbell (by decide)).symm
  simp only [ringBit, kept]
  rfl

theorem getLsbD_rung {r : Word} (b : Fin 32) : (r ||| (1 <<< b.val : Nat)).getLsbD b.val = true := by
  have own : ((1 <<< b.val : Nat) : Word).getLsbD b.val = true := by
    revert b
    decide
  rw [BitVec.getLsbD_or, own, Bool.or_true]

theorem landed_doorbell {b : Fin 32} (hc : s.boot.cleared = true) :
    (landed 0 0xFFD7 (1 <<< b.val : Nat) 15 s).station.doorbell = s.station.doorbell ||| (1 <<< b.val : Nat) ∧
      (landed 0 0xFFD7 (1 <<< b.val : Nat) 15 s).station.rungAt = s.now ∧
      (landed 0 0xFFD7 (1 <<< b.val : Nat) 15 s).station.rung.getLsbD b.val = true := by
  have lands : landed 0 0xFFD7 (1 <<< b.val : Nat) 15 s = publish s (ringBit b.val (awake s)) := by
    have station : writeStation 23 (1 <<< b.val : Nat) 15 (awake s) = ringBit b.val (awake s) := by
      have enabled : ((1 <<< b.val : Nat) : Word) &&& beMask 15 = (1 <<< b.val : Nat) := and_beMask_all
      simp only [writeStation, ring, enabled, rungBits]
      rfl
    exact (landed_word (n := 23) (by decide) hc rfl).trans (by rw [← station]; rfl)
  have rung := doorbell_ringBit (s := awake s) (b := b.val)
  simp only [doorbellOf, awake_fields, Prod.mk.injEq] at rung
  obtain ⟨doorbell, at', bits⟩ := rung
  simp only [lands, publish_station]
  exact ⟨doorbell, at', by rw [bits]; exact getLsbD_rung b⟩

/-- A doorbell that no channel names is cleared and counted. -/
def dropDoorbell (b : Nat) (s : State) : State :=
  bumpDev 22 { s with station := { s.station with doorbell := s.station.doorbell &&& ~~~((1 : Word) <<< b) } }

theorem doorbellDuty_service (h : inService s = true) : doorbellDuty s = each (unboundBits s) dropDoorbell s := by
  simp only [doorbellDuty, h]
  rfl

theorem mem_unboundBits (b : Fin 32) (hb : s.station.doorbell.getLsbD b.val = true)
    (hn : namesDoorbell s b.val = false) (hr : ¬(s.station.rungAt = s.now ∧ s.station.rung.getLsbD b.val = true)) :
    b.val ∈ unboundBits s := by
  simp only [unboundBits, List.mem_filter, List.mem_range, hb, hn, Bool.and_eq_true, Bool.not_eq_true',
    Bool.and_eq_false_iff, beq_eq_false_iff_ne, Bool.not_false, true_and, and_true]
  refine ⟨b.isLt, ?_⟩
  by_cases hat : s.station.rungAt = s.now
  · exact .inr (by simpa [hat] using hr)
  · exact .inl hat

theorem getLsbD_dropDoorbell {b c : Nat} (h : s.station.doorbell.getLsbD b = false ∨ (c = b ∧ b < 32)) :
    (dropDoorbell c s).station.doorbell.getLsbD b = false := by
  have word : (dropDoorbell c s).station.doorbell = s.station.doorbell &&& ~~~((1 : Word) <<< c) := by
    simp [dropDoorbell]
  rw [word, BitVec.getLsbD_and]
  rcases h with h | ⟨rfl, lt⟩
  · simp [h]
  · simp [lt]

theorem getLsbD_each_dropDoorbell {b : Nat} {bits : List Nat}
    (h : s.station.doorbell.getLsbD b = false ∨ (b ∈ bits ∧ b < 32)) :
    (each bits dropDoorbell s).station.doorbell.getLsbD b = false := by
  unfold each
  induction bits generalizing s with
  | nil => simpa using h
  | cons c bits ih =>
    refine ih ?_
    rcases h with h | ⟨hm, lt⟩
    · exact .inl (getLsbD_dropDoorbell (.inl h))
    · rcases List.mem_cons.1 hm with rfl | hm
      · exact .inl (getLsbD_dropDoorbell (.inr ⟨rfl, lt⟩))
      · exact .inr ⟨hm, lt⟩

theorem CountedBy.add {c i k m : Nat} (h : CountedBy k c i n s t) (h' : CountedBy m c i n t u) :
    CountedBy (k + m) c i n s u := by
  simp only [CountedBy] at h h' ⊢
  rw [h', h, Nat.mod_add_mod, Nat.add_assoc]

theorem countedBy_dropDoorbell {b : Nat} : CountedBy 1 0x20 0 22 s (dropDoorbell b s) := countedBy_bumpDev rfl

theorem countedBy_each_dropDoorbell {b : Nat} {bits : List Nat} :
    CountedBy (b :: bits).length 0x20 0 22 s (each (b :: bits) dropDoorbell s) := by
  induction bits generalizing b s with
  | nil => exact countedBy_dropDoorbell
  | cons c bits ih =>
    rw [List.length_cons, Nat.add_comm]
    exact countedBy_dropDoorbell.add (ih (b := c) (s := dropDoorbell b s))

/-- From SERVICE, the doorbells that no channel names are cleared, each counted. -/
theorem doorbellDuty_drops (b : Fin 32) (hs : inService s = true) (hb : s.station.doorbell.getLsbD b.val = true)
    (hn : namesDoorbell s b.val = false) (hr : ¬(s.station.rungAt = s.now ∧ s.station.rung.getLsbD b.val = true)) :
    (doorbellDuty s).station.doorbell.getLsbD b.val = false ∧
      CountedBy (unboundBits s).length 0x20 0 22 s (doorbellDuty s) := by
  have unbound := mem_unboundBits b hb hn hr
  rw [doorbellDuty_service hs]
  refine ⟨getLsbD_each_dropDoorbell (.inr ⟨unbound, b.isLt⟩), ?_⟩
  cases bits : unboundBits s with
  | nil => simp [bits] at unbound
  | cons c rest => exact countedBy_each_dropDoorbell

/-- Settles O41: an early write by its count, a write to each kind of word by its landing, the doorbells that no channel
names by the ck's duty, and the pulse's end by what it lets PATN_N do. -/
theorem flagWritesComplete : Obligations.FlagWritesComplete := by
  unfold Obligations.FlagWritesComplete
  intro s
  refine ⟨fun hp hc c v w hcmd => ?_,
    fun hp hc => ⟨fun w v b hb => ⟨_, exec_eventFlagClear hp, ?_, ?_, ?_, ?_, ?_, ?_⟩,
      fun v old be h0 hold => ⟨_, exec_attnmaskWrite hp, ?_⟩, fun b => ⟨_, exec_doorbellRing hp, landed_doorbell hc⟩,
      fun v old be h0 hold => ⟨_, exec_hostltrWrite hp, ?_⟩⟩,
    fun b hs hb hn hr => doorbellDuty_drops b hs hb hn hr, fun d hrun hd hle => ?_⟩
  · simp only [List.mem_cons, List.not_mem_nil, or_false] at hcmd
    rcases hcmd with rfl | rfl
    · exact ⟨_, exec_eventFlagClear hp, landed_early (by decide) hc⟩
    · exact ⟨_, exec_doorbellRing hp, landed_early (by decide) hc⟩
  · rintro rfl
    exact landed_events hc hb
  · rintro rfl
    rw [landed_flags hc, flags_publish.2.1]
    simp [clearFlags, setNow_awake, hb]
  · rintro rfl
    rw [landed_flags hc, flags_publish.2.1]
    simp [clearFlags, setNow_awake, hb]
  · rintro rfl
    rw [landed_flags hc, flags_publish.2.2.1]
    simp [clearFlags, setNow_awake, hb]
  · rintro rfl
    rw [landed_flags hc, flags_publish.2.2.1]
    simp [clearFlags, setNow_awake, hb]
  · intro hw
    have other : w ≠ 0 := by rintro rfl; exact absurd hw (by decide)
    rw [landed_flags hc, flags_publish.2.2.2, if_neg other, station_clearFlags_hevt hw, setNow_awake, ← hb]
    simp
  · have merged : old = mergedInto s 0xFFD6 := by
      rw [hold, mergedInto, sramWord_host (n := 22) (by decide) hc]
      rfl
    rw [merged]
    exact landed_attnMask h0 hc
  · have merged : old = mergedInto s 0xFFD3 := by
      rw [hold, mergedInto, sramWord_host (n := 19) (by decide) hc]
      rfl
    rw [merged]
    exact landed_host h0 hc (n := 19) rfl (by decide) (by decide)
  · simp only [exec, execRearmPulseEnd]
    exact ⟨_, act_on (by simp [hrun, hd, hle]), by simp, rearmEnds_asserts hd⟩

end Sys2Proof.Machine
end

section
/-!
SUPPORT. What every step publishes: the EVENTS bits of the changes that it made (10 R244), and the levels of FAULT_N and
PATN_N 2 ck after the state that they follow (10 R246; 15 R326).
-/
namespace Sys2Proof.Machine

variable {s t o n u : State}

/-! ### Every step publishes -/

/-- A step changes nothing but the queue, or what it did is published. -/
theorem step_next (h : step s = .next t) : t = dequeued s ∨ ∃ n, t = publish (dequeued s) n := by
  have published : ∀ {g op}, act g op (dequeued s) = .next t → t = dequeued s ∨ ∃ n, t = publish (dequeued s) n :=
    fun ha => (act_next ha).imp And.right fun done => ⟨_, done.2⟩
  cases queue : s.pending with
  | nil => exact published ((step_of_empty queue).symm.trans h)
  | cons c rest =>
    obtain ⟨g, op, occurs⟩ := exec_is_act c (dequeued s)
    exact published (occurs.symm.trans ((step_of_front queue).symm.trans h))

/-! ### EVENTS (10 R244) -/

/-- Each of the bits 3 to 8 that a change calls for, by the change. -/
theorem getLsbD_changeBits :
    (changeBits o n).getLsbD 3 = (staleBits o != staleBits n) ∧
    (changeBits o n).getLsbD 4 = (o.faults.made != n.faults.made) ∧
    (changeBits o n).getLsbD 5 = (!o.station.wdExp && n.station.wdExp) ∧
    (changeBits o n).getLsbD 6 = (timeLock o != timeLock n || o.dunlin.working != n.dunlin.working) ∧
    (changeBits o n).getLsbD 7 = (List.range 32).any (fun k => linkCode (link o k) != linkCode (link n k)) ∧
    (changeBits o n).getLsbD 8 = (List.range 4).any (fun p =>
      (port o p).up != (port n p).up || (port o p).live != (port n p).live) := by
  have bit : ∀ stale fault expired time link port : Bool, ∀ w : Word,
      w = (if stale then 8 else 0) ||| (if fault then 16 else 0) ||| (if expired then 32 else 0) |||
        (if time then 64 else 0) ||| (if link then 128 else 0) ||| (if port then 256 else 0) →
      w.getLsbD 3 = stale ∧ w.getLsbD 4 = fault ∧ w.getLsbD 5 = expired ∧ w.getLsbD 6 = time ∧ w.getLsbD 7 = link ∧
        w.getLsbD 8 = port := by
    rintro stale fault expired time link port w rfl
    revert stale fault expired time link port
    decide
  exact bit _ _ _ _ _ _ _ rfl

/-- Out of reset and S4, the clear complete, a bit that a change calls for is set. -/
theorem getLsbD_events_publish {i : Nat} (hr : (publish o n).supply.inReset = false)
    (hl : (publish o n).power.level ≠ 4) (hc : (publish o n).boot.cleared = true)
    (hb : (changeBits o n).getLsbD i = true) : (publish o n).station.events.getLsbD i = true := by
  simp only [publish_fields] at hr hl hc
  rw [flags_publish.1, if_neg (by simp [hr, hl, hc]), BitVec.getLsbD_or, hb, Bool.or_true]

/-- Settles O10: what a step changes it publishes, and publish sets the bits of the changes. -/
theorem eventFlagsFollowChanges : Obligations.EventFlagsFollowChanges := by
  unfold Obligations.EventFlagsFollowChanges
  intro s t h hr hl hc
  rcases step_next h with rfl | ⟨n, rfl⟩
  · exact ⟨fun change => absurd rfl change, fun change => absurd rfl change,
      fun before after => absurd (before.symm.trans after) Bool.false_ne_true,
      fun change => change.elim (absurd rfl) (absurd rfl), fun _ _ change => absurd rfl change,
      fun _ _ change => change.elim (absurd rfl) (absurd rfl)⟩
  · obtain ⟨stale, fault, expired, time, links, ports⟩ := getLsbD_changeBits (o := dequeued s) (n := n)
    have set : ∀ i, (changeBits (dequeued s) n).getLsbD i = true → _ := fun i => getLsbD_events_publish (i := i) hr hl hc
    have same : staleBits (publish (dequeued s) n) = staleBits n := by simp [staleBits]
    have locked : timeLock (publish (dequeued s) n) = timeLock n := by simp [timeLock]
    simp only [same, locked, publish_fields, publish_subs, publish_station, port_publish]
    refine ⟨fun change => set 3 ?_, fun change => set 4 ?_, fun before after => set 5 ?_, fun change => set 6 ?_,
      fun k hk change => set 7 ?_, fun p hp change => set 8 ?_⟩
    · exact stale.trans (bne_iff_ne.2 change)
    · exact fault.trans (bne_iff_ne.2 change)
    · rw [expired, after, show (dequeued s).station.wdExp = false from before]
      rfl
    · rw [time, Bool.or_eq_true]
      exact change.imp bne_iff_ne.2 bne_iff_ne.2
    · rw [links, List.any_eq_true]
      exact ⟨k, List.mem_range.2 hk, bne_iff_ne.2 change⟩
    · rw [ports, List.any_eq_true]
      exact ⟨p, List.mem_range.2 hp, Bool.or_eq_true _ _ ▸ change.imp bne_iff_ne.2 bne_iff_ne.2⟩

/-! ### FAULT_N and PATN_N (10 R246; 15 R326) -/

theorem faultLow_drivePins : faultLow (drivePins o u) = faultLow u := by
  simp only [drivePins]
  (repeat' split) <;> rfl

theorem now_drivePins : (drivePins o u).now = u.now := by
  simp only [drivePins]
  (repeat' split) <;> rfl

/-- FAULT_N's pad changes 2 ck after what holds it. -/
theorem faultN_mem_out_drivePins (h : faultLow o ≠ faultLow u) :
    .level (u.now + 2) .faultN (if faultLow u then 0 else 1) ∈ (drivePins o u).out := by
  have drives : (faultLow o != faultLow u) = true := bne_iff_ne.2 h
  have level : bitW (!faultLow u) 1 = if faultLow u then 0 else 1 := by cases faultLow u <;> rfl
  generalize (if faultLow u then 0 else 1) = v at level ⊢
  simp only [drivePins, drives, ck_ckPatn, level, ↓reduceIte]
  split <;> simp

/-- Settles O11: a step that changes anything but the queue ends with the pins, driven from the state before to the state
after. -/
theorem statusPinsFollow : Obligations.StatusPinsFollow := by
  unfold Obligations.StatusPinsFollow
  intro s t h
  rcases step_next h with rfl | ⟨n, rfl⟩
  · exact ⟨fun change => absurd rfl change, fun change => absurd rfl change⟩
  · obtain ⟨u, driven, -⟩ := publish_drives (o := dequeued s) (t := n)
    rw [driven, faultLow_drivePins, patnOn_drivePins, now_drivePins]
    exact ⟨fun change => faultN_mem_out_drivePins change, fun change => patnN_mem_out_drivePins change⟩

/-! ### The frame of the host's and the management's commands -/

/-- Settles O60: these commands too change only what `writes` lists, and what leaves the image leaves its bytes. -/
theorem hostAndManagementFrames : Obligations.HostAndManagementFrames := by
  unfold Obligations.HostAndManagementFrames
  intro c s t _ h
  have frame : SameBut (writes c) s t := exec_frame h
  exact ⟨frame, fun hm => readByte_of_sameBut frame hm⟩

end Sys2Proof.Machine
end

section
/-!
SUPPORT. Avocet's triggers (11 R251, R255, R258, R264, R270), the whole opening of a listener's frame (R256), and the
reads that a ck grants (R259).
-/
namespace Sys2Proof.Machine

variable {s t u : State} {c d n : Nat} {r : DmaRec} {l : List Part}

theorem chan_of_sameBut (h : SameBut l s t) (hl : .chans ∉ l) : chan t = chan s := by
  have chans : s.chans = t.chans := h .chans hl
  funext i
  simp only [chan, chans]

theorem listener_of_sameBut (h : SameBut l s t) (hl : .listeners ∉ l) : listener t = listener s := by
  have listeners : s.listeners = t.listeners := h .listeners hl
  funext i
  simp only [listener, listeners]

theorem chan_publish : chan (publish s t) = chan t := by simp

theorem chan_bumpChan : chan (bumpChan c n s) = chan s := rfl

/-- A counter of a channel is none that the device's own frames move. -/
theorem frameCounter_chan {c : Chan} (hn : n < 256) : frameCounter (ctrId 0x2A c.val n) = false :=
  frameCounter_other (by decide) (by decide) (by omega) hn

/-! ### Recognising a trigger (R255, R270) -/

/-- A trigger's first ck lies before the one from which the channel's descriptor is active. -/
def firstTriggerEarly (x : ChanSt) : Bool :=
  match x.triggers with | a :: _ => decide (a < x.activeFrom) | [] => false

theorem firstTriggerEarly_eq_false {x : ChanSt} (h : ∀ a ∈ x.triggers.head?, x.activeFrom ≤ a) :
    firstTriggerEarly x = false := by
  unfold firstTriggerEarly
  split
  next a as triggers => simpa using h a (by simp [triggers])
  · rfl

theorem firstTriggerEarly_eq_true {x : ChanSt} {a : Nat} (h : x.triggers.head? = some a) (ha : a < x.activeFrom) :
    firstTriggerEarly x = true := by
  obtain ⟨as, triggers⟩ := List.head?_eq_some_iff.1 h
  simp [firstTriggerEarly, triggers, ha]

/-- The state once the channel's first triggers are taken; an arrival is none of them. -/
def triggerTaken (c : Nat) (r : DmaRec) (s : State) : State := if r.trig = 4 then s else takeTrigger c s

/-- A taken trigger leaves of the channel all but its triggers, and counts nothing. -/
theorem triggerTaken_leaves : (∃ ts, chan (triggerTaken c r s) c = { chan s c with triggers := ts }) ∧
    (triggerTaken c r s).now = s.now ∧ readCtr (triggerTaken c r s) = readCtr s := by
  simp only [triggerTaken, takeTrigger]
  (repeat' split)
  · exact ⟨⟨_, rfl⟩, rfl, rfl⟩
  · exact ⟨⟨_, by simp; rfl⟩, rfl, rfl⟩
  · exact ⟨⟨_, rfl⟩, rfl, rfl⟩

theorem isWaiting_triggerTaken : isWaiting (triggerTaken c r s) c = isWaiting s c := by
  obtain ⟨⟨ts, taken⟩, now, -⟩ := triggerTaken_leaves (s := s) (c := c) (r := r)
  simp only [isWaiting, taken, now]

theorem pendingFlag_triggerTaken : (chan (triggerTaken c r s) c).pendingFlag = (chan s c).pendingFlag := by
  obtain ⟨⟨ts, taken⟩, -⟩ := triggerTaken_leaves (s := s) (c := c) (r := r)
  rw [taken]

theorem isWaiting_of_busy (h : (chan s c).status = .busy) : isWaiting s c = false := by simp [isWaiting, h]

/-- What a recognised trigger does to its channel, the doorbell apart: it starts, stays pending, or is an overrun. -/
def triggerActs (c : Nat) (early : Bool) (s : State) : State :=
  if isWaiting s c && !early && !(chan s c).pendingFlag then begin' c (s.now + 3) s
  else if (chan s c).pendingFlag then bumpChan c 0 s
  else setChan s c { chan s c with pendingFlag := true }

/-- The doorbell of a trigger is consumed; channels, counters and the ck stay. -/
theorem recognise_leaves : chan (recognise c r s) =
      chan (triggerActs c (firstTriggerEarly (chan s c)) (triggerTaken c r s)) ∧
    (recognise c r s).now = (triggerActs c (firstTriggerEarly (chan s c)) (triggerTaken c r s)).now ∧
    readCtr (recognise c r s) =
      readCtr (triggerActs c (firstTriggerEarly (chan s c)) (triggerTaken c r s)) := by
  have consumed : ∀ b u, chan (consumeDoorbell b u) = chan u ∧ (consumeDoorbell b u).now = u.now ∧
      readCtr (consumeDoorbell b u) = readCtr u := fun b u => by
    simp only [consumeDoorbell]
    split <;> exact ⟨rfl, rfl, rfl⟩
  have acts : recognise c r s =
      if r.trig = 5 then consumeDoorbell r.arg (triggerActs c (firstTriggerEarly (chan s c)) (triggerTaken c r s))
      else triggerActs c (firstTriggerEarly (chan s c)) (triggerTaken c r s) := rfl
  rw [acts]
  split
  · exact consumed _ _
  · exact ⟨rfl, rfl, rfl⟩

@[simp] theorem chan_begin'_self : chan (begin' c n s) c = { ChanSt.init with
    status := .busy, active := (chan s c).active, shadow := (chan s c).shadow, triggers := (chan s c).triggers
    activeFrom := (chan s c).activeFrom, startedAt := n } := by simp [begin']

/-- A waiting channel starts, and asks for its first read 3 ck later (R258). -/
theorem recognise_starts (hw : isWaiting s c = true) (hp : (chan s c).pendingFlag = false)
    (he : firstTriggerEarly (chan s c) = false) : (chan (recognise c r s) c).status = .busy ∧
      (chan (recognise c r s) c).landed = 0 ∧ (chan (recognise c r s) c).issued = 0 ∧
      (chan (recognise c r s) c).startedAt = s.now + 3 := by
  have starts : triggerActs c false (triggerTaken c r s) = begin' c (s.now + 3) (triggerTaken c r s) := by
    simp [triggerActs, isWaiting_triggerTaken, pendingFlag_triggerTaken, hw, hp, triggerTaken_leaves.2.1]
  rw [recognise_leaves.1, he, starts, chan_begin'_self]
  exact ⟨rfl, rfl, rfl, rfl⟩

/-- On a channel that is busy, or whose descriptor was not active, the trigger stays pending (R255, R270). -/
theorem recognise_pends (hp : (chan s c).pendingFlag = false)
    (hw : isWaiting s c = false ∨ firstTriggerEarly (chan s c) = true) :
    (chan (recognise c r s) c).pendingFlag = true ∧ (chan (recognise c r s) c).status = (chan s c).status ∧
      isWaiting (recognise c r s) c = isWaiting s c ∧ (recognise c r s).now = s.now := by
  have kept : ∀ early, isWaiting s c = false ∨ early = true → triggerActs c early (triggerTaken c r s) =
      setChan (triggerTaken c r s) c { chan (triggerTaken c r s) c with pendingFlag := true } := fun early h => by
    rw [triggerActs, isWaiting_triggerTaken, pendingFlag_triggerTaken, hp]
    rcases h with h | h <;> simp [h]
  obtain ⟨⟨ts, taken⟩, now, -⟩ := triggerTaken_leaves (s := s) (c := c) (r := r)
  obtain ⟨chans, clock, -⟩ := recognise_leaves (s := s) (c := c) (r := r)
  rw [kept _ hw] at chans clock
  have after : chan (recognise c r s) c = { chan s c with triggers := ts, pendingFlag := true } := by
    rw [chans, chan_setChan, if_pos rfl, taken]
  have same : (recognise c r s).now = s.now := clock.trans now
  simp only [isWaiting, after, same, and_self]

/-- A trigger that finds one pending is counted as an overrun, and changes nothing else (R255). -/
theorem recognise_overruns (hp : (chan s c).pendingFlag = true) :
    (chan (recognise c r s) c).pendingFlag = true ∧ isWaiting (recognise c r s) c = isWaiting s c ∧
      (recognise c r s).now = s.now ∧ CountedBy 1 0x2A c 0 s (recognise c r s) := by
  have counts : ∀ early, triggerActs c early (triggerTaken c r s) = bumpChan c 0 (triggerTaken c r s) :=
    fun early => by simp [triggerActs, pendingFlag_triggerTaken, hp]
  obtain ⟨⟨ts, taken⟩, now, counters⟩ := triggerTaken_leaves (s := s) (c := c) (r := r)
  obtain ⟨chans, clock, counted⟩ := recognise_leaves (s := s) (c := c) (r := r)
  rw [counts] at chans clock counted
  have after : chan (recognise c r s) c = { chan s c with triggers := ts } := by
    rw [chans, chan_bumpChan, taken]
  have same : (recognise c r s).now = s.now := clock.trans now
  have overrun : CountedBy 1 0x2A c 0 s (bumpChan c 0 (triggerTaken c r s)) := countedBy_bump (by rw [counters])
  simp only [isWaiting, after, same, hp, true_and]
  exact overrun.readCtr_keeps (congrFun (congrFun (congrFun counted _) _) _)

/-! ### Starting (R251) -/

/-- A channel starts where a start is due. -/
def startWhereDue (c : Nat) (s : State) : State := if startDue s c then begin' c s.now s else s

theorem startWhereDue_of_due (h : startDue s c = true) : startWhereDue c s = begin' c s.now s := if_pos h

theorem startWhereDue_of_not_waiting (h : isWaiting s c = false) : startWhereDue c s = s :=
  if_neg (by simp [startDue, h])

/-- A waiting channel with a trigger kept pending starts in this ck. -/
theorem startWhereDue_pending (hw : isWaiting s c = true) (hp : (chan s c).pendingFlag = true) :
    startWhereDue c s = begin' c s.now s := startWhereDue_of_due (by simp [startDue, hw, hp])

theorem serveTriggers_due (h : triggerDue s c = true) : ∃ r, serveTriggers c s = startWhereDue c (recognise c r s) := by
  have awaits : ∃ r, awaited s c = some r := by
    cases waits : awaited s c with
    | none => simp [triggerDue, waits] at h
    | some r => exact ⟨r, rfl⟩
  obtain ⟨r, awaits⟩ := awaits
  exact ⟨r, by simp only [serveTriggers, h, awaits, ↓reduceIte]; rfl⟩

theorem serveTriggers_quiet (h : triggerDue s c = false) : serveTriggers c s = startWhereDue c s := by
  simp only [serveTriggers, h, Bool.false_eq_true, ↓reduceIte]
  rfl

theorem exec_avocetTrigger {c : Chan} (hck : ckRuns s = true) (hrun : s.avocet.running = true)
    (h : triggerDue s c.val = true ∨ startDue s c.val = true) :
    exec (.avocetTrigger c) s = .next (publish s (serveTriggers c.val s)) := by
  simp only [exec, execAvocetTrigger]
  exact act_on (by simpa [hck, hrun] using h)

/-- A trigger that is due, by the channel that it finds. -/
theorem serveTriggers_of_trigger (h : triggerDue s c = true) :
    (isWaiting s c = true → (chan s c).pendingFlag = false → firstTriggerEarly (chan s c) = false →
      (chan (serveTriggers c s) c).status = .busy ∧ (chan (serveTriggers c s) c).landed = 0 ∧
        (chan (serveTriggers c s) c).issued = 0 ∧ (chan (serveTriggers c s) c).startedAt = s.now + 3) ∧
    (isWaiting s c = true → (chan s c).pendingFlag = false → firstTriggerEarly (chan s c) = true →
      (chan (serveTriggers c s) c).status = .busy ∧ (chan (serveTriggers c s) c).startedAt = s.now) ∧
    (isWaiting s c = true → (chan s c).pendingFlag = true →
      (chan (serveTriggers c s) c).status = .busy ∧ (chan (serveTriggers c s) c).startedAt = s.now ∧
        (chan (serveTriggers c s) c).pendingFlag = false ∧ CountedBy 1 0x2A c 0 s (serveTriggers c s)) ∧
    ((chan s c).status = .busy → (chan s c).pendingFlag = false →
      (chan (serveTriggers c s) c).pendingFlag = true ∧ (chan (serveTriggers c s) c).status = .busy) ∧
    ((chan s c).status = .busy → (chan s c).pendingFlag = true →
      (chan (serveTriggers c s) c).pendingFlag = true ∧ CountedBy 1 0x2A c 0 s (serveTriggers c s)) := by
  obtain ⟨r, serves⟩ := serveTriggers_due h
  rw [serves]
  refine ⟨fun hw hp he => ?_, fun hw hp he => ?_, fun hw hp => ?_, fun hb hp => ?_, fun hb hp => ?_⟩
  · have starts := recognise_starts (r := r) hw hp he
    rwa [startWhereDue_of_not_waiting (isWaiting_of_busy starts.1)]
  · obtain ⟨pends, -, waits, now⟩ := recognise_pends (r := r) hp (.inr he)
    rw [startWhereDue_pending (waits.trans hw) pends, chan_begin'_self, now]
    exact ⟨rfl, rfl⟩
  · obtain ⟨pends, waits, now, counted⟩ := recognise_overruns (r := r) hp
    rw [startWhereDue_pending (waits.trans hw) pends, chan_begin'_self, now]
    exact ⟨rfl, rfl, rfl, counted⟩
  · obtain ⟨pends, status, waits, -⟩ := recognise_pends (r := r) hp (.inl (isWaiting_of_busy hb))
    rw [startWhereDue_of_not_waiting (waits.trans (isWaiting_of_busy hb))]
    exact ⟨pends, status.trans hb⟩
  · obtain ⟨pends, waits, -, counted⟩ := recognise_overruns (r := r) hp
    rw [startWhereDue_of_not_waiting (waits.trans (isWaiting_of_busy hb))]
    exact ⟨pends, counted⟩

/-! ### Sources (R256, R264) -/

theorem sameBut_takeArrival : SameBut [.vcs] s (takeArrival c r s) := by simp

/-- A transfer whose source holds nothing waits again, counted. -/
theorem skipEmpty_skips (h : skipDue s c = true) : (chan (skipEmpty c s) c).status = .waiting ∧
    readCtr (skipEmpty c s) = readCtr (bumpChan c 2 s) := by
  have runs : ∃ r, runningRec s c = some r := by
    cases rec : runningRec s c with
    | none => simp [skipDue, rec] at h
    | some r => exact ⟨r, rfl⟩
  obtain ⟨r, runs⟩ := runs
  have skips : skipEmpty c s = skipTransfer c r s := by simp only [skipEmpty, h, runs, ↓reduceIte]
  have arrives : ∀ u : State, readCtr (takeArrival c r u) = readCtr u := fun u => by
    simp only [takeArrival]
    (repeat' split) <;> rfl
  rw [skips, skipTransfer, arrives, chan_of_sameBut sameBut_takeArrival (by decide), chan_bumpChan]
  exact ⟨by simp, rfl⟩

theorem bytes_readWholeSpan : (chan (readWholeSpan c r s) c).bytes = (chan s c).bytes := by simp [readWholeSpan]

/-- The oldest frame that a listener holds is opened, whole (R256). -/
theorem openSource_listener {f : Frame} {n : Nat} {rest : List (Frame × Nat)} (hs : r.srcSpace = 1)
    (hh : (listener s (srcListener r)).held = (f, n) :: rest) :
    (chan (openSource c r s) c).bytes = cutSource r f.bytes := by
  have held : (listener (takeArrival c r s) (srcListener r)).held = (f, n) :: rest := by
    rw [listener_of_sameBut sameBut_takeArrival (by decide), hh]
  simp [openSource, hs, held, openWhole]

theorem bytes_issueRead_listener {f : Frame} {n : Nat} {rest : List (Frame × Nat)} (hr : runningRec s c = some r)
    (hi : (chan s c).issued = 0) (hs : r.srcSpace = 1)
    (hh : (listener s (srcListener r)).held = (f, n) :: rest) :
    (chan (issueRead c s) c).bytes = cutSource r f.bytes := by
  have reads : issueRead c s = readWholeSpan c r (openSource c r s) := by simp [issueRead, hr, hi, hs]
  rw [reads, bytes_readWholeSpan, openSource_listener hs hh]

/-! ### Grants (R259) -/

theorem mFind_eq_none_of_not_mem {α : Type} {m : SMap α} {k : Nat} (h : k ∉ m.map (·.1)) : mFind m k = none := by
  cases found : mFind m k with
  | none => rfl
  | some v => exact absurd (List.mem_map_of_mem (f := (·.1)) (mem_of_mFind found)) h

/-- A channel that the table does not list is as at reset. -/
theorem chan_of_not_mem (h : c ∉ s.chans.map (·.1)) : chan s c = ChanSt.init := by
  simp only [chan, mGetD, mFind_eq_none_of_not_mem h]
  rfl

theorem mem_chans_of_runningRec (h : runningRec s c = some r) : c ∈ s.chans.map (·.1) := by
  by_contra unlisted
  simp only [runningRec, chan_of_not_mem unlisted] at h
  exact nomatch h

theorem mem_chans_of_asksRead (h : asksRead s c = true) : c ∈ s.chans.map (·.1) := by
  cases rec : runningRec s c with
  | none => simp [asksRead, rec] at h
  | some r => exact mem_chans_of_runningRec rec

theorem keys_pairwise {α : Type} {m : SMap α} (h : mSorted m = true) : (m.map (·.1)).Pairwise (· < ·) := by
  induction m with
  | nil => exact .nil
  | cons x m ih =>
    obtain ⟨above, sorted⟩ := mSorted_cons.1 h
    exact List.pairwise_cons.2 ⟨List.forall_mem_map.2 above, ih sorted⟩

/-- The first elements of a rising list are its least. -/
theorem mem_take_of_lt {as : List Nat} (hs : as.Pairwise (· < ·)) (hc : c ∈ as.take n) (hd : d ∈ as) (h : d < c) :
    d ∈ as.take n := by
  rw [← List.take_append_drop n as] at hs hd
  rcases List.mem_append.1 hd with hd | hd
  · exact hd
  · exact absurd ((List.pairwise_append.1 hs).2.2 c hc d hd) (by omega)

theorem mem_asking (h : asksRead s c = true) : c ∈ (s.chans.map (·.1)).filter (asksRead s) :=
  List.mem_filter.2 ⟨mem_chans_of_asksRead h, h⟩

/-- Two reads are granted where a channel that asks is granted none. -/
theorem length_readGrants (h : asksRead s c = true) (hg : c ∉ readGrants s) : (readGrants s).length = 2 := by
  by_contra short
  refine hg ?_
  have few : ((s.chans.map (·.1)).filter (asksRead s)).length ≤ 2 := by
    simp only [readGrants, List.length_take] at short
    omega
  rw [readGrants, List.take_of_length_le few]
  exact mem_asking h

/-- Settles O42: a due trigger by the channel that it finds, a start by itself, an empty source by its skip, a frame by
its opening, and the grants as the first two of the channels that ask. -/
theorem avocetTriggersComplete : Obligations.AvocetTriggersComplete := by
  unfold Obligations.AvocetTriggersComplete
  intro s c hck hrun
  refine ⟨fun due => ?_, fun quiet start => ?_, fun skip => ?_,
    fun r f d rest hr hi hs hh => bytes_issueRead_listener hr hi hs hh,
    List.length_take_le .., fun asks ungranted => length_readGrants asks ungranted,
    fun sorted granted d lt asks => ?_⟩
  · obtain ⟨starts, early, pending, busy, overrun⟩ := serveTriggers_of_trigger due
    have runs := exec_avocetTrigger hck hrun (.inl due)
    have counter : frameCounter (ctrId 0x2A c.val 0) = false := frameCounter_chan (by decide)
    refine ⟨fun hw hp ha => ⟨_, runs, ?_⟩, fun a hw hp ha hlt => ⟨_, runs, ?_⟩, fun hw hp => ⟨_, runs, ?_⟩,
      fun hb => ⟨fun hp => ⟨_, runs, ?_⟩, fun hp => ⟨_, runs, ?_⟩⟩⟩ <;> rw [chan_publish]
    · exact starts hw hp (firstTriggerEarly_eq_false ha)
    · exact early hw hp (firstTriggerEarly_eq_true ha hlt)
    · obtain ⟨status, started, flag, counted⟩ := pending hw hp
      exact ⟨status, started, flag, counted.publish counter⟩
    · exact busy hb hp
    · exact ⟨(overrun hb hp).1, (overrun hb hp).2.publish counter⟩
  · refine ⟨_, exec_avocetTrigger hck hrun (.inr start), ?_⟩
    rw [chan_publish, serveTriggers_quiet quiet, startWhereDue_of_due start, chan_begin'_self]
    exact ⟨rfl, rfl, rfl⟩
  · obtain ⟨waits, counters⟩ := skipEmpty_skips skip
    exact ⟨waits, (countedBy_bump rfl).readCtr_keeps (congrFun (congrFun (congrFun counters _) _) _)⟩
  · exact mem_take_of_lt ((keys_pairwise sorted).filter _) granted (mem_asking asks) lt

end Sys2Proof.Machine
end

section
/-!
SUPPORT. Avocet's write groups (11 R257, R261), its completions (R251, R252, R260, R270), its bus errors (R265, R266),
and the age limits of what is held for it (12 R275, R277).
-/
namespace Sys2Proof.Machine

variable {s t u : State} {c d k v w i n : Nat} {r : DmaRec} {l : List Part} {b : Byte} {m : Bool} {bytes : List Byte}

/-! ### Where a byte lands (R257; 10 R236) -/

/-- What one element of a list makes of a state, and no element undoes, holds after the list. -/
theorem each_establishes {α : Type} {P Q : State → Prop} {op : α → State → State} {as : List α} {a : α} (ha : a ∈ as)
    (keeps : ∀ x u, P u → P (op x u)) (makes : ∀ u, P u → Q (op a u)) (stays : ∀ x u, P u → Q u → Q (op x u))
    (hs : P s) : Q (each as op s) := by
  obtain ⟨before, after, rfl⟩ := List.append_of_mem ha
  have split : each (before ++ a :: after) op s = each after op (op a (each before op s)) := by
    simp [each, List.foldl_append]
  have reached : P (each before op s) := each_invariant (fun x _ u => keeps x u) hs
  rw [split]
  exact (each_invariant (P := fun u => P u ∧ Q u) (fun x _ u ⟨p, q⟩ => ⟨keeps x u p, stays x u p q⟩)
    ⟨keeps a _ reached, makes _ reached⟩).2

theorem leNat_digit {bs : List Byte} (h : bs[i]? = some b) : leNat bs / 256 ^ i % 256 = b.toNat := by
  induction bs generalizing i with
  | nil => simp at h
  | cons x bs ih =>
    have low := x.isLt
    cases i with
    | zero =>
      obtain rfl : x = b := by simpa using h
      simp only [leNat, Nat.pow_zero, Nat.div_one]
      omega
    | succ i =>
      have rest : (x.toNat + 256 * leNat bs) / 256 = leNat bs := by omega
      rw [leNat, Nat.pow_succ', ← Nat.div_div_eq_div_mul, rest]
      exact ih (by simpa using h)

/-- A byte of the word that four bytes make. -/
theorem byteOf_leNat {bs : List Byte} (hl : bs.length = 4) (h : bs[i]? = some b) :
    byteOf (BitVec.ofNat 32 (leNat bs)) i = b := by
  have small : leNat bs < 2 ^ 32 := by
    have bound := leNat_lt (l := bs)
    rwa [hl] at bound
  apply BitVec.eq_of_toNat_eq
  rw [byteOf, BitVec.toNat_setWidth, BitVec.toNat_ushiftRight, BitVec.toNat_ofNat, Nat.mod_eq_of_lt small,
    Nat.shiftRight_eq_div_pow, Nat.pow_mul]
  exact leNat_digit h

/-- The byte that a landing from byte address `x` on brings to byte `i` of word `w`. -/
def landingByte (x : Nat) (bytes : List Byte) (w i : Nat) : Option Byte :=
  if x ≤ 4 * w + i then bytes[4 * w + i - x]? else none

/-- The word that a landing brings to word `w`. -/
def landingWord (x : Nat) (bytes : List Byte) (w : Nat) : Word :=
  BitVec.ofNat 32 (leNat ((List.range 4).map fun i => (landingByte x bytes w i).getD 0))

/-- The bytes of word `w` that a landing enables. -/
def landingMask (x : Nat) (bytes : List Byte) (w : Nat) : BitVec 4 :=
  BitVec.ofNat 4 (((List.range 4).map fun i => bitW (landingByte x bytes w i).isSome (2 ^ i)).sum)

theorem landImage_eq {x : Nat} : landImage x bytes m s =
    each (wordsOf x bytes.length) (fun w u => landWord w (landingWord x bytes w) (landingMask x bytes w) m u) s := rfl

theorem byteOf_landingWord {x : Nat} (hi : i < 4) (h : landingByte x bytes w i = some b) :
    byteOf (landingWord x bytes w) i = b :=
  byteOf_leNat (by simp) (by simp [hi, h])

theorem getLsbD_landingMask {x : Nat} (hi : i < 4) (h : landingByte x bytes w i = some b) :
    (landingMask x bytes w).getLsbD i = true := by
  have mask : ∀ p : Fin 4 → Bool, ∀ j : Fin 4, p j = true →
      (BitVec.ofNat 4 (bitW (p 0) 1 + (bitW (p 1) 2 + (bitW (p 2) 4 + bitW (p 3) 8)))).getLsbD j.val = true := by
    decide
  exact mask (fun j => (landingByte x bytes w j.val).isSome) ⟨i, hi⟩ (by simp [h])

theorem readByte_landWord_on {x : Word} {be : BitVec 4} (hi : i < 4) (hb : be.getLsbD i = true)
    (target : hardwareTarget s w = w) : readByte (landWord w x be m s) (4 * w + i) = byteOf x i := by
  simp only [landWord, target]
  split
  · exact readByte_writeWord_on hi hb
  · exact readByte_storeWord_on hi hb

/-- Outside banked regions a byte lands at its address. -/
theorem readByte_landImage_on {x : Nat} (targets : ∀ w, hardwareTarget s w = w) (h : bytes[i]? = some b) :
    readByte (landImage x bytes m s) (x + i) = b := by
  have inside : i < bytes.length := (List.getElem?_eq_some_iff.1 h).1
  have position : x + i = 4 * ((x + i) / 4) + (x + i) % 4 := by omega
  have low : (x + i) % 4 < 4 := Nat.mod_lt _ (by decide)
  have byte : landingByte x bytes ((x + i) / 4) ((x + i) % 4) = some b := by
    rw [landingByte, ← position, if_pos (by omega), Nat.add_sub_cancel_left, h]
  have touched : (x + i) / 4 ∈ wordsOf x bytes.length :=
    List.mem_map.2 ⟨(x + i) / 4 - x / 4, List.mem_range.2 (by rw [cdiv]; omega), by omega⟩
  have makes : ∀ u, (∀ w, hardwareTarget u w = w) → readByte (landWord ((x + i) / 4)
      (landingWord x bytes ((x + i) / 4)) (landingMask x bytes ((x + i) / 4)) m u) (x + i) = b := fun u hu => by
    have lands := (readByte_landWord_on (w := (x + i) / 4) (m := m) low (getLsbD_landingMask low byte) (hu _)).trans
      (byteOf_landingWord low byte)
    rwa [← position] at lands
  rw [landImage_eq]
  refine each_establishes (P := fun u => ∀ w, hardwareTarget u w = w) (Q := fun u => readByte u (x + i) = b) touched
    (fun y u hu j => (congrFun hardwareTarget_landWord j).trans (hu j)) makes (fun y u hu hq => ?_) targets
  by_cases same : (x + i) / 4 = y
  · exact same ▸ makes u hu
  · exact (readByte_landWord (by rwa [hu])).trans hq

theorem landGroup_lands (hr : runningRec s c = some r) (hg : groupDue s (chan s c) = true)
    (he : writeError s c r = none) : landGroup c s = landBytes c r (chan s c).landed (chan s c).wrote
      (setChan s c { chan s c with
        landed := (chan s c).wrote
        firstLand := if (chan s c).landed = 0 then s.now else (chan s c).firstLand }) := by
  simp only [landGroup, hr, hg, he, Bool.not_true, Bool.false_eq_true, ↓reduceIte]

/-- A write group to the image lands where its descriptor says, as the elements were read (R257, R261). -/
theorem readByte_landGroup_on (hr : runningRec s c = some r) (hs : r.dstSpace = 0)
    (hg : groupDue s (chan s c) = true) (he : writeError s c r = none) (targets : ∀ w, hardwareTarget s w = w)
    (lo : (chan s c).landed ≤ i) (hi : i < (chan s c).wrote) (hb : (chan s c).bytes[i]? = some b) :
    readByte (landGroup c s) (r.dst % 2 ^ 18 + i) = b := by
  have position : r.dst % 2 ^ 18 + i = r.dst % 2 ^ 18 + (chan s c).landed + (i - (chan s c).landed) := by omega
  have byte : (slice (chan s c).bytes (chan s c).landed ((chan s c).wrote - (chan s c).landed))[i - (chan s c).landed]? =
      some b := by
    rw [slice, List.getElem?_take_of_lt (by omega), List.getElem?_drop, Nat.add_sub_cancel' lo, hb]
  simp only [landGroup_lands hr hg he, landBytes, hs, chan_setChan, ↓reduceIte, position]
  exact readByte_landImage_on (fun w => by rw [hardwareTarget_setChan, targets]) byte

/-! ### What a landing and a completion leave of a channel -/

/-- What the course of a transfer leaves: status, descriptors, pending trigger, and the half completion. -/
def courseOf (x : ChanSt) : ChanStatus × Option (Nat × DmaRec) × Option (Nat × DmaRec) × Bool × Bool :=
  (x.status, x.active, x.shadow, x.pendingFlag, x.halfDone)

/-- The course of every channel's transfer. -/
def courses (s : State) : Nat → ChanStatus × Option (Nat × DmaRec) × Option (Nat × DmaRec) × Bool × Bool :=
  fun c => courseOf (chan s c)

theorem courses_of_sameBut (h : SameBut l s t) (hl : .chans ∉ l) : courses t = courses s := by
  funext c
  simp only [courses, chan_of_sameBut h hl]

theorem courses_setChan {x : ChanSt} (h : courseOf x = courses s c) : courses (setChan s c x) = courses s := by
  funext j
  simp only [courses, chan_setChan]
  split
  next same => rw [same]; exact h
  · rfl

theorem runningRec_of_courses (h : courses t = courses s) : runningRec t c = runningRec s c := by
  have course := congrFun h c
  simp only [courses, courseOf, Prod.mk.injEq] at course
  obtain ⟨status, active, -⟩ := course
  simp only [runningRec, status, active]

theorem status_of_runningRec (h : runningRec s c = some r) : (chan s c).status = .busy := by
  cases status : (chan s c).status <;> simp [runningRec, status] at h ⊢

theorem courses_fireChan {f : DmaRec → Bool} : courses (fireChan f c s) = courses s := by
  simp only [fireChan, whenB]
  (repeat' split) <;> first | rfl | exact courses_setChan rfl

theorem courses_fire {f : DmaRec → Bool} : courses (fire f s) = courses s := each_keeps fun _ _ => courses_fireChan

theorem courses_openBuffer {q : Nat} : courses (openBuffer c q s) = courses s := by
  simp only [openBuffer]
  split
  · split
    · rfl
    split
    · exact courses_of_sameBut (l := [.streams, .rxCells, .counters]) (by simp) (by decide)
    · exact courses_setChan rfl
  · rfl

theorem courses_writePayload {q off : Nat} {stale : Bool} :
    courses (writePayload q off bytes stale s) = courses s := courses_of_sameBut (l := [.streams]) (by simp) (by decide)

theorem courses_commitFrame {q : Nat} : courses (commitFrame q s) = courses s :=
  courses_of_sameBut (l := [.streams, .counters]) (by simp) (by decide)

theorem courses_landStreams {x : Nat} {stale : List Bool} : courses (landStreams c r x bytes stale s) = courses s :=
  each_keeps fun i u => by
    simp only
    (repeat' split) <;> simp only [courses_commitFrame, courses_writePayload, courses_openBuffer]

theorem courses_landBytes {x hi : Nat} : courses (landBytes c r x hi s) = courses s := by
  simp only [landBytes]
  split
  · exact courses_of_sameBut (l := [.mem, .upsets, .hwWrote, .hostWords, .counters, .faults]) (by simp) (by decide)
  · exact courses_landStreams
  · exact courses_of_sameBut (l := [.vcs, .pairs, .counters]) (by simp) (by decide)

theorem courses_landGroup : courses (landGroup c s) = courses s := by
  simp only [landGroup]
  split
  · split
    · rfl
    split
    · exact courses_landBytes.trans (courses_setChan rfl)
    · exact courses_landBytes
    · rfl
  · rfl

theorem runningRec_landGroup : runningRec (landGroup c s) d = runningRec s d := runningRec_of_courses courses_landGroup

/-! ### Completions (R251, R252, R260, R270) -/

theorem station_reportFrame {half : Nat} : (reportFrame c half s).station = s.station := by
  simp only [reportFrame, whenB]
  refine unheard_sendEvent.2.trans ?_
  split <;> rfl

theorem courses_reportFrame {half : Nat} : courses (reportFrame c half s) = courses s :=
  courses_of_sameBut (l := [.counters]) (by simp) (by decide)

/-- A channel's own flag is set. -/
theorem getLsbD_or_own {x : BitVec 64} (c : Chan) : (x ||| (1 <<< c.val : Nat)).getLsbD c.val = true := by
  have own : ((1 <<< c.val : Nat) : BitVec 64).getLsbD c.val = true := by
    revert c
    decide
  rw [BitVec.getLsbD_or, own, Bool.or_true]

/-- What a completion shows: its flags, where they are to show, and its event frame (R260). -/
def showCompletion (flag frame : Bool) (events : Word) (half full : BitVec 64) (c kind : Nat) (s : State) : State :=
  if frame then reportFrame c kind (if flag then raiseFlags events half full 0 s else s)
  else if flag then raiseFlags events half full 0 s else s

section
variable {flag frame : Bool} {events : Word} {half full : BitVec 64} {kind : Nat}

theorem courses_showCompletion : courses (showCompletion flag frame events half full c kind s) = courses s := by
  have flagged : courses (if flag then raiseFlags events half full 0 s else s) = courses s := by
    split <;> rfl
  simp only [showCompletion]
  split
  · exact courses_reportFrame.trans flagged
  · exact flagged

/-- The flags that are to show are set. -/
theorem flags_showCompletion :
    (showCompletion true frame events half full c kind s).station.chHalf = s.station.chHalf ||| half ∧
      (showCompletion true frame events half full c kind s).station.chFull = s.station.chFull ||| full := by
  simp only [showCompletion, ↓reduceIte]
  split
  · rw [station_reportFrame]
    exact ⟨rfl, rfl⟩
  · exact ⟨rfl, rfl⟩

end

theorem completeHalf_eq : completeHalf c r s = showCompletion (r.half && r.patn) (r.half && r.hidEvent) 2 (1 <<< c) 0 c 0
    (fire (fun d => d.trig == 2 && d.arg == c) s) := rfl

theorem completeFull_eq : completeFull c r s = showCompletion (r.full && r.patn) (r.full && r.hidEvent) 4 0 (1 <<< c) c 1
    (fire (fun d => d.trig == 3 && d.arg == c) s) := rfl

theorem courses_completeHalf : courses (completeHalf c r s) = courses s := by
  rw [completeHalf_eq, courses_showCompletion, courses_fire]

theorem courses_completeFull : courses (completeFull c r s) = courses s := by
  rw [completeFull_eq, courses_showCompletion, courses_fire]

/-- A half completion that is to show in CHHALF sets its flag (R260). -/
theorem chHalf_completeHalf {c : Chan} (hh : r.half = true) (hp : r.patn = true) :
    (completeHalf c.val r s).station.chHalf.getLsbD c.val = true := by
  rw [completeHalf_eq, hh, hp, Bool.and_true, flags_showCompletion.1]
  exact getLsbD_or_own c

/-- A full completion that is to show in CHFULL sets its flag (R260). -/
theorem chFull_completeFull {c : Chan} (hf : r.full = true) (hp : r.patn = true) :
    (completeFull c.val r s).station.chFull.getLsbD c.val = true := by
  rw [completeFull_eq, hf, hp, Bool.and_true, flags_showCompletion.2]
  exact getLsbD_or_own c

/-- A half completion by its channel and its flag. -/
theorem halfCompletion_landGroup {c : Chan} (hr : runningRec s c.val = some r) :
    (chan (halfCompletion c.val (landGroup c.val s)) c.val).halfDone = true ∧
      (chan (halfCompletion c.val (landGroup c.val s)) c.val).status = .busy ∧
      (r.half = true → r.patn = true →
        (halfCompletion c.val (landGroup c.val s)).station.chHalf.getLsbD c.val = true) := by
  have running : runningRec (landGroup c.val s) c.val = some r := runningRec_landGroup.trans hr
  have completes : halfCompletion c.val (landGroup c.val s) = completeHalf c.val r (setChan (landGroup c.val s) c.val
      { chan (landGroup c.val s) c.val with halfDone := true }) := by
    simp only [halfCompletion, running]
  have course := congrFun (courses_completeHalf (c := c.val) (r := r) (s := setChan (landGroup c.val s) c.val
      { chan (landGroup c.val s) c.val with halfDone := true })) c.val
  simp only [courses, courseOf, chan_setChan, ↓reduceIte, Prod.mk.injEq] at course
  obtain ⟨status, -, -, -, halfDone⟩ := course
  rw [completes]
  exact ⟨halfDone, status.trans (status_of_runningRec running), fun hh hp => chHalf_completeHalf hh hp⟩

/-- What a full completion does before its channel goes on: the destination fed, the source consumed, the flags set. -/
def fullEffects (c : Nat) (r : DmaRec) (s : State) : State :=
  completeFull c r (if srcTakes r then consumeSource c r (feedRegion c r s) else feedRegion c r s)

theorem courses_fullEffects : courses (fullEffects c r s) = courses s := by
  refine courses_completeFull.trans (courses_of_sameBut
    (l := [.regions, .inputs, .streams, .rxCells, .listeners, .vcs]) ?_ (by decide))
  split <;> simp

theorem now_fullEffects : (fullEffects c r s).now = s.now :=
  now_of_sameBut (l := [.regions, .inputs, .streams, .rxCells, .listeners, .vcs, .chans, .counters])
    (by simp [fullEffects]) (by decide)

/-- The next descriptor of a channel becomes active in the ck after (R251, R252, R270). -/
theorem chan_nextTransfer : ((chan s c).shadow = none → (chan (nextTransfer c s) c).status = .idle) ∧
    ∀ x, (chan s c).shadow = some x → (chan (nextTransfer c s) c).status = .waiting ∧
      (chan (nextTransfer c s) c).active = some x ∧ (chan (nextTransfer c s) c).activeFrom = s.now + 1 ∧
      (chan (nextTransfer c s) c).startsNow = (x.2.trig == 0) ∧
      (chan (nextTransfer c s) c).pendingFlag = (chan s c).pendingFlag := by
  refine ⟨fun shadow => ?_, fun x shadow => ?_⟩
  · simp [nextTransfer, shadow, ChanSt.init]
  · simp [nextTransfer, shadow, activate]

/-- A full completion by its flag and its channel's next descriptor. -/
theorem fullCompletion_landGroup {c : Chan} (hr : runningRec s c.val = some r) (t : State)
    (ht : t = fullCompletion c.val (landGroup c.val s)) :
    (r.full = true → r.patn = true → t.station.chFull.getLsbD c.val = true) ∧
      ((chan s c.val).shadow = none → (chan t c.val).status = .idle) ∧
      ∀ x, (chan s c.val).shadow = some x → (chan t c.val).status = .waiting ∧ (chan t c.val).active = some x ∧
        (chan t c.val).activeFrom = s.now + 1 ∧ (chan t c.val).startsNow = (x.2.trig == 0) ∧
        (chan t c.val).pendingFlag = (chan s c.val).pendingFlag := by
  have running : runningRec (landGroup c.val s) c.val = some r := runningRec_landGroup.trans hr
  have completes : t = nextTransfer c.val (fullEffects c.val r (landGroup c.val s)) := by
    rw [ht]
    simp only [fullCompletion, running]
    rfl
  have now : (fullEffects c.val r (landGroup c.val s)).now = s.now := now_fullEffects.trans
    (now_of_sameBut (l := [.mem, .upsets, .hwWrote, .hostWords, .streams, .rxCells, .vcs, .pairs, .chans, .counters,
      .faults]) (by simp) (by decide))
  have course := congrFun ((courses_fullEffects (c := c.val) (r := r) (s := landGroup c.val s)).trans
    courses_landGroup) c.val
  simp only [courses, courseOf, Prod.mk.injEq] at course
  obtain ⟨-, -, shadow, pending, -⟩ := course
  have next := chan_nextTransfer (s := fullEffects c.val r (landGroup c.val s)) (c := c.val)
  rw [shadow, pending, now, ← completes] at next
  refine ⟨fun hf hp => ?_, next⟩
  rw [completes]
  exact chFull_completeFull hf hp

/-! ### Bus errors (R265, R266) -/

/-- A stopped channel keeps its descriptor and the next one. -/
def stoppedChan (x : ChanSt) : ChanSt := { ChanSt.init with
  status := if x.status = .idle then .idle else .stopped, active := x.active, shadow := x.shadow }

/-- A channel stops once its triggers are counted as lost, but a doorbell. -/
theorem stopChannel_stops : ∃ u, stopChannel d s = setChan u d (stoppedChan (chan s d)) ∧ chan u = chan s ∧
    readCtr u 0x20 0 30 = readCtr s 0x20 0 30 := by
  simp only [stopChannel, beq_iff_eq]
  refine ⟨_, rfl, ?_, ?_⟩
  · (repeat' split) <;> rfl
  · (repeat' split)
    · rfl
    · exact readCtr_bumpBy_other (m := 1) (by decide)
    · exact nomatch ‹false = true›
    · exact readCtr_bumpBy_other (m := 1) (by decide)

theorem chan_stopChannel : chan (stopChannel d s) c = if c = d then stoppedChan (chan s c) else chan s c := by
  obtain ⟨u, stops, chans, -⟩ := stopChannel_stops (s := s) (d := d)
  rw [stops, chan_setChan, chans]
  split
  next same => rw [same]
  · rfl

theorem stoppedChan_stoppedChan {x : ChanSt} : stoppedChan (stoppedChan x) = stoppedChan x := by
  by_cases idle : x.status = .idle <;> simp [stoppedChan, idle]

theorem chan_each_stopChannel {cs : List Nat} : chan (each cs stopChannel s) c =
    if c ∈ cs then stoppedChan (chan s c) else chan s c := by
  unfold each
  induction cs generalizing s with
  | nil => rfl
  | cons d cs ih =>
    rw [List.foldl_cons, ih, chan_stopChannel]
    by_cases first : c = d <;> by_cases later : c ∈ cs <;> simp [first, later, stoppedChan_stoppedChan]

/-- The channels that meet a bus error, each with its error. -/
def busErrors (s : State) : List (Nat × BusCause × Nat × Nat) :=
  (s.chans.map (·.1)).filterMap fun c => (busError s c).map fun e => (c, e)

/-- The state once assemblies and what an error holds are discarded, before the channels stop. -/
def contained (s : State) : State := each ((busErrors s).map (·.1)) containError (discardAssemblies s)

/-- The channels stopped, and the stop counted (R266). -/
def halted (s : State) : State :=
  bumpDev 30 { each (s.chans.map (·.1)) stopChannel (contained s) with
    avocet := { (each (s.chans.map (·.1)) stopChannel (contained s)).avocet with
      running := false, stopped := true, errNow := true } }

/-- A bus error is logged with its cause (R266). -/
def logBusError (e : Nat × BusCause × Nat × Nat) (s : State) : State :=
  logFault 0x50 e.1 (e.1 + busCode e.2.1 * 64 + e.2.2.1 * 256 + e.2.2.2 % 2 ^ 32 * 65536) s

theorem stopAvocet_eq : stopAvocet s = each (busErrors s) logBusError (halted s) := rfl

theorem sameBut_stopAvocet_halted : SameBut [.faults] (halted s) (stopAvocet s) := by
  rw [stopAvocet_eq]
  exact (same_each fun _ _ => by simp [logBusError]).2 SameBut.refl

theorem mem_busErrors {e : BusCause × Nat × Nat} (h : busError s c = some e) : (c, e) ∈ busErrors s := by
  have running : ∃ r, runningRec s c = some r := by
    cases rec : runningRec s c with
    | none => simp [busError, rec] at h
    | some r => exact ⟨r, rfl⟩
  obtain ⟨r, running⟩ := running
  exact List.mem_filterMap.2 ⟨c, mem_chans_of_runningRec running, by simp [h]⟩

/-- Every channel stops with its descriptor and the next one (R266). -/
theorem chan_stopAvocet : chan (stopAvocet s) c = stoppedChan (chan s c) := by
  have before : SameBut [.mem, .upsets, .hostWords, .inputs, .streams, .rxCells, .listeners, .vcs, .avocet, .counters,
      .faults] s (contained s) := by simp [contained]
  rw [chan_of_sameBut sameBut_stopAvocet_halted (by decide)]
  have stops : chan (halted s) c = chan (each (s.chans.map (·.1)) stopChannel (contained s)) c := by
    simp only [halted, bumpDev_subs]
    rfl
  rw [stops, chan_each_stopChannel, chan_of_sameBut before (by decide)]
  split
  · rfl
  next unlisted =>
    rw [chan_of_not_mem unlisted]
    rfl

/-! What an error leaves behind. -/

/-- A word of the image in error is rewritten, and kept for the boundary that clears it. -/
def containWord (w : Nat) (s : State) : State :=
  { judgeImage w s with avocet := { s.avocet with faultWords := s.avocet.faultWords ++ [w] } }

/-- What an error leaves behind: words of the image contained, or the frame or message in error discarded. -/
theorem containError_cases : containError c s = s ∨ (∃ ws, containError c s = each ws containWord s) ∨
    ∃ r ws code, containError c s = consumeSource c r
      (each ws (fun w u => clearUpset (sourceMemory r) 0 w (logFault code 0 (8 * w) u)) s) := by
  simp only [containError]
  split
  · exact .inl rfl
  split
  · exact .inl rfl
  split
  · exact .inr (.inl ⟨_, rfl⟩)
  · exact .inr (.inr ⟨_, _, _, rfl⟩)

/-! Open frame buffers. -/

/-- The frame buffers under assembly. -/
def assemblies (s : State) : Nat → Option OpenBuffer := fun q => (stream s q).assembly

theorem assemblies_of_sameBut (h : SameBut l s t) (hl : .streams ∉ l) : assemblies t = assemblies s := by
  have streams : s.streams = t.streams := h .streams hl
  funext q
  simp only [assemblies, stream, streams]

/-- What a change of every stream makes of the buffers. -/
theorem assemblies_map {f : StreamSt → StreamSt} {q : Nat} (ht : t.streams = s.streams.map fun e => (e.1, f e.2)) :
    assemblies t q = (((mFind s.streams q).map f).getD StreamSt.init).assembly := by
  simp only [assemblies, stream, mGetD, ht, mFind_map]

theorem assemblies_orphanTunnel : assemblies (orphanTunnel k s) = assemblies s := by
  funext q
  rw [assemblies_map (s := s) (f := fun x => { x with tunnels := mErase x.tunnels k }) rfl, assemblies, stream, mGetD]
  cases mFind s.streams q <;> rfl

theorem assemblies_discardMsg : assemblies (discardMsg k v i s) = assemblies s := by
  have freed : ∀ y u, assemblies (freeMsg k v y u) = assemblies u := fun y u =>
    assemblies_of_sameBut (l := [.vcs]) (by simp) (by decide)
  simp only [discardMsg]
  split
  · exact freed _ _
  split
  · rw [freed, whenB]
    split
    · exact assemblies_orphanTunnel
    · rfl
  · rfl

theorem assemblies_consumeSource : assemblies (consumeSource c r s) = assemblies s := by
  simp only [consumeSource]
  split
  · exact assemblies_of_sameBut (l := [.rxCells, .listeners]) (by simp) (by decide)
  · split
    · exact assemblies_discardMsg
    · rfl
  · exact assemblies_of_sameBut (l := [.inputs]) (by simp) (by decide)
  · rfl

theorem assemblies_containError : assemblies (containError c s) = assemblies s := by
  rcases containError_cases (c := c) (s := s) with same | ⟨ws, words⟩ | ⟨r, ws, code, held⟩
  · rw [same]
  · rw [words]
    exact each_keeps fun w u =>
      assemblies_of_sameBut (l := [.mem, .upsets, .hostWords, .avocet, .counters, .faults]) (by simp [containWord])
        (by decide)
  · rw [held]
    exact assemblies_consumeSource.trans (assemblies_of_sameBut (l := [.upsets, .faults]) (by simp) (by decide))

theorem assemblies_discardAssemblies : assemblies (discardAssemblies s) = fun _ => none := by
  funext q
  rw [assemblies_map (s := s) (f := fun x => { x with assembly := none }) rfl]
  cases mFind s.streams q <;> rfl

/-- A stop leaves no frame buffer open (R266). -/
theorem assemblies_stopAvocet : assemblies (stopAvocet s) = fun _ => none := by
  have discarded : assemblies (contained s) = fun _ => none :=
    (each_keeps fun _ _ => assemblies_containError).trans assemblies_discardAssemblies
  have stops : SameBut [.chans, .avocet, .counters] (contained s) (halted s) := by simp [halted]
  rw [assemblies_of_sameBut sameBut_stopAvocet_halted (by decide), assemblies_of_sameBut stops (by decide), discarded]

/-! The stop's count and its entries. -/

theorem readCtr_judgeImage : readCtr (judgeImage w s) 0x20 0 30 = readCtr s 0x20 0 30 := by
  have stored : ∀ u, readCtr (setSram w 0 u) 0x20 0 30 = readCtr u 0x20 0 30 := fun u =>
    readCtr_of_sameBut (l := [.mem, .hostWords]) (by simp) (by decide) (by decide)
  simp only [judgeImage]
  split
  · rw [stored]
    exact readCtr_bumpDev_other (s := logFault 0x23 0 (4 * w) s) (n := 24) (by decide)
  · exact readCtr_of_sameBut (l := [.upsets, .faults]) (by simp) (by decide) (by decide)

theorem readCtr_containError : readCtr (containError c s) 0x20 0 30 = readCtr s 0x20 0 30 := by
  rcases containError_cases (c := c) (s := s) with same | ⟨ws, words⟩ | ⟨r, ws, code, held⟩
  · rw [same]
  · rw [words]
    exact each_keeps (g := fun u => readCtr u 0x20 0 30) (op := containWord) fun _ _ => readCtr_judgeImage
  · rw [held]
    exact readCtr_of_sameBut (l := [.inputs, .upsets, .streams, .rxCells, .listeners, .vcs, .faults]) (by simp)
      (by decide) (by decide)

theorem readCtr_stopChannel : readCtr (stopChannel c s) 0x20 0 30 = readCtr s 0x20 0 30 := by
  obtain ⟨u, stops, -, counter⟩ := stopChannel_stops (s := s) (d := c)
  simp only [stops, setChan_subs, counter]

/-- A stop is counted once, whatever the errors of its ck (R266). -/
theorem countedBy_stopAvocet : CountedBy 1 0x20 0 30 s (stopAvocet s) := by
  have discarded : readCtr (discardAssemblies s) 0x20 0 30 = readCtr s 0x20 0 30 := readCtr_bumpBy_other (by decide)
  have before : readCtr (contained s) 0x20 0 30 = readCtr s 0x20 0 30 :=
    (each_keeps (g := fun u => readCtr u 0x20 0 30) fun _ _ => readCtr_containError).trans discarded
  have stops : readCtr (each (s.chans.map (·.1)) stopChannel (contained s)) 0x20 0 30 = readCtr s 0x20 0 30 :=
    (each_keeps (g := fun u => readCtr u 0x20 0 30) fun _ _ => readCtr_stopChannel).trans before
  have counted : CountedBy 1 0x20 0 30 s (halted s) := countedBy_bumpDev_of_readCtr stops
  exact counted.of_sameBut sameBut_stopAvocet_halted (by decide) (by decide)

/-- The fault-log entries that wait. -/
def waitingEntries (s : State) : Nat := s.faults.waiting.length

theorem waitingEntries_of_sameBut (h : SameBut l s t) (hl : .faults ∉ l) : waitingEntries t = waitingEntries s := by
  have faults : s.faults = t.faults := h .faults hl
  rw [waitingEntries, waitingEntries, faults]

theorem waitingEntries_logFault {code subject detail : Nat} :
    waitingEntries (logFault code subject detail s) = waitingEntries s + 1 := by
  simp [waitingEntries]

theorem waitingEntries_judgeImage : waitingEntries s ≤ waitingEntries (judgeImage w s) := by
  simp only [judgeImage]
  split
  · have stored : waitingEntries (setSram w 0 (clearUpset .processImage 0 w (noteImageError w s))) =
        waitingEntries (logFault 0x23 0 (4 * w) s) :=
      waitingEntries_of_sameBut (l := [.mem, .upsets, .hostWords, .counters]) (by simp [noteImageError]) (by decide)
    rw [stored, waitingEntries_logFault]
    omega
  · simp only [correctWord]
    split <;> rfl

/-- What contains an error takes no entry from the log. -/
theorem waitingEntries_containError : waitingEntries s ≤ waitingEntries (containError c s) := by
  rcases containError_cases (c := c) (s := s) with same | ⟨ws, words⟩ | ⟨r, ws, code, held⟩
  · rw [same]
  · rw [words]
    exact each_invariant (P := fun u => waitingEntries s ≤ waitingEntries u)
      (fun _ _ u hu => hu.trans waitingEntries_judgeImage) le_rfl
  · rw [held, waitingEntries_of_sameBut (l := [.inputs, .streams, .rxCells, .listeners, .vcs])
      (same_consumeSource (by simp) |>.2 SameBut.refl) (by decide)]
    refine each_invariant (P := fun u => waitingEntries s ≤ waitingEntries u) (fun w _ u hu => hu.trans ?_) le_rfl
    exact (Nat.le_succ _).trans_eq waitingEntries_logFault.symm

theorem waitingEntries_each_logBusError {es : List (Nat × BusCause × Nat × Nat)} :
    waitingEntries (each es logBusError s) = waitingEntries s + es.length := by
  unfold each
  induction es generalizing s with
  | nil => rfl
  | cons e es ih =>
    rw [List.foldl_cons, ih, logBusError, waitingEntries_logFault, List.length_cons]
    omega

/-- A stop logs each error of its ck (R266). -/
theorem waitingEntries_stopAvocet {e : BusCause × Nat × Nat} (h : busError s c = some e) :
    waitingEntries s < waitingEntries (stopAvocet s) := by
  have contains : waitingEntries s ≤ waitingEntries (contained s) :=
    each_invariant (P := fun u => waitingEntries s ≤ waitingEntries u)
      (fun _ _ u hu => hu.trans waitingEntries_containError) le_rfl
  have stops : SameBut [.chans, .avocet, .counters] (contained s) (halted s) := by simp [halted]
  have some : 0 < (busErrors s).length := List.length_pos_of_mem (mem_busErrors h)
  rw [stopAvocet_eq, waitingEntries_each_logBusError, waitingEntries_of_sameBut stops (by decide)]
  omega

theorem avocet_stopAvocet : (stopAvocet s).avocet.running = false ∧ (stopAvocet s).avocet.stopped = true := by
  have avocet : (halted s).avocet = (stopAvocet s).avocet := sameBut_stopAvocet_halted .avocet (by decide)
  rw [← avocet]
  exact ⟨rfl, rfl⟩

/-! ### Age limits (12 R275, R277) -/

theorem listenAge_ages {f : Frame} {rest : List (Frame × Nat)} (hh : (listener s d).held = (f, n) :: rest)
    (hn : n ≤ s.now) : listenAged s d = true ∧ (listener (listenAge d s) d).held = rest ∧
      CountedBy 1 0x2D d 10 s (listenAge d s) := by
  have aged : listenAged s d = true := by simp [listenAged, hh, hn]
  have ages : listenAge d s = bumpListen d 10 (freeCells f.account f.cells (setListener s d
      { listener s d with held := rest })) := by
    simp only [listenAge, aged, hh, Bool.not_true, Bool.false_eq_true, ↓reduceIte]
  have held : listener (freeCells f.account f.cells (setListener s d { listener s d with held := rest })) =
      listener (setListener s d { listener s d with held := rest }) :=
    listener_of_sameBut (l := [.rxCells]) (by simp) (by decide)
  refine ⟨aged, ?_, ?_⟩
  · simp [ages, held]
  · rw [ages]
    exact countedBy_bump (congrFun (congrFun (congrFun freeCells_leaves.2.1 _) _) _)

/-- Freeing a message's credit leaves the messages of every VC. -/
theorem rxMsgs_freeMsg {x : Msg} {j y : Nat} : (vc (freeMsg k v x s) j y).rxMsgs = (vc s j y).rxMsgs := by
  have units : ∀ k n u, (vc (freeUnits k v n u) j y).rxMsgs = (vc u j y).rxMsgs := fun k n u => by
    simp only [freeUnits, vc_setVc]
    split
    next same => simp only [vc, same]
    · rfl
  simp only [freeMsg, whenB]
  (repeat' split) <;> simp only [units]

theorem poolAge_ages {x : Msg} (ha : agedMessage s k v = some i) (hx : (vc s k v).rxMsgs[i]? = some x) :
    (vc (poolAge k v s) k v).rxMsgs = (vc s k v).rxMsgs.eraseIdx i ∧
      CountedBy 1 0x28 (8 * k + v) 6 s (poolAge k v s) := by
  have ages : poolAge k v s = bumpVc k v 6 (freeMsg k v x (setVc s k v { vc s k v with
      rxMsgs := (vc s k v).rxMsgs.eraseIdx i })) := by
    simp only [poolAge, ha, discardMsg, hx]
  have counters : ∀ u, readCtr (freeMsg k v x u) = readCtr u := fun u => by
    simp only [freeMsg, whenB, freeUnits]
    (repeat' split) <;> rfl
  rw [ages]
  refine ⟨?_, countedBy_bump (by rw [counters]; rfl)⟩
  simp [rxMsgs_freeMsg]

/-- Settles O43: a write group by where its bytes land, each completion by its flag and its channel, a bus error by the
stop, and each age limit by its discard. -/
theorem avocetCompletionsComplete : Obligations.AvocetCompletionsComplete := by
  unfold Obligations.AvocetCompletionsComplete
  intro s hck
  refine ⟨?_, fun c e hrun he => ?_, fun d f n rest hh hn => ?_, fun k v i x ha hx => ?_⟩
  · rintro c r _ hrun hr rfl
    refine ⟨fun hs hg he targets _ i b lo hi hb => readByte_landGroup_on hr hs hg he targets lo hi hb,
      fun due => ?_, fun due => ?_⟩
    · have half := halfCompletion_landGroup hr
      simp only [exec, execAvocetHalfCompletion]
      refine ⟨_, act_on (by simp [hck, hrun, due]), ?_⟩
      rwa [chan_publish, flags_publish.2.1]
    · have full := fullCompletion_landGroup hr _ rfl
      simp only [exec, execAvocetFullCompletion]
      refine ⟨_, act_on (by simp [hck, hrun, due]), ?_⟩
      rwa [chan_publish, flags_publish.2.2.1]
  · obtain ⟨running, stopped⟩ := avocet_stopAvocet (s := s)
    simp only [exec, execAvocetBusError]
    refine ⟨_, act_on (by simp [hck, hrun, he]), ?_⟩
    simp only [publish_fields, publish_subs]
    exact ⟨running, stopped, fun d => chan_stopAvocet, fun q => congrFun assemblies_stopAvocet q,
      countedBy_stopAvocet.publish (by decide), waitingEntries_stopAvocet he⟩
  · obtain ⟨aged, held, counted⟩ := listenAge_ages hh hn
    simp only [exec, execListenAgeDiscard]
    refine ⟨_, act_on (by simp [hck, aged]), ?_, ?_⟩
    · simpa only [publish_subs] using held
    · exact counted.publish (frameCounter_other (by decide) (by decide) (by omega) (by decide))
  · obtain ⟨messages, counted⟩ := poolAge_ages ha hx
    simp only [exec, execLanepoolAgeDiscard]
    refine ⟨_, act_on (by simp [hck, ha]), ?_, ?_⟩
    · simpa only [publish_subs] using messages
    · exact counted.publish (frameCounter_other (by decide) (by decide) (by omega) (by decide))

end Sys2Proof.Machine
end

section
/-!
SUPPORT. The step, the queue of waiting commands, and what a frozen device still takes (17 R348, R349, R352).
-/
namespace Sys2Proof.Machine

variable {s t : State}

/-! ### The queue -/

/-- Settles O1: a step matches on the queue. -/
theorem stepRunsFrontCommand : Obligations.StepRunsFrontCommand := by
  unfold Obligations.StepRunsFrontCommand
  intro s c rest h
  simp only [step, h]

theorem pending_notMem_writes (c : Instr) : .pending ∉ writes c := by
  cases c <;> simp [writes, everyPart]

/-- Settles O3: the queue is a part that no command writes. -/
theorem commandsLeaveTheQueue : Obligations.CommandsLeaveTheQueue := by
  unfold Obligations.CommandsLeaveTheQueue
  intro c s t h
  have queue : s.pending = t.pending := exec_frame h .pending (pending_notMem_writes c)
  exact queue.symm

/-! ### A device that does not run takes only what `whileFrozen` lists, by family -/

section
variable {c : Instr} (h : running s = false) (hc : whileFrozen c = false)
include h hc

theorem exec_stopped_supply (hf : familyOf c = .supply) : exec c s = .next s := by
  cases c
  case powerOn | railBrownOut | railsInRegulation | resetN | vinUndervoltage | resetRelease | xinLoss |
    thermalShutdown | vinRestart => nomatch hc
  case srefclkFault | srefclkRecovery | bankBrownOut | bankBrownOutRecovery | overtemperature | dcqFault =>
    simp only [exec, execSrefclkFault, execSrefclkRecovery, execBankBrownOut, execBankBrownOutRecovery,
      execOvertemperature, execDcqFault]
    exact act_off (by simp [h, ckRuns])
  all_goals nomatch hf

theorem exec_stopped_boot (hf : familyOf c = .boot) : exec c s = .next s := by
  cases c
  case ladderReading | corePllLock | processImageClearDone | otpReadDone | jedecIdReadDone | slotCheckDone |
    configDone | localTimeout | heronStart =>
    simp only [exec, execLadderReading, execCorePllLock, execProcessImageClearDone, execOtpReadDone,
      execJedecIdReadDone, execSlotCheckDone, execConfigDone, execLocalTimeout, execHeronStart]
    exact act_off (by simp [h])
  all_goals nomatch hf

theorem exec_stopped_time (hf : familyOf c = .time) : exec c s = .next s := by
  cases c
  case syncReceived | syncLossTimeout | alignmentComplete | announceReceived | pdelayReqSend | pdelayReceived |
    signalingReceived | ppsOutPulse | ppsOutPulseEnd | timeInputEdge | serdesLatencyRemeasure | timeBlockSend |
    echoReceived | echoMissing | dunlinSecondsWrap =>
    simp only [exec, execSyncReceived, execSyncLossTimeout, execAlignmentComplete, execAnnounceReceived,
      execPdelayReqSend, execPdelayReceived, execSignalingReceived, execPpsOutPulse, execPpsOutPulseEnd,
      execTimeInputEdge, execSerdesLatencyRemeasure, execTimeBlockSend, execEchoReceived, execEchoMissing,
      execDunlinSecondsWrap]
    exact act_off (by simp [h, ckRuns, serdesRun])
  all_goals nomatch hf

theorem exec_stopped_heron (hf : familyOf c = .heron) : exec c s = .next s := by
  cases c
  case cycleBoundary | gateEntry | heronEvent | heronVote =>
    simp only [exec, execCycleBoundary, execGateEntry, execHeronEvent, execHeronVote]
    exact act_off (by simp [h, ckRuns])
  all_goals nomatch hf

theorem exec_stopped_wheel (hf : familyOf c = .wheel) : exec c s = .next s := by
  cases c
  case wheelSlot | coarseSlot | deadlineExpiry | transmitSelection | transmitComplete =>
    simp only [exec, execWheelSlot, execCoarseSlot, execDeadlineExpiry, execTransmitSelection, execTransmitComplete]
    exact act_off (by simp [h, ckRuns])
  all_goals nomatch hf

theorem exec_stopped_ethernet (hf : familyOf c = .ethernet) : exec c s = .next s := by
  cases c
  case frameReceive | recoveryResetTimeout | pfcReceived | macControlIgnored | pauseExpiry | pfcSend | pfcRefresh |
    verifyTimer | verifyMpacketReceived | mpacketReceived | portDown | portUp | linkUpHoldEnd | sgmiiInbandWord |
    phyPoll | phyRestart | ctUnderrun | tunnelFcsError | tunnelOverlength =>
    simp only [exec, execFrameReceive, execRecoveryResetTimeout, execPfcReceived, execMacControlIgnored,
      execPauseExpiry, execPfcSend, execPfcRefresh, execVerifyTimer, execVerifyMpacketReceived, execMpacketReceived,
      execPortDown, execPortUp, execLinkUpHoldEnd, execSgmiiInbandWord, execPhyPoll, execPhyRestart, execCtUnderrun,
      execTunnelFcsError, execTunnelOverlength]
    exact act_off (by simp [h, ckRuns])
  all_goals nomatch hf

theorem exec_stopped_dziak (hf : familyOf c = .dziak) : exec c s = .next s := by
  cases c
  case packetReceived | pairResetTimeout | ackTimer | ackReceived | nakReceived | replayTimeout | linkDown |
    packetSend | creditWaitDeadline | creditReturn | auditSend | auditReceived | controlBlockDiscard =>
    simp only [exec, execPacketReceived, execPairResetTimeout, execAckTimer, execAckReceived, execNakReceived,
      execReplayTimeout, execLinkDown, execPacketSend, execCreditWaitDeadline, execCreditReturn, execAuditSend,
      execAuditReceived, execControlBlockDiscard]
    exact act_off (by simp [h, ckRuns, serdesRun, carries, mayPacket])
  all_goals nomatch hf

theorem exec_stopped_training (hf : familyOf c = .training) : exec c s = .next s := by
  cases c
  case detectBeacon | backoffReset | ts1Detected | blockLock | alignComplete | paramReceived | paramAckReceived |
    speedCountdownEnd | eqReqReceived | eqDoneReceived | readyReceived | trainingTimeout | retrain | eyeMapComplete
    | dfeAdapt | calBlockSend | calBlockReceived =>
    simp only [exec, execDetectBeacon, execBackoffReset, execTs1Detected, execBlockLock, execAlignComplete,
      execParamReceived, execParamAckReceived, execSpeedCountdownEnd, execEqReqReceived, execEqDoneReceived,
      execReadyReceived, execTrainingTimeout, execRetrain, execEyeMapComplete, execDfeAdapt, execCalBlockSend,
      execCalBlockReceived]
    exact act_off (by simp [h, ckRuns, serdesRun])
  all_goals nomatch hf

theorem exec_stopped_pip (hf : familyOf c = .pip) : exec c s = .next s := by
  cases c
  case halfReadLatch => nomatch hc
  case hostWrite | eventFlagClear | attnmaskWrite | doorbellRing | hostltrWrite | rearmPulseEnd =>
    simp only [exec, execHostWrite, execEventFlagClear, execAttnmaskWrite, execDoorbellRing, execHostltrWrite,
      execRearmPulseEnd]
    exact act_off (by simp [h, pipWrites])
  all_goals nomatch hf

theorem exec_stopped_avocet (hf : familyOf c = .avocet) : exec c s = .next s := by
  cases c
  case avocetTrigger | avocetHalfCompletion | avocetFullCompletion | avocetBusError | listenAgeDiscard |
    lanepoolAgeDiscard =>
    simp only [exec, execAvocetTrigger, execAvocetHalfCompletion, execAvocetFullCompletion, execAvocetBusError,
      execListenAgeDiscard, execLanepoolAgeDiscard]
    exact act_off (by simp [h, ckRuns])
  all_goals nomatch hf

theorem exec_stopped_hidiquel (hf : familyOf c = .hidiquel) : exec c s = .next s := by
  cases c
  case discover | read | stage | commit | abort | counterSnapshot | eventSubscribe | imageTransfer |
    imageTransferDone | transferIdleTimeout | slotSwitch | slotSwitchReset | rollbackFloorRaise | floorRaiseDone |
    reservedOpcode | slotSwitchCheckDone =>
    simp only [exec, execDiscover, execRead, execStage, execCommit, execAbort, execCounterSnapshot,
      execEventSubscribe, execImageTransfer, execImageTransferDone, execTransferIdleTimeout, execSlotSwitch,
      execSlotSwitchReset, execRollbackFloorRaise, execFloorRaiseDone, execReservedOpcode, execSlotSwitchCheckDone]
    exact act_off (by simp [h, ckRuns, hidServes])
  all_goals nomatch hf

theorem exec_stopped_power (hf : familyOf c = .power) : exec c s = .next s := by
  cases c
  case bitternFrame | bitternLinkChange | wakeN | s4Exit => nomatch hc
  case laneSleep | laneWake | sleepKeepalive | powerLevelChange | efftolUpdate | s3Entry | s3Exit | s4Entry |
    portLowPowerEntry | portLowPowerExit =>
    simp only [exec, execLaneSleep, execLaneWake, execSleepKeepalive, execPowerLevelChange, execEfftolUpdate,
      execS3Entry, execS3Exit, execS4Entry, execPortLowPowerEntry, execPortLowPowerExit]
    exact act_off (by
      simp [h, ckRuns, levelMoves, efftolFalls, mayDoze, mustWake, keepaliveDue, mayRest, mayReturn, mayStop])
  all_goals nomatch hf

theorem exec_stopped_turnstone (hf : familyOf c = .turnstone) : exec c s = .next s := by
  cases c
  case readoutStart | readoutEnd | readoutNibble => nomatch hc
  case scrubRead | freezeN =>
    simp only [exec, execScrubRead, execFreezeN]
    exact act_off (by simp [h, ckRuns])
  all_goals nomatch hf

/-- In reset, frozen and in S4 the other commands do not take place. -/
theorem exec_stopped : exec c s = .next s := by
  cases hf : familyOf c with
  | supply => exact exec_stopped_supply h hc hf
  | boot => exact exec_stopped_boot h hc hf
  | time => exact exec_stopped_time h hc hf
  | heron => exact exec_stopped_heron h hc hf
  | wheel => exact exec_stopped_wheel h hc hf
  | ethernet => exact exec_stopped_ethernet h hc hf
  | dziak => exact exec_stopped_dziak h hc hf
  | training => exact exec_stopped_training h hc hf
  | pip => exact exec_stopped_pip h hc hf
  | avocet => exact exec_stopped_avocet h hc hf
  | hidiquel => exact exec_stopped_hidiquel h hc hf
  | power => exact exec_stopped_power h hc hf
  | turnstone => exact exec_stopped_turnstone h hc hf

end

/-! ### The frozen device -/

theorem running_of_frozen (h : s.freeze.latched = true) : running s = false := by simp [running, frozen, h]

/-- A read of the frozen image judges no word (10 R249). -/
theorem judgeRead_stopped {w : Nat} (h : running s = false) : judgeRead w s = s := by simp [judgeRead, h]

theorem sameBut_hostRead_stopped {pa : BitVec 17} (h : running s = false) :
    SameBut [.halfLatch] s (if s.straps.pipW16 then readHalf pa s else readWhole pa s) := by
  split
  · simp only [readHalf, judgeRead_stopped h, whenB, ite_self]
    split <;> simp
  · simp [readWhole, judgeRead_stopped h]

/-- Settles O6: the commands that need a running device do not take place, a host read judges no word, and the readout's
commands write the readout alone. -/
theorem frozenDeviceHolds : Obligations.FrozenDeviceHolds := by
  unfold Obligations.FrozenDeviceHolds
  intro c s hfrozen
  have stopped : running s = false := running_of_frozen hfrozen
  refine ⟨exec_stopped stopped, ?_, ?_⟩
  · rintro pa t rfl h
    simp only [exec, execHalfReadLatch] at h
    exact act_frame h fun _ => sameBut_hostRead_stopped stopped
  · rintro m t (rfl | rfl | rfl) h <;> exact exec_frame h

end Sys2Proof.Machine
end

section
/-!
SUPPORT. The reception of a frame (07 R147, R148, R154, R155; 12 R273) and the reset of a listener's recovery (07 R167).
-/
namespace Sys2Proof.Machine

variable {s t : State} {p : Nat} {b : List Byte} {e : Bool} {x : Rx}

/-! ### A received frame's cells (12 R273) -/

/-- A received frame on its way, and the state that holds its cells. -/
def received (p : Nat) (b : List Byte) : Rx :=
  { port := p, cls := pcpOf (ethHdr b), bytes := b, cells := cellsOf b.length }

def charged (x : Rx) (s : State) : State := takeCells x.port x.cls x.cells s

theorem receiveFrame_full (h : canTake s p (pcpOf (ethHdr b)) (cellsOf b.length) = false) :
    receiveFrame p b e s = bumpClass p (pcpOf (ethHdr b)) 3 s := by simp [receiveFrame, h]

theorem receiveFrame_room (h : canTake s p (pcpOf (ethHdr b)) (cellsOf b.length) = true) :
    receiveFrame p b e s = receiveHeld (received p b) e (charged (received p b) s) := by
  simp only [receiveFrame, h, Bool.not_true, Bool.false_eq_true, ↓reduceIte]
  rfl

theorem rxHeld_of_sameBut {l : List Part} (h : SameBut l s t) (hl : .rxCells ∉ l) : rxHeld t = rxHeld s := by
  have cells : s.rxCells = t.rxCells := h .rxCells hl
  funext q c
  simp only [rxHeld, cells]

theorem rxHeld_publish : rxHeld (publish s t) = rxHeld t := by simp

/-- A discarded frame's cells are free again. -/
theorem rxHeld_dropRx_charged : rxHeld (dropRx x (charged x s)) x.port x.cls = rxHeld s x.port x.cls := by
  simp [dropRx, rxAccount, freeCells, charged, takeCells, rxHeld]

/-- A frame is counted as it is discarded. -/
theorem countedBy_discarded {n : Nat} : CountedBy 1 0x23 p n s (bumpPort p n (dropRx x (charged x s))) :=
  countedBy_bump rfl

/-! ### What becomes of it -/

/-- The MAC counts the first check that fails and discards the frame (07 R147). -/
theorem receiveHeld_bad {n : Nat} (h : macError s x.port x.bytes e = some n) :
    receiveHeld x e (charged x s) = bumpPort x.port n (dropRx x (charged x s)) := by
  have judged : macError (charged x s) x.port x.bytes e = some n := h
  simp only [receiveHeld, judged]

section
variable (h : macError s x.port x.bytes e = none)
include h

theorem receiveHeld_control (hm : isMacControl x.bytes = true) :
    receiveHeld x e (charged x s) = takeControl x.port x.bytes (dropRx x (charged x s)) := by
  have judged : macError (charged x s) x.port x.bytes e = none := h
  simp only [receiveHeld, judged, hm, ↓reduceIte]

theorem receiveHeld_dunlin (hm : isMacControl x.bytes = false) (hd : dunlinTakes s x.port (ethHdr x.bytes) = true) :
    receiveHeld x e (charged x s) = dropRx x (charged x s) := by
  have judged : macError (charged x s) x.port x.bytes e = none := h
  have taken : dunlinTakes (charged x s) x.port (ethHdr x.bytes) = true := hd
  simp only [receiveHeld, judged, hm, taken, Bool.false_eq_true, ↓reduceIte]

theorem receiveHeld_spoonbill (hm : isMacControl x.bytes = false)
    (hd : dunlinTakes s x.port (ethHdr x.bytes) = false) :
    receiveHeld x e (charged x s) = spoonbill x (bumpPort x.port 20 (charged x s)) := by
  have judged : macError (charged x s) x.port x.bytes e = none := h
  have passed : dunlinTakes (charged x s) x.port (ethHdr x.bytes) = false := hd
  simp only [receiveHeld, judged, hm, passed, Bool.false_eq_true, ↓reduceIte]

end

theorem rxHeld_takeControl : rxHeld (takeControl p b s) = rxHeld s :=
  rxHeld_of_sameBut (l := [.ports, .counters]) (by simp) (by decide)

/-- The fixed rule sends a frame to the management path, which has room (07 R154, R155). -/
theorem spoonbill_management (hm : managementFrame s (ethHdr x.bytes) = true) (hb : s.boot.otpBad = false)
    (hroom : hidRxCells s + x.cells ≤ 32) :
    (spoonbill x s).hid.rx = s.hid.rx ++ [{ port := x.port, bytes := x.bytes }] ∧
      readCtr (spoonbill x s) = readCtr s := by
  have room : ¬32 < hidRxCells s + x.cells := by omega
  simp only [spoonbill, hm, toHidiquel, hb, room, Bool.false_eq_true, ↓reduceIte]
  exact ⟨rfl, rfl⟩

/-- A frame that no record matches is counted and discarded (07 R154). -/
theorem spoonbill_unmatched (hm : managementFrame s (ethHdr x.bytes) = false)
    (hf : s.tables.filters.find? (fun y => filterMatches y.2 x.port (ethHdr x.bytes)) = none) :
    spoonbill x s = bumpPort x.port 12 (dropRx x s) := by
  simp only [spoonbill, hm, hf, Bool.false_eq_true, ↓reduceIte]

theorem countedBy_unmatched (hm : managementFrame s (ethHdr x.bytes) = false)
    (hf : s.tables.filters.find? (fun y => filterMatches y.2 x.port (ethHdr x.bytes)) = none) :
    CountedBy 1 0x23 x.port 12 s (spoonbill x (bumpPort x.port 20 (charged x s))) := by
  rw [spoonbill_unmatched (s := bumpPort x.port 20 (charged x s)) hm hf]
  have same : readCtr (bumpPort x.port 20 (charged x s)) 0x23 x.port 12 = readCtr s 0x23 x.port 12 :=
    readCtr_bump_other (by decide)
  exact countedBy_bump same

/-! ### The reset of a recovery (07 R167) -/

theorem exec_recoveryResetTimeout {l : Stream} {r : ListenRec} {f : FrerRec} (hck : ckRuns s = true)
    (hl : mFind s.tables.listen l.val = some r) (hf : mFind s.tables.frer r.recovery = some f)
    (hover : recoveryOver s l.val f = true) :
    exec (.recoveryResetTimeout l) s = .next (publish s (resetRecovery l.val s)) := by
  simp only [exec, execRecoveryResetTimeout]
  exact act_on (by simp [hck, hl, hf, hover])

/-- Settles O27: a frame by the first check that it fails or by what takes it, and the end of a recovery's wait. -/
theorem receptionComplete : Obligations.ReceptionComplete := by
  unfold Obligations.ReceptionComplete
  intro s hck
  refine ⟨fun p b e hup => ?_, fun l r f hrec hl hf hlate => ?_⟩
  case refine_2 =>
    refine ⟨_, exec_recoveryResetTimeout hck hl hf (by simp [recoveryOver, hrec, hlate]), ?_⟩
    simp [resetRecovery]
  have given := exec_frameReceive (b := b) (e := e) hck hup
  refine ⟨fun full => ?_, fun room => ?_⟩
  · rw [receiveFrame_full full] at given
    exact ⟨_, given, (countedBy_bump rfl).publish (frameCounter_low (by decide) (by decide)), by simp⟩
  rw [receiveFrame_room room] at given
  refine ⟨fun n bad => ?_, fun good => ⟨fun consumed => ?_, fun hm hd => ⟨fun hmgmt hotp hcells => ?_, fun hmgmt hnone => ?_⟩⟩⟩
  · rw [receiveHeld_bad (x := received p.val b) bad] at given
    refine ⟨_, given, countedBy_discarded.publish (frameCounter_port ?_), ?_⟩
    · exact Nat.lt_trans (macError_lt bad) (by decide)
    · rw [rxHeld_publish]
      exact rxHeld_dropRx_charged (x := received p.val b)
  · refine ⟨_, given, ?_, fun hm hop => ?_⟩
    · rw [rxHeld_publish]
      cases hm : isMacControl b
      case true =>
        rw [receiveHeld_control (x := received p.val b) good hm, rxHeld_takeControl]
        exact rxHeld_dropRx_charged (x := received p.val b)
      case false =>
        have hd : dunlinTakes s p.val (ethHdr b) = true := by simpa [hm] using consumed
        rw [receiveHeld_dunlin (x := received p.val b) good hm hd]
        exact rxHeld_dropRx_charged (x := received p.val b)
    · rw [receiveHeld_control (x := received p.val b) good hm]
      have ignored : takeControl p.val b = bumpPort p.val 4 := by
        funext u
        simp only [takeControl, hop, ↓reduceIte]
      have counted : CountedBy 1 0x23 p.val 4 s
          (takeControl p.val b (dropRx (received p.val b) (charged (received p.val b) s))) := by
        rw [ignored]
        exact countedBy_discarded
      exact counted.publish (frameCounter_port (by decide))
  · rw [receiveHeld_spoonbill (x := received p.val b) good hm hd] at given
    obtain ⟨joined, same⟩ := spoonbill_management (x := received p.val b)
      (s := bumpPort (received p.val b).port 20 (charged (received p.val b) s)) hmgmt hotp hcells
    have passed : CountedBy 1 0x23 p.val 20 s (bumpPort p.val 20 (charged (received p.val b) s)) := countedBy_bump rfl
    exact ⟨_, given, publish_hid.1.trans joined,
      (passed.readCtr_keeps (congrFun (congrFun (congrFun same _) _) _)).publish (frameCounter_port (by decide))⟩
  · rw [receiveHeld_spoonbill (x := received p.val b) good hm hd] at given
    exact ⟨_, given, (countedBy_unmatched (x := received p.val b) hmgmt hnone).publish (frameCounter_port (by decide))⟩

end Sys2Proof.Machine
end

section
/-!
SUPPORT. Hidiquel's responses (13 R284, R285, R287, R289; 12 R271) and the checks of its requests (13 R288): a response
joins its class queue; a request that fails a check is counted alone, and one that passes has its work's effect and its
work's answer.
-/
namespace Sys2Proof.Machine

variable {s t u : State} {a : Asker} {op status n : Nat} {payload : List Byte} {f g : Frame}

/-! ### What a class queue keeps -/

theorem classQueue_releaseFrame : classQueue (releaseFrame g s) = classQueue s := by
  simp only [releaseFrame, whenB, freeCells]
  (repeat' split) <;> rfl

/-- A frame that joins a class queue puts no other out. -/
theorem mem_classQueue_enqueueFrame {p c q k : Nat} (h : f ∈ classQueue s p c) :
    f ∈ classQueue (enqueueFrame q k g s) p c := by
  simp only [enqueueFrame]
  split
  · rw [classQueue_releaseFrame]
    exact h
  · simp only [classQueue_setClassQueue]
    split
    next same =>
      have queue : classQueue s q k = classQueue s p c := by simp only [classQueue, same]
      simp [queue, h]
    next => exact h

/-- A frame joins a class queue that has room for it (12 R274). -/
theorem mem_classQueue_enqueueFrame_self {p c : Nat} (room : (classQueue s p c).length < 256)
    (fits : frameLen f ≤ maxFrame s p) : f ∈ classQueue (enqueueFrame p c f s) p c := by
  have joins : ¬(256 ≤ (classQueue s p c).length ∨ maxFrame s p < frameLen f) := by omega
  simp [enqueueFrame, joins]

theorem mem_classQueue_each {α : Type} {as : List α} {op : α → State → State} {p c : Nat}
    (keeps : ∀ x v, f ∈ classQueue v p c → f ∈ classQueue (op x v) p c) (h : f ∈ classQueue s p c) :
    f ∈ classQueue (each as op s) p c := each_invariant (fun x _ v => keeps x v) h

theorem mem_classQueue_sendEventOn {ports : List Nat} {k x p c : Nat} {d : List Byte} (h : f ∈ classQueue s p c) :
    f ∈ classQueue (sendEventOn ports k x d s) p c := by
  simp only [sendEventOn, queueDevice]
  split
  · exact h
  · exact mem_classQueue_each (fun _ _ => mem_classQueue_enqueueFrame) h

/-- A new session puts no frame out of its queue (13 R287). -/
theorem mem_classQueue_renewSession {p c : Nat} (h : f ∈ classQueue s p c) : f ∈ classQueue (renewSession s) p c := by
  simp only [renewSession, announce]
  split
  · split
    · exact h
    · simp only [bumpDev_subs]
      exact mem_classQueue_each (fun _ _ hv => hv) (mem_classQueue_sendEventOn (s := drawSession s) h)
  · exact h

/-! ### A response -/

/-- The frame that carries a response, and what a response counts before it is queued. -/
def responseFrame (s : State) (a : Asker) (op status : Nat) (payload : List Byte) : Frame :=
  { plainFrame s.frameIds (responseBytes s a op status payload) (hck s) (hck s + oneCycle s) with hid := true }

def responseCounted (status : Nat) (s : State) : State :=
  whenB (status != 0) (bumpDev 38)
    { s with frameIds := s.frameIds + 1, hid := { s.hid with txCount := s.hid.txCount + 1 } }

/-- The response in its queue, or dropped and counted where Hidiquel's transmit cells are full. -/
def responseQueued (a : Asker) (f : Frame) (s : State) : State :=
  if 32 < hidTxCells s + cellsOf (frameLen f) then bumpDev 29 s else enqueueFrame a.port.val (responseClass a) f s

theorem respond_eq : respond a op status payload s =
    renewSession (responseQueued a (responseFrame s a op status payload) (responseCounted status s)) := rfl

theorem responseCounted_leaves : hidTxCells (responseCounted status s) = hidTxCells s ∧
    classQueue (responseCounted status s) = classQueue s ∧ maxFrame (responseCounted status s) = maxFrame s := by
  simp only [responseCounted, whenB]
  split <;> exact ⟨rfl, rfl, rfl⟩

theorem mem_classQueue_respond
    (cells : hidTxCells s + cellsOf (frameLen (responseFrame s a op status payload)) ≤ 32)
    (room : (classQueue s a.port.val (responseClass a)).length < 256)
    (fits : frameLen (responseFrame s a op status payload) ≤ maxFrame s a.port.val) :
    responseFrame s a op status payload ∈
      classQueue (respond a op status payload s) a.port.val (responseClass a) := by
  obtain ⟨sameCells, sameQueue, sameMax⟩ := responseCounted_leaves (status := status) (s := s)
  rw [respond_eq, responseQueued, if_neg (by rw [sameCells]; omega)]
  exact mem_classQueue_renewSession
    (mem_classQueue_enqueueFrame_self (by rw [sameQueue]; exact room) (by rw [sameMax]; exact fits))

/-- Once counted, a response changes nothing but the device's own frames. -/
theorem sameBut_respond : SameBut [] (responseCounted status s) (respond a op status payload s) := by
  rw [respond_eq, same_renewSession, responseQueued]
  split
  · simp
  · exact (same_enqueue_own a.port.isLt responseClass_lt rfl rfl).2 SameBut.refl

theorem responseCounted_zero : responseCounted 0 s =
    { s with frameIds := s.frameIds + 1, hid := { s.hid with txCount := s.hid.txCount + 1 } } := rfl

/-- A response of status 0x00 counts nothing (13 R289). -/
theorem sameBut_respond_zero : SameBut [] s (respond a op 0 payload s) := by
  refine SameBut.trans ?_ sameBut_respond
  simp [responseCounted_zero]

theorem countedBy_respond (h : status ≠ 0) : CountedBy 1 0x20 0 38 s (respond a op status payload s) := by
  have counted : CountedBy 1 0x20 0 38 s (responseCounted status s) := by
    simp only [responseCounted, whenB, bne_iff_ne.2 h, ↓reduceIte]
    exact countedBy_bumpDev rfl
  exact counted.of_sameBut sameBut_respond (by decide) (by decide)

/-- Settles O45: the response's frame joins its queue and stays there, and a refusal is counted. -/
theorem responsesJoinTheirQueue : Obligations.ResponsesJoinTheirQueue := by
  unfold Obligations.ResponsesJoinTheirQueue
  intro a op status payload s n hn
  have len : n = frameLen (responseFrame s a op status payload) := hn
  subst len
  exact ⟨fun cells room fits => ⟨_, mem_classQueue_respond cells room fits, rfl, rfl⟩, countedBy_respond⟩

/-! ### The checks of R288 -/

section
variable {c : Instr} {p : Port} {r : HidFrame} {work : State → State × Option (Nat × List Byte)}

/-- The management path has received other frames and accepted another counter. -/
def withRx (rx : List MgmtRx) (high : Nat) (s : State) : State := { s with hid := { s.hid with rx := rx, rxHigh := high } }

/-- The state on which a proven request's work acts: its frame taken, its counter accepted (13 R287). -/
def accepted (p : Port) (op : Nat) (r : HidFrame) (s : State) : State :=
  let u := takeReceived p op r s
  if op = 1 then u else { u with hid := { u.hid with rxHigh := r.counter.toNat % 2 ^ 32 } }

theorem takeReceived_eq : ∃ rx, takeReceived p op r s = withRx rx s.hid.rxHigh s := by
  simp only [takeReceived]
  split
  · exact ⟨_, rfl⟩
  · exact ⟨s.hid.rx, rfl⟩

theorem accepted_eq : ∃ rx high, accepted p op r s = withRx rx high s := by
  obtain ⟨rx, taken⟩ := takeReceived_eq (p := p) (op := op) (r := r) (s := s)
  simp only [accepted, taken]
  split
  · exact ⟨rx, _, rfl⟩
  · exact ⟨rx, _, rfl⟩

@[simp] theorem same_withRx {w : List Part} {rx : List MgmtRx} {high : Nat} (h : .mgmtRx ∈ w) :
    SameBut w s (withRx rx high t) ↔ SameBut w s t := by simp [withRx, h]

theorem sameBut_accepted : SameBut [.mgmtRx] s (accepted p op r s) := by
  obtain ⟨rx, high, e⟩ := accepted_eq (p := p) (op := op) (r := r) (s := s)
  simp [e]

theorem requestFails_mem (h : requestFails s p op r = some n) : n ∈ [33, 34, 35, 36, 37] := by
  simp only [requestFails] at h
  (repeat' split at h) <;> simp at h <;> simp [← h]

/-- A request that fails a check is dropped and counted. -/
theorem request_unproven (h : requestFails (takeReceived p op r s) p op r = some n) :
    request p op r work s = bumpDev n (takeReceived p op r s) := by simp only [request, h]

section
variable (h : requestFails (takeReceived p op r s) p op r = none)
include h

theorem request_answers (hw : work (accepted p op r s) = (u, some (status, payload))) :
    request p op r work s = respond (askerOf p r) op status payload u := by
  simp only [accepted] at hw
  simp only [request, h, hw]

theorem request_waits (hw : work (accepted p op r s) = (u, none)) : request p op r work s = renewSession u := by
  simp only [accepted] at hw
  simp only [request, h, hw]

end

/-- Works that agree on the accepted request make the same request. -/
theorem request_congr {work' : State → State × Option (Nat × List Byte)}
    (h : work (accepted p op r s) = work' (accepted p op r s)) : request p op r work s = request p op r work' s := by
  simp only [accepted] at h
  simp only [request, h]

/-- The requests, by opcode. -/
theorem exec_request (h : (c, op) ∈ [(.discover p r, 1), (.read p r, 2), (.stage p r, 3), (.commit p r, 4),
    (.abort p r, 5), (.counterSnapshot p r, 6), (.eventSubscribe p r, 7), (.imageTransfer p r, 8), (.slotSwitch p r, 9),
    (.rollbackFloorRaise p r, 10)] ∨ ∃ o : Byte, c = .reservedOpcode p o r ∧ op = o.toNat) :
    ∃ work, exec c s = act (hidServes s) (request p op r work) s := by
  rcases h with h | ⟨o, rfl, rfl⟩
  · simp only [List.mem_cons, List.not_mem_nil, or_false, Prod.mk.injEq] at h
    rcases h with ⟨rfl, rfl⟩ | ⟨rfl, rfl⟩ | ⟨rfl, rfl⟩ | ⟨rfl, rfl⟩ | ⟨rfl, rfl⟩ | ⟨rfl, rfl⟩ | ⟨rfl, rfl⟩ |
      ⟨rfl, rfl⟩ | ⟨rfl, rfl⟩ | ⟨rfl, rfl⟩ <;> exact ⟨_, rfl⟩
  · exact ⟨_, rfl⟩

theorem frameCounter_of_requestFails (h : requestFails s p op r = some n) : frameCounter (ctrId 0x20 0 n) = false := by
  have known := requestFails_mem h
  simp only [List.mem_cons, List.not_mem_nil, or_false] at known
  rcases known with rfl | rfl | rfl | rfl | rfl <;> decide

/-- Settles O8: a request that fails a check is dropped and counted under that check's number. -/
theorem unprovenRequestsChangeNothing : Obligations.UnprovenRequestsChangeNothing := by
  unfold Obligations.UnprovenRequestsChangeNothing
  intro c p op r s n hc hserves hfails
  obtain ⟨work, meaning⟩ := exec_request (s := s) hc
  obtain ⟨rx, taken⟩ := takeReceived_eq (p := p) (op := op) (r := r) (s := s)
  have own := frameCounter_of_requestFails hfails
  rw [act_on hserves, request_unproven hfails, taken] at meaning
  refine ⟨_, meaning, by simp, CountedBy.publish (countedBy_bumpDev rfl) own, fun i hi hf => ?_⟩
  have kept : mGetD (publish s (bumpDev n (withRx rx s.hid.rxHigh s))).counters i 0 =
      mGetD (bumpDev n (withRx rx s.hid.rxHigh s)).counters i 0 := published .counters i hf
  exact kept.trans (mGetD_mSet hi)

/-! ### MGMT_LOCK (R289) -/

theorem lockedOr_locked {bare : Bool} (h : s.straps.mgmtLock = true) : lockedOr true bare work s = refuse 4 s := by
  simp [lockedOr, h]

theorem sameBut_request_refused : SameBut [.mgmtRx, .counters] s (request p op r (refuse n) s) := by
  rw [same_request (fun _ => by simp [refuse]) (by decide)]
  exact SameBut.refl

/-- A request that MGMT_LOCK refuses changes nothing but the management path and the counters. -/
theorem sameBut_request_locked {bare : Bool} (h : s.straps.mgmtLock = true) :
    SameBut [.mgmtRx, .counters] s (request p op r (lockedOr true bare work) s) := by
  have straps : s.straps = (accepted p op r s).straps := sameBut_accepted .straps (by decide)
  rw [request_congr (lockedOr_locked (by rw [← straps]; exact h))]
  exact sameBut_request_refused

/-- Settles O7: each of the four requests is refused before its work. -/
theorem managementLockHolds : Obligations.ManagementLockHolds := by
  unfold Obligations.ManagementLockHolds
  rintro c p r s t hlock (rfl | rfl | rfl | rfl) h
  case inl =>
    simp only [exec, execStage] at h
    exact act_frame h fun _ => sameBut_request_locked hlock
  case inr.inl =>
    simp only [exec, execCommit] at h
    exact act_frame h fun _ => sameBut_request_locked hlock
  case inr.inr.inl =>
    simp only [exec, execImageTransfer] at h
    exact act_frame h fun _ => sameBut_request_locked hlock
  case inr.inr.inr =>
    simp only [exec, execRollbackFloorRaise] at h
    exact act_frame h fun _ => sameBut_request_locked hlock

end

end Sys2Proof.Machine
end

section
/-!
SUPPORT. Requests that pass the checks of 13 R288, and those that read: DISCOVER, READ, COUNTER SNAPSHOT, EVENT SUBSCRIBE and
the reserved opcodes (13 R289, R290, R299, R302).
-/
namespace Sys2Proof.Machine

variable {s t u : State} {a : Asker} {op status n high : Nat} {payload b : List Byte} {rx : List MgmtRx}
  {p : Port} {r : HidFrame} {work : State → State × Option (Nat × List Byte)}

/-! ### A proven request -/

/-- A state that would give the same responses, and on the same class queues. -/
structure Alike (s u : State) : Prop where
  queues : u.classQ = s.classQ
  bytes : ∀ a op status payload, responseBytes u a op status payload = responseBytes s a op status payload

theorem Alike.refl : Alike s s := ⟨rfl, fun _ _ _ _ => rfl⟩

theorem alike_withRx : Alike s (withRx rx high s) := ⟨rfl, fun _ _ _ _ => rfl⟩

theorem alike_accepted : Alike s (accepted p op r s) := by
  obtain ⟨rx, high, e⟩ := accepted_eq (p := p) (op := op) (r := r) (s := s)
  rw [e]
  exact alike_withRx

theorem Alike.responded (h : Alike s u) : Responded a op status payload s (publish s (respond a op status payload u)) :=
  ⟨u, rfl, h.queues, h.bytes a op status payload⟩

section
variable (h : Proven p op r s)
include h

theorem Proven.act : act (hidServes s) (request p op r work) s = .next (publish s (request p op r work s)) := act_on h.1

/-- A proven request is answered as its work answers. -/
theorem Proven.responds (hw : work (accepted p op r s) = (u, some (status, payload))) (hu : Alike s u) :
    Responded (askerOf p r) op status payload s (publish s (request p op r work s)) := by
  rw [request_answers h.2 hw]
  exact hu.responded

/-- A proven request leaves what its work leaves, but for the counters of what it answers. -/
theorem Proven.leaves : SameBut [.counters] (work (accepted p op r s)).1 (publish s (request p op r work s)) := by
  rcases hw : work (accepted p op r s) with ⟨u, _ | ⟨status, payload⟩⟩
  · rw [request_waits h.2 hw, same_publish, same_renewSession]
    exact SameBut.refl
  · rw [request_answers h.2 hw, same_publish, same_respond (by decide)]
    exact SameBut.refl

/-- A refusal answers its status and leaves the rest. -/
theorem Proven.refused (hw : work (accepted p op r s) = refuse status (accepted p op r s)) :
    Responded (askerOf p r) op status [] s (publish s (request p op r work s)) ∧
      SameBut [.mgmtRx, .counters] s (publish s (request p op r work s)) := by
  have left := h.leaves (work := work)
  rw [hw] at left
  exact ⟨h.responds hw alike_accepted, (sameBut_accepted.mono (by simp)).trans (left.mono (by simp))⟩

/-- An answer that only reads gives its payload and leaves the rest. -/
theorem Proven.answered (hw : work (accepted p op r s) = answer payload (accepted p op r s)) :
    Responded (askerOf p r) op 0 payload s (publish s (request p op r work s)) := h.responds hw alike_accepted

end

/-- In a device that is not in BARE the second column of R289's table refuses nothing. -/
theorem lockedOr_unlocked {lock bare : Bool} (hl : lock = false ∨ s.straps.mgmtLock = false) (hb : inBare s = false) :
    lockedOr lock bare work s = work s := by
  rcases hl with hl | hl <;> simp [lockedOr, hl, hb]

theorem inBare_accepted : inBare (accepted p op r s) = inBare s := by
  obtain ⟨rx, high, e⟩ := accepted_eq (p := p) (op := op) (r := r) (s := s)
  rw [e]
  rfl

theorem mgmtLock_accepted : (accepted p op r s).straps.mgmtLock = s.straps.mgmtLock := by
  obtain ⟨rx, high, e⟩ := accepted_eq (p := p) (op := op) (r := r) (s := s)
  rw [e]
  rfl

/-! ### DISCOVER and READ (R289, R290) -/

theorem announcePayload_withRx : announcePayload (withRx rx high s) = announcePayload s := rfl

theorem objectValue_withRx {staged : Bool} {id : Nat} : objectValue (withRx rx high s) staged id = objectValue s staged id := rfl

theorem payloadRoom_withRx : payloadRoom (withRx rx high s) = payloadRoom s := rfl

theorem readList_withRx {staged : Bool} {ids : List Nat} {room : Nat} :
    readList (withRx rx high s) staged ids room = readList s staged ids room := by
  induction ids generalizing room with
  | nil => rfl
  | cons id rest ih => simp only [readList, objectValue_withRx, ih]

theorem discoverWork_accepted (h : b = []) :
    discoverWork b (accepted p op r s) = answer (announcePayload s) (accepted p op r s) := by
  obtain ⟨rx, high, e⟩ := accepted_eq (p := p) (op := op) (r := r) (s := s)
  simp [discoverWork, h, e, announcePayload_withRx]

theorem readWork_accepted {staged : Bool} (h4 : b.length % 4 = 0) (h0 : 0 < b.length) (h256 : b.length ≤ 256) :
    readWork p staged b (accepted p op r s) =
      answer (readList s staged (words4 b) (payloadRoom s p.val)) (accepted p op r s) := by
  obtain ⟨rx, high, e⟩ := accepted_eq (p := p) (op := op) (r := r) (s := s)
  have fits : ¬(b.length % 4 ≠ 0 ∨ b.length = 0 ∨ 256 < b.length) := by omega
  rw [readWork, if_neg fits, e, readList_withRx, payloadRoom_withRx]

theorem discover_completes (hb : b = requestPayload r) (h : Proven p 1 r s) :
    ∃ t, exec (.discover p r) s = .next t ∧ SameBut [.mgmtRx, .counters] s t ∧
      (b = [] → Responded (askerOf p r) 1 0 (announcePayload s) s t) ∧ (b ≠ [] → Responded (askerOf p r) 1 2 [] s t) := by
  subst hb
  have meaning : exec (.discover p r) s = _ := h.act
  refine ⟨_, meaning, exec_frame meaning, fun empty => ?_, fun full => ?_⟩
  · exact h.answered (discoverWork_accepted empty)
  · exact (h.refused (by simp [discoverWork, full])).1

theorem read_completes (hb : b = requestPayload r) (h : Proven p 2 r s) :
    ∃ t, exec (.read p r) s = .next t ∧ SameBut [.mgmtRx, .counters] s t ∧
      (b.length % 4 = 0 → 0 < b.length → b.length ≤ 256 → Responded (askerOf p r) 2 0
        (readList s (r.flags.getLsbD 3) (words4 b) (payloadRoom s p.val)) s t) ∧
      (b.length % 4 ≠ 0 ∨ b.length = 0 ∨ 256 < b.length → Responded (askerOf p r) 2 2 [] s t) := by
  subst hb
  have meaning : exec (.read p r) s = _ := h.act
  refine ⟨_, meaning, exec_frame meaning, fun h4 h0 h256 => ?_, fun misfit => ?_⟩
  · exact h.answered (readWork_accepted h4 h0 h256)
  · exact (h.refused (by rw [readWork, if_pos misfit])).1

/-! ### COUNTER SNAPSHOT (R302) -/

/-- The snapshot that a request's payload asks for. -/
def snapOf (a : Asker) (b : List Byte) : Snap :=
  { asker := a, clear := hasBit (fld b 0 1) 0
    parts := (List.range ((b.length - 4) / 8)).flatMap fun i =>
      rangeParts (fld b (4 + 8 * i) 4) (fld b (8 + 8 * i) 2) }

theorem snapshotWork_waits (h12 : 12 ≤ b.length) (h8 : b.length % 8 = 4) (h16 : (b.length - 4) / 8 ≤ 16) :
    snapshotWork a b s = ({ s with hid := { s.hid with snaps := s.hid.snaps ++ [snapOf a b] } }, none) := by
  have fits : ¬(b.length < 12 ∨ b.length % 8 ≠ 4 ∨ 16 < (b.length - 4) / 8) := by omega
  simp only [snapshotWork, fits, ↓reduceIte]
  rfl

theorem snaps_accepted : (accepted p op r s).hid.snaps = s.hid.snaps := by
  obtain ⟨rx, high, e⟩ := accepted_eq (p := p) (op := op) (r := r) (s := s)
  rw [e]
  rfl

theorem counterSnapshot_completes (hb : b = requestPayload r) (h : Proven p 6 r s) :
    ∃ t, exec (.counterSnapshot p r) s = .next t ∧ SameBut [.mgmtRx, .snaps, .counters] s t ∧
      (b.length < 12 ∨ b.length % 8 ≠ 4 ∨ 16 < (b.length - 4) / 8 →
        t.hid.snaps = s.hid.snaps ∧ Responded (askerOf p r) 6 2 [] s t) ∧
      (12 ≤ b.length → b.length % 8 = 4 → (b.length - 4) / 8 ≤ 16 →
        t.hid.snaps = s.hid.snaps ++ [snapOf (askerOf p r) b]) := by
  subst hb
  have meaning : exec (.counterSnapshot p r) s = _ := h.act
  refine ⟨_, meaning, exec_frame meaning, fun misfit => ?_, fun h12 h8 h16 => ?_⟩
  · obtain ⟨responded, same⟩ := h.refused (status := 2)
      (work := snapshotWork (askerOf p r) (requestPayload r)) (by simp only [snapshotWork, misfit, ↓reduceIte])
    exact ⟨(same .snaps (by decide)).symm, responded⟩
  · have left := h.leaves (work := snapshotWork (askerOf p r) (requestPayload r))
    rw [snapshotWork_waits h12 h8 h16] at left
    have snaps := left .snaps (by decide)
    exact snaps.symm.trans (congrArg (· ++ _) snaps_accepted)

/-! What a snapshot reads, and what it clears, as its ck ends. -/

/-- The state in which a ck's only snapshot is answered: the marks restarted, what it has read cleared. -/
def snapTaken (x : Snap) (ids : List Nat) (s : State) : State :=
  whenB x.clear (clearCounters ids) (restartMarks { s with hid := { s.hid with snaps := [] } })

theorem snapDuty_single {x : Snap} {bytes : List Byte} {ids : List Nat} (hs : s.hid.snaps = [x])
    (hx : snapRead s x = (bytes, ids)) : snapDuty s = respond x.asker 6 0 bytes (snapTaken x ids s) := by
  simp [snapDuty, hs, hx, each, snapTaken]

theorem snapTaken_leaves {x : Snap} {ids : List Nat} : Alike s (snapTaken x ids s) ∧
    (snapTaken x ids s).hid.snaps = [] ∧ (snapTaken x ids s).highWater = s.rxCells := by
  simp only [snapTaken, whenB]
  split <;> exact ⟨⟨rfl, fun _ _ _ _ => rfl⟩, rfl, rfl⟩

theorem mGetD_clearCounters {ids : List Nat} {id : Nat} : mGetD (clearCounters ids s).counters id 0 =
    if id ∈ ids ∧ id ≠ ctrId 0x20 0 32 then 0 else mGetD s.counters id 0 := by
  have found : mFind (clearCounters ids s).counters id = _ :=
    mFind_filter (f := fun k => !ids.contains k || k == ctrId 0x20 0 32)
  simp only [mGetD, found, Bool.or_eq_true, Bool.not_eq_true', List.contains_eq_mem, decide_eq_false_iff_not,
    beq_iff_eq]
  by_cases hm : id ∈ ids <;> by_cases hi : id = ctrId 0x20 0 32 <;> simp [hm, hi]

theorem mGetD_snapTaken {x : Snap} {ids : List Nat} {id : Nat} : mGetD (snapTaken x ids s).counters id 0 =
    if x.clear = true ∧ id ∈ ids ∧ id ≠ ctrId 0x20 0 32 then 0 else mGetD s.counters id 0 := by
  simp only [snapTaken, whenB]
  split
  next clear => simp only [mGetD_clearCounters, clear, true_and]; rfl
  next keep => simp only [keep]; rfl

theorem snapshot_read {x : Snap} {bytes : List Byte} {ids : List Nat} (hs : s.hid.snaps = [x])
    (hx : snapRead s x = (bytes, ids)) : (snapDuty s).hid.snaps = [] ∧ (snapDuty s).highWater = s.rxCells ∧
      (∃ u, snapDuty s = respond x.asker 6 0 bytes u ∧ u.classQ = s.classQ ∧
        responseBytes u x.asker 6 0 bytes = responseBytes s x.asker 6 0 bytes) ∧
      ∀ id, frameCounter id = false → mGetD (snapDuty s).counters id 0 =
        if x.clear = true ∧ id ∈ ids ∧ id ≠ ctrId 0x20 0 32 then 0 else mGetD s.counters id 0 := by
  rw [snapDuty_single hs hx]
  obtain ⟨alike, snaps, marks⟩ := snapTaken_leaves (s := s) (x := x) (ids := ids)
  have same : SameBut [] (snapTaken x ids s) (respond x.asker 6 0 bytes (snapTaken x ids s)) := sameBut_respond_zero
  refine ⟨?_, ?_, ⟨_, rfl, alike.queues, alike.bytes _ _ _ _⟩, fun id hid => ?_⟩
  · exact (same .snaps (by decide)).symm.trans snaps
  · exact (same .highWater (by decide)).symm.trans marks
  · have counters := same .counters (by decide) id hid
    rw [← counters, mGetD_snapTaken]

/-! ### EVENT SUBSCRIBE (R299) -/

/-- The subscriptions that a payload lists. -/
def subscriptionsOf (b : List Byte) : List (Nat × Nat) :=
  (List.range (b.length / 4)).map fun i => (fld b (4 * i) 1, fld b (4 * i + 1) 1)

def withSubs (l : List (Nat × Nat)) (s : State) : State := { s with hid := { s.hid with subs := l } }

theorem subscribeWork_eq (h4 : b.length % 4 = 0) (h128 : b.length ≤ 128) : subscribeWork b s =
    if (subscriptionsOf b).all subscriptionOk then answer [] (withSubs (subscriptionsOf b).eraseDups s)
    else refuse 0x0A s := by
  have fits : ¬(b.length % 4 ≠ 0 ∨ 128 < b.length) := by omega
  simp only [subscribeWork, fits, ↓reduceIte]
  change (if (!(subscriptionsOf b).all subscriptionOk) = true then _ else _) = _
  cases (subscriptionsOf b).all subscriptionOk <;> rfl

theorem alike_withSubs_accepted {l : List (Nat × Nat)} : Alike s (withSubs l (accepted p op r s)) := by
  obtain ⟨rx, high, e⟩ := accepted_eq (p := p) (op := op) (r := r) (s := s)
  rw [e]
  exact ⟨rfl, fun _ _ _ _ => rfl⟩

theorem eventSubscribe_completes (hb : b = requestPayload r) (h : Proven p 7 r s) (bare : inBare s = false)
    (h4 : b.length % 4 = 0) (h128 : b.length ≤ 128) :
    ∃ t, exec (.eventSubscribe p r) s = .next t ∧ SameBut [.mgmtRx, .counters, .subs] s t ∧
      ((subscriptionsOf b).all subscriptionOk = true →
        t.hid.subs = (subscriptionsOf b).eraseDups ∧ Responded (askerOf p r) 7 0 [] s t) ∧
      ((subscriptionsOf b).all subscriptionOk = false →
        t.hid.subs = s.hid.subs ∧ Responded (askerOf p r) 7 0x0A [] s t) := by
  subst hb
  have meaning : exec (.eventSubscribe p r) s = _ := h.act
  have works : lockedOr false true (subscribeWork (requestPayload r)) (accepted p 7 r s) = _ :=
    (lockedOr_unlocked (.inl rfl) (inBare_accepted.trans bare)).trans (subscribeWork_eq h4 h128)
  refine ⟨_, meaning, (exec_frame meaning).mono (by simp [writes]), fun good => ?_, fun bad => ?_⟩
  · rw [if_pos good] at works
    have left := h.leaves (work := lockedOr false true (subscribeWork (requestPayload r)))
    rw [works] at left
    exact ⟨(left .subs (by decide)).symm, h.responds works alike_withSubs_accepted⟩
  · rw [if_neg (by simp [bad])] at works
    obtain ⟨responded, same⟩ := h.refused works
    exact ⟨(same .subs (by decide)).symm, responded⟩

/-! ### Reserved opcodes (R289) -/

theorem reservedOpcode_completes {o : Byte} (h : Proven p o.toNat r s) : ∃ t, exec (.reservedOpcode p o r) s = .next t ∧
    SameBut [.mgmtRx, .counters] s t ∧ Responded (askerOf p r) o.toNat 1 [] s t := by
  have meaning : exec (.reservedOpcode p o r) s = _ := h.act
  exact ⟨_, meaning, exec_frame meaning, (h.refused (work := refuse 1) rfl).1⟩

/-- Settles O46: each request by its work, and a snapshot by what it reads as its ck ends. -/
theorem readingRequestsComplete : Obligations.ReadingRequestsComplete := by
  unfold Obligations.ReadingRequestsComplete
  intro s p r b hb
  refine ⟨discover_completes hb, read_completes hb, counterSnapshot_completes hb,
    fun x bytes ids hs hx => snapshot_read hs hx, fun h bare h4 h128 l hl => ?_, fun o h => reservedOpcode_completes h⟩
  subst hl
  exact eventSubscribe_completes hb h bare h4 h128

end Sys2Proof.Machine
end

section
/-!
SUPPORT. STAGE, COMMIT and ABORT (13 R292 to R294): what each work does, and that a proven request's work does it.
-/
namespace Sys2Proof.Machine

variable {s t u : State} {op n high : Nat} {b : List Byte} {rx : List MgmtRx} {p : Port} {r : HidFrame}

/-! ### What a proven request finds -/

theorem staged_accepted : (accepted p op r s).staged = s.staged :=
  (sameBut_accepted (p := p) (op := op) (r := r) .staged (by decide)).symm

theorem commit_accepted : (accepted p op r s).commit = s.commit :=
  (sameBut_accepted (p := p) (op := op) (r := r) .commit (by decide)).symm

theorem stagedSet_accepted : stagedSet (accepted p op r s) n = stagedSet s n := by simp only [stagedSet, staged_accepted]

theorem epochOf_accepted : epochOf (accepted p op r s) n = epochOf s n := by
  obtain ⟨rx, high, e⟩ := accepted_eq (p := p) (op := op) (r := r) (s := s)
  rw [e]
  rfl

theorem workingCount_accepted : workingCount (accepted p op r s) = workingCount s := by
  obtain ⟨rx, high, e⟩ := accepted_eq (p := p) (op := op) (r := r) (s := s)
  rw [e]
  rfl

theorem started_accepted : (accepted p op r s).heron.started = s.heron.started := by
  obtain ⟨rx, high, e⟩ := accepted_eq (p := p) (op := op) (r := r) (s := s)
  rw [e]
  rfl

theorem poolBad_withRx {units : Nat} {m : SMap VcmapRec} : poolBad (withRx rx high s) units m = poolBad s units m := by
  induction m generalizing units with
  | nil => rfl
  | cons e rest ih =>
    have plan : inPlan (withRx rx high s) = inPlan s := rfl
    simp only [poolBad, plan, ih]

theorem stagedTables_withRx {x : Staged} : stagedTables (withRx rx high s) x = stagedTables s x := by
  have entry : stageInto (withRx rx high s) = stageInto s := rfl
  simp only [stagedTables, entry]
  rfl

theorem crossBad_withRx {tables : Tables} : crossBad (withRx rx high s) tables = crossBad s tables := by
  simp only [crossBad, poolBad_withRx]
  rfl

theorem commitBad_accepted {x : Staged} : commitBad (accepted p op r s) x = commitBad s x := by
  obtain ⟨rx, high, e⟩ := accepted_eq (p := p) (op := op) (r := r) (s := s)
  simp only [e, commitBad, stagedTables_withRx, crossBad_withRx]

/-! ### STAGE (R292) -/

/-- The status that a STAGE answers for each entry. -/
def stageStatuses (l : List (Nat × List Byte)) : List Byte :=
  l.flatMap fun e => leBytes 1 (entryStatus e.1 e.2) ++ [0, 0, 0]

/-- The staged set, if there is one, has this number. -/
def numbered (n : Nat) (s : State) : Prop := ∀ x, s.staged = some x → x.number = n

theorem stageEntry_refused {e : Nat × List Byte} (h : entryStatus e.1 e.2 ≠ 0) : stageEntry n e s = s := by
  simp [stageEntry, h]

/-- The set that an accepted entry leaves. -/
def stagedWith (n : Nat) (e : Nat × List Byte) (s : State) : Staged :=
  { stagedSet s n with entries := mSet (stagedSet s n).entries e.1 (if e.2.isEmpty then none else some e.2) }

theorem stageEntry_accepted {e : Nat × List Byte} (h : entryStatus e.1 e.2 = 0) :
    stageEntry n e s = { s with staged := some (stagedWith n e s) } := by
  simp [stageEntry, h, stagedWith]

theorem number_stagedSet (h : numbered n s) : (stagedSet s n).number = n := by
  simp only [stagedSet]
  split
  next x hx => exact h x hx
  next => rfl

theorem numbered_stageEntry {e : Nat × List Byte} (h : numbered n s) : numbered n (stageEntry n e s) := by
  by_cases accepted : entryStatus e.1 e.2 = 0
  case neg =>
    rw [stageEntry_refused accepted]
    exact h
  case pos =>
    rw [stageEntry_accepted accepted]
    rintro x ⟨⟩
    exact number_stagedSet h

theorem Alike.stageEntry {e : Nat × List Byte} (h : Alike s u) : Alike s (stageEntry n e u) := by
  by_cases accepted : entryStatus e.1 e.2 = 0
  case neg =>
    rw [stageEntry_refused accepted]
    exact h
  case pos =>
    rw [stageEntry_accepted accepted]
    exact ⟨h.queues, h.bytes⟩

/-- The last entry, where it is accepted, stands in the set. -/
theorem staged_of_last {l : List (Nat × List Byte)} {id : Nat} {v : List Byte} (hn : numbered n s)
    (h : entryStatus id v = 0) : ∃ x, (each (l ++ [(id, v)]) (stageEntry n) s).staged = some x ∧ x.number = n ∧
      mFind x.entries id = some (if v.isEmpty then none else some v) := by
  have last : each (l ++ [(id, v)]) (stageEntry n) s = stageEntry n (id, v) (each l (stageEntry n) s) := by
    simp [each, List.foldl_append]
  have before : numbered n (each l (stageEntry n) s) := each_invariant (fun _ _ _ => numbered_stageEntry) hn
  rw [last, stageEntry_accepted h]
  exact ⟨_, rfl, number_stagedSet before, by simp [stagedWith, mFind_mSet]⟩

theorem stageWork_eq {l : List (Nat × List Byte)} (hl : stageEntries (fld b 2 2) (b.drop 4) = some l)
    (h4 : 4 ≤ b.length) (hc : s.commit = none) (hn : numbered (fld b 0 2) s) :
    stageWork b s = answer (stageStatuses l) (each l (stageEntry (fld b 0 2)) s) := by
  have short : ¬b.length < 4 := by omega
  simp only [stageWork, hl, short, hc, Option.isSome_none, Bool.false_eq_true, ↓reduceIte]
  cases hs : s.staged with
  | none => rfl
  | some x => simp [hn x hs, stageStatuses]

theorem stage_completes (hb : b = requestPayload r) (bare : inBare s = false) (h : Proven p 3 r s)
    (lock : s.straps.mgmtLock = false) (h4 : 4 ≤ b.length) (hc : s.commit = none) (hn : numbered (fld b 0 2) s)
    (l : List (Nat × List Byte)) (hl : stageEntries (fld b 2 2) (b.drop 4) = some l) :
    ∃ t, exec (.stage p r) s = .next t ∧ SameBut [.staged, .mgmtRx, .counters] s t ∧
      Responded (askerOf p r) 3 0 (stageStatuses l) s t ∧
      (∀ l1 id v, l = l1 ++ [(id, v)] → entryStatus id v = 0 → ∃ x, t.staged = some x ∧ x.number = fld b 0 2 ∧
        mFind x.entries id = some (if v.isEmpty then none else some v)) ∧
      ((∀ e ∈ l, entryStatus e.1 e.2 ≠ 0) → t.staged = s.staged) := by
  subst hb
  have meaning : exec (.stage p r) s = _ := h.act
  have found : numbered (fld (requestPayload r) 0 2) (accepted p 3 r s) := by
    intro x hx
    exact hn x (staged_accepted.symm.trans hx)
  have works : lockedOr true true (stageWork (requestPayload r)) (accepted p 3 r s) = _ :=
    (lockedOr_unlocked (.inr (mgmtLock_accepted.trans lock)) (inBare_accepted.trans bare)).trans
      (stageWork_eq hl h4 (commit_accepted.trans hc) found)
  have left := h.leaves (work := lockedOr true true (stageWork (requestPayload r)))
  rw [works] at left
  have staged := left .staged (by decide)
  refine ⟨_, meaning, exec_frame meaning, h.responds works ?_, ?_, fun refused => ?_⟩
  · exact each_invariant (fun _ _ _ => Alike.stageEntry) alike_accepted
  · rintro l1 id v rfl accepts
    obtain ⟨x, inSet, number, entry⟩ := staged_of_last (l := l1) found accepts
    exact ⟨x, staged.symm.trans inSet, number, entry⟩
  · refine staged.symm.trans ((each_keeps_mem (g := fun u : State => u.staged) fun e he u => ?_).trans staged_accepted)
    rw [stageEntry_refused (refused e he)]

/-! ### COMMIT (R293) -/

/-- The commit that a request asks for. -/
def bound (n time : Nat) (s : State) : State := { s with commit := some { number := n, time := time } }

section
variable {time : Nat} (h20 : b.length = 20) (hsec : fld b 4 8 < 2 ^ 48) (hns : fld b 12 4 < 1000000000)
  (ht : time = fld b 4 8 * unitsPerSec + fld b 12 4 * unitsPerNs)
include h20 hsec hns ht

/-- A commit that is pending already is answered again. -/
theorem commitWork_again (hc : s.commit = some { number := fld b 0 2, time := time }) :
    commitWork b s = answer (leBytes 8 (epochOf s time).2) s := by
  subst ht
  have fits : ¬(b.length ≠ 20 ∨ 2 ^ 48 ≤ fld b 4 8) := by omega
  have nanoseconds : ¬1000000000 ≤ fld b 12 4 := by omega
  simp only [commitWork, fits, nanoseconds, hc, ↓reduceIte]

/-- A commit in time is judged by the checks on its set. -/
theorem commitWork_judged (hc : s.commit = none) (hs : s.heron.started = true)
    (hn : (stagedSet s (fld b 0 2)).number = fld b 0 2) (hlead : 1000000 * unitsPerNs ≤ (epochOf s time).1)
    (hlate : time ≤ workingCount s + 3600 * unitsPerSec) :
    commitWork b s = match commitBad s (stagedSet s (fld b 0 2)) with
      | bad :: _ => (s, some (9, leBytes 4 (failId bad)))
      | [] => answer (leBytes 8 (epochOf s time).2)
          (writeShadows (stagedTables s (stagedSet s (fld b 0 2))) (bound (fld b 0 2) time s)) := by
  subst ht
  have fits : ¬(b.length ≠ 20 ∨ 2 ^ 48 ≤ fld b 4 8) := by omega
  have nanoseconds : ¬1000000000 ≤ fld b 12 4 := by omega
  have near : ¬(epochOf s (fld b 4 8 * unitsPerSec + fld b 12 4 * unitsPerNs)).1 < 1000000 * unitsPerNs := by omega
  have far : ¬workingCount s + 3600 * unitsPerSec < fld b 4 8 * unitsPerSec + fld b 12 4 * unitsPerNs := by omega
  have asked : ¬s.commit = some { number := fld b 0 2, time := fld b 4 8 * unitsPerSec + fld b 12 4 * unitsPerNs } := by
    rw [hc]
    exact nofun
  have busy : ¬((!s.heron.started) = true ∨ s.commit.isSome = true) := by simp [hs, hc]
  simp only [commitWork, fits, nanoseconds, asked, busy, hn, near, far, not_true_eq_false, ne_eq, ↓reduceIte]
  rfl

end

theorem Alike.boundShadows {tables : Tables} {m time : Nat} (h : Alike s u) :
    Alike s (writeShadows tables (bound m time u)) := by
  refine ⟨?_, fun a op status payload => Eq.trans ?_ (h.bytes a op status payload)⟩
  · exact Eq.trans rfl h.queues
  · rfl

theorem commit_completes (hb : b = requestPayload r) (bare : inBare s = false) (h : Proven p 4 r s)
    (lock : s.straps.mgmtLock = false) (h20 : b.length = 20) (hsec : fld b 4 8 < 2 ^ 48)
    (hns : fld b 12 4 < 1000000000) (time : Nat) (x : Staged)
    (ht : time = fld b 4 8 * unitsPerSec + fld b 12 4 * unitsPerNs) (hx : x = stagedSet s (fld b 0 2)) :
    ∃ t, exec (.commit p r) s = .next t ∧ SameBut [.commit, .heronCopies, .mgmtRx, .counters] s t ∧
      (s.commit = none → s.heron.started = true → x.number = fld b 0 2 →
        1000000 * unitsPerNs ≤ (epochOf s time).1 → time ≤ workingCount s + 3600 * unitsPerSec →
        (commitBad s x = [] → t.commit = some { number := fld b 0 2, time := time } ∧
          Responded (askerOf p r) 4 0 (leBytes 8 (epochOf s time).2) s t) ∧
        (∀ bad rest, commitBad s x = bad :: rest → t.commit = none ∧
          Responded (askerOf p r) 4 9 (leBytes 4 (failId bad)) s t)) ∧
      (s.commit = some { number := fld b 0 2, time := time } → t.commit = s.commit ∧
        Responded (askerOf p r) 4 0 (leBytes 8 (epochOf s time).2) s t) := by
  subst hb hx
  have meaning : exec (.commit p r) s = _ := h.act
  have works : lockedOr true true (commitWork (requestPayload r)) (accepted p 4 r s) =
      commitWork (requestPayload r) (accepted p 4 r s) :=
    lockedOr_unlocked (.inr (mgmtLock_accepted.trans lock)) (inBare_accepted.trans bare)
  have left := h.leaves (work := lockedOr true true (commitWork (requestPayload r)))
  rw [works] at left
  refine ⟨_, meaning, exec_frame meaning, fun hc hs hn hlead hlate => ?_, fun hc => ?_⟩
  · have judged := commitWork_judged (s := accepted p 4 r s) h20 hsec hns ht (commit_accepted.trans hc)
      (started_accepted.trans hs) (by rw [stagedSet_accepted]; exact hn) (by rw [epochOf_accepted]; exact hlead)
      (by rw [workingCount_accepted]; exact hlate)
    rw [stagedSet_accepted, commitBad_accepted, epochOf_accepted] at judged
    refine ⟨fun good => ?_, fun bad rest hbad => ?_⟩
    · rw [good] at judged
      rw [judged] at left
      exact ⟨(left .commit (by decide)).symm, h.responds (works.trans judged) alike_accepted.boundShadows⟩
    · rw [hbad] at judged
      rw [judged] at left
      exact ⟨(left .commit (by decide)).symm.trans (commit_accepted.trans hc),
        h.responds (works.trans judged) alike_accepted⟩
  · have again := commitWork_again (s := accepted p 4 r s) h20 hsec hns ht (commit_accepted.trans hc)
    rw [epochOf_accepted] at again
    rw [again] at left
    exact ⟨(left .commit (by decide)).symm.trans commit_accepted, h.answered (works.trans again)⟩

/-! ### ABORT (R294) -/

/-- Nothing is staged any more, and no commit pends. -/
def unstaged (s : State) : State := { s with staged := none }
def uncommitted (s : State) : State := clearShadows { s with commit := none, staged := none }

theorem abortWork_idle (h4 : b.length = 4) (hc : s.commit = none) (hn : numbered (fld b 0 2) s) :
    abortWork b s = answer [] (unstaged s) := by
  cases hs : s.staged with
  | none => simp [abortWork, unstaged, h4, hc, hs]
  | some x => simp [abortWork, unstaged, h4, hc, hs, hn x hs]

theorem abortWork_pending {c : PendingCommit} (h4 : b.length = 4) (hc : s.commit = some c)
    (hn : c.number = fld b 0 2) : abortWork b s =
      if (epochOf s c.time).1 < 100000 * unitsPerNs then refuse 8 s else answer [] (uncommitted s) := by
  simp only [abortWork, h4, hc, hn, ne_eq, not_true_eq_false, ↓reduceIte]
  rfl

theorem Alike.unstaged (h : Alike s u) : Alike s (unstaged u) := ⟨h.queues, h.bytes⟩

theorem Alike.uncommitted (h : Alike s u) : Alike s (uncommitted u) :=
  ⟨Eq.trans rfl h.queues, fun a op status payload => Eq.trans rfl (h.bytes a op status payload)⟩

theorem abort_completes (hb : b = requestPayload r) (bare : inBare s = false) (h : Proven p 5 r s)
    (h4 : b.length = 4) :
    ∃ t, exec (.abort p r) s = .next t ∧ SameBut [.staged, .commit, .heronCopies, .mgmtRx, .counters] s t ∧
      (s.commit = none → numbered (fld b 0 2) s →
        t.staged = none ∧ t.commit = none ∧ Responded (askerOf p r) 5 0 [] s t) ∧
      (∀ c, s.commit = some c → c.number = fld b 0 2 →
        (100000 * unitsPerNs ≤ (epochOf s c.time).1 →
          t.staged = none ∧ t.commit = none ∧ Responded (askerOf p r) 5 0 [] s t) ∧
        ((epochOf s c.time).1 < 100000 * unitsPerNs →
          t.staged = s.staged ∧ t.commit = s.commit ∧ Responded (askerOf p r) 5 8 [] s t)) := by
  subst hb
  have meaning : exec (.abort p r) s = _ := h.act
  have works : lockedOr false true (abortWork (requestPayload r)) (accepted p 5 r s) =
      abortWork (requestPayload r) (accepted p 5 r s) := lockedOr_unlocked (.inl rfl) (inBare_accepted.trans bare)
  have left := h.leaves (work := lockedOr false true (abortWork (requestPayload r)))
  rw [works] at left
  refine ⟨_, meaning, exec_frame meaning, fun hc hn => ?_, fun c hc hn => ⟨fun far => ?_, fun near => ?_⟩⟩
  · have found : numbered (fld (requestPayload r) 0 2) (accepted p 5 r s) :=
      fun x hx => hn x (staged_accepted.symm.trans hx)
    have idle := abortWork_idle h4 (commit_accepted.trans hc) found
    rw [idle] at left
    exact ⟨(left .staged (by decide)).symm, (left .commit (by decide)).symm.trans (commit_accepted.trans hc),
      h.responds (works.trans idle) alike_accepted.unstaged⟩
  · have pending := abortWork_pending h4 (commit_accepted (p := p) (op := 5) (r := r) |>.trans hc) hn
    rw [epochOf_accepted, if_neg (by omega)] at pending
    rw [pending] at left
    exact ⟨(left .staged (by decide)).symm, (left .commit (by decide)).symm,
      h.responds (works.trans pending) alike_accepted.uncommitted⟩
  · have pending := abortWork_pending h4 (commit_accepted (p := p) (op := 5) (r := r) |>.trans hc) hn
    rw [epochOf_accepted, if_pos near] at pending
    obtain ⟨responded, same⟩ := h.refused (works.trans pending)
    exact ⟨(same .staged (by decide)).symm, (same .commit (by decide)).symm, responded⟩

/-- Settles O47: STAGE by its entries, COMMIT by the checks on its set, ABORT by the nearness of the epoch. -/
theorem stagingRequestsComplete : Obligations.StagingRequestsComplete := by
  unfold Obligations.StagingRequestsComplete
  intro s p r b hb bare
  exact ⟨stage_completes hb bare, commit_completes hb bare, abort_completes hb bare⟩

end Sys2Proof.Machine
end

section
/-!
SUPPORT. IMAGE TRANSFER and its flash work (13 R296; 03 R50).
-/
namespace Sys2Proof.Machine

variable {s t u : State} {a : Asker} {op status n len off : Nat} {payload b : List Byte} {last : Bool} {p : Port}
  {r : HidFrame} {x : Xfer} {y : Slot} {work : State → State × Option (Nat × List Byte)} {e : Emission} {w : BitVec 32}

/-- The transfer in progress is another one. -/
def withXfer (x : Option Xfer) (s : State) : State := { s with hid := { s.hid with xfer := x } }

theorem Alike.withXfer {x : Option Xfer} (h : Alike s u) : Alike s (withXfer x u) :=
  ⟨h.queues, fun a op status payload => Eq.trans rfl (h.bytes a op status payload)⟩

/-- What the work of a request puts on a wire stays in the log. -/
theorem Proven.emitted (h : Proven p op r s) (hw : work (accepted p op r s) = (u, none)) (he : e ∈ u.out) :
    e ∈ (publish s (request p op r work s)).out := by
  rw [request_waits h.2 hw]
  refine mem_out_publish ?_
  rw [unheard_renewSession.1]
  exact he

/-- A response leaves the stand-down words, the transfer, the switch and the raise as they are. -/
theorem sameBut_responded : SameBut [.counters] u (publish s (respond a op status payload u)) := by
  rw [same_publish, same_respond (by decide)]
  exact SameBut.refl

/-! ### A chunk arrives -/

theorem transferIdle_eq : transferIdle = 8000000000 := rfl

/-- The transfer after a chunk has been accepted. -/
def chunkXfer (a : Asker) (y : Slot) (off len : Nat) (last : Bool) (now : Nat) : Xfer :=
  { slot := y, next := off + len, lastOffset := off, lastLen := len, idleDue := now + 8000000000, busy := some a,
    lastChunk := last }

theorem xfer_programChunk {data : List Byte} :
    (programChunk a n off len last data s).hid.xfer = some (chunkXfer a (slotOf n) off len last s.now) := rfl

theorem mem_out_programChunk {data : List Byte} :
    .flash s.now (slotOf n) off data ∈ (programChunk a n off len last data s).out := by simp [programChunk]

theorem out_programChunk {data : List Byte} (h : e ∈ s.out) : e ∈ (programChunk a n off len last data s).out := by
  simp [programChunk, h]

section
variable (h8 : b.length = 8 + fld b 2 2) (hslot : fld b 0 1 ≤ 1)
include h8 hslot

theorem chunk_whole : ¬(b.length < 8 ∨ ¬b.length - 8 = fld b 2 2) ∧ ¬1 < fld b 0 1 := by omega

/-- A first chunk begins at offset 0. -/
theorem transferWork_elsewhere (hf : hasBit (fld b 1 1) 0 = true) (ho : fld b 4 4 ≠ 0) :
    transferWork a b s = refuse 2 s := by
  obtain ⟨whole, slot⟩ := chunk_whole h8 hslot
  have elsewhere : (hasBit (fld b 1 1) 0 && fld b 4 4 != 0) = true := by simp [hf, ho]
  simp [transferWork, whole, slot, elsewhere]

variable (hb : s.supply.bankQ.brown = false) (hr : s.boot.runSlot ≠ some (slotOf (fld b 0 1)))
  (hq : flashBusy s = false)
include hb hr hq

/-- The chunk that the transfer expects next is programmed. -/
theorem transferWork_next (hx : s.hid.xfer = some x) (hs : x.slot = slotOf (fld b 0 1)) (ho : fld b 4 4 = x.next)
    (hf : hasBit (fld b 1 1) 0 = false) (hn : ¬(fld b 4 4 = x.lastOffset ∧ fld b 2 2 = x.lastLen))
    (hc : chunkStatus (fld b 2 2) (fld b 4 4) (hasBit (fld b 1 1) 1) = 0) : transferWork a b s =
      (programChunk a (fld b 0 1) (fld b 4 4) (fld b 2 2) (hasBit (fld b 1 1) 1) (b.drop 8) s, none) := by
  obtain ⟨whole, slot⟩ := chunk_whole h8 hslot
  simp [transferWork, whole, slot, hf, hb, hr, hq, hx, hs, hn, ← ho, hc]

/-- The first chunk erases the slot before it is programmed. -/
theorem transferWork_first (hx : s.hid.xfer = none) (ho : fld b 4 4 = 0) (hf : hasBit (fld b 1 1) 0 = true)
    (hc : chunkStatus (fld b 2 2) (fld b 4 4) (hasBit (fld b 1 1) 1) = 0) : transferWork a b s =
      (programChunk a (fld b 0 1) (fld b 4 4) (fld b 2 2) (hasBit (fld b 1 1) 1) (b.drop 8)
        (emit (.flashErase s.now (slotOf (fld b 0 1))) s), none) := by
  obtain ⟨whole, slot⟩ := chunk_whole h8 hslot
  rw [ho] at hc
  simp [transferWork, whole, slot, hf, hb, hr, hq, hx, ho, hc]

/-- The last chunk again is answered again, and the 10 s start anew. -/
theorem transferWork_again (hx : s.hid.xfer = some x) (hs : x.slot = slotOf (fld b 0 1))
    (hf : hasBit (fld b 1 1) 0 = true → fld b 4 4 = 0) (ho : fld b 4 4 = x.lastOffset) (hl : fld b 2 2 = x.lastLen) :
    transferWork a b s =
      answer (codePayload 0) (withXfer (some { x with idleDue := s.now + 8000000000 }) s) := by
  obtain ⟨whole, slot⟩ := chunk_whole h8 hslot
  have begins : (hasBit (fld b 1 1) 0 && fld b 4 4 != 0) = false := by
    cases first : hasBit (fld b 1 1) 0 with
    | false => rfl
    | true => simp [hf first]
  simp [transferWork, whole, slot, begins, hb, hr, hq, hx, hs, ← ho, ← hl, withXfer, transferIdle_eq]

end

theorem imageTransfer_completes (h : Proven p 8 r s) (lock : s.straps.mgmtLock = false) (hb : b = requestPayload r)
    (h8 : b.length = 8 + fld b 2 2) (hslot : fld b 0 1 ≤ 1) (brown : s.supply.bankQ.brown = false)
    (run : s.boot.runSlot ≠ some (slotOf (fld b 0 1))) (busy : flashBusy s = false) :
    ∃ t, exec (.imageTransfer p r) s = .next t ∧ SameBut [.xfer, .mgmtRx, .counters] s t ∧
      (hasBit (fld b 1 1) 0 = true → fld b 4 4 ≠ 0 →
        t.hid.xfer = s.hid.xfer ∧ Responded (askerOf p r) 8 2 [] s t) ∧
      (chunkStatus (fld b 2 2) (fld b 4 4) (hasBit (fld b 1 1) 1) = 0 →
        (s.hid.xfer = none ∧ hasBit (fld b 1 1) 0 = true ∧ fld b 4 4 = 0) ∨
        (∃ x, s.hid.xfer = some x ∧ x.slot = slotOf (fld b 0 1) ∧ fld b 4 4 = x.next ∧
          hasBit (fld b 1 1) 0 = false ∧ ¬(fld b 4 4 = x.lastOffset ∧ fld b 2 2 = x.lastLen)) →
        t.hid.xfer = some (chunkXfer (askerOf p r) (slotOf (fld b 0 1)) (fld b 4 4) (fld b 2 2)
          (hasBit (fld b 1 1) 1) s.now) ∧
        .flash s.now (slotOf (fld b 0 1)) (fld b 4 4) (b.drop 8) ∈ t.out ∧
        (s.hid.xfer = none → .flashErase s.now (slotOf (fld b 0 1)) ∈ t.out)) ∧
      (∀ x, s.hid.xfer = some x → x.slot = slotOf (fld b 0 1) → (hasBit (fld b 1 1) 0 = true → fld b 4 4 = 0) →
        fld b 4 4 = x.lastOffset → fld b 2 2 = x.lastLen →
        t.hid.xfer = some { x with idleDue := s.now + 8000000000 } ∧
        Responded (askerOf p r) 8 0 [0, 0, 0, 0] s t) := by
  subst hb
  have meaning : exec (.imageTransfer p r) s = _ := h.act
  obtain ⟨rx, high, found⟩ := accepted_eq (p := p) (op := 8) (r := r) (s := s)
  have works : lockedOr true false (transferWork (askerOf p r) (requestPayload r)) (accepted p 8 r s) =
      transferWork (askerOf p r) (requestPayload r) (accepted p 8 r s) := by
    simp [lockedOr, mgmtLock_accepted, lock]
  have left := h.leaves (work := lockedOr true false (transferWork (askerOf p r) (requestPayload r)))
  rw [works] at left
  refine ⟨_, meaning, (exec_frame meaning).mono (by simp [writes]), fun first elsewhere => ?_, fun form => ?_, fun x hx hs begins ho hl => ?_⟩
  · have refused := transferWork_elsewhere (a := askerOf p r) (s := accepted p 8 r s) h8 hslot first elsewhere
    obtain ⟨responded, same⟩ := h.refused (works.trans refused)
    exact ⟨(same .xfer (by decide)).symm, responded⟩
  · rintro (⟨hx, first, ho⟩ | ⟨x, hx, hs, ho, first, new⟩)
    · have programs := transferWork_first (a := askerOf p r) (s := withRx rx high s) h8 hslot brown run busy hx ho
        first form
      rw [← found] at programs
      rw [programs] at left
      refine ⟨(left .xfer (by decide)).symm.trans ?_, h.emitted (works.trans programs) ?_,
        fun _ => h.emitted (works.trans programs) ?_⟩
      · rw [found, xfer_programChunk]
        rfl
      · rw [found]
        exact mem_out_programChunk
      · rw [found]
        exact out_programChunk mem_out_emit
    · have programs := transferWork_next (a := askerOf p r) (s := withRx rx high s) h8 hslot brown run busy hx hs ho
        first new form
      rw [← found] at programs
      rw [programs] at left
      refine ⟨(left .xfer (by decide)).symm.trans ?_, h.emitted (works.trans programs) ?_,
        fun none => absurd (hx.symm.trans none) nofun⟩
      · rw [found, xfer_programChunk]
        rfl
      · rw [found]
        exact mem_out_programChunk
  · have again := transferWork_again (a := askerOf p r) (s := withRx rx high s) h8 hslot brown run busy hx hs begins
      ho hl
    rw [← found] at again
    rw [again] at left
    refine ⟨(left .xfer (by decide)).symm.trans ?_, h.responds (works.trans again) alike_accepted.withXfer⟩
    rw [found]
    rfl

/-! ### A slot stands down (03 R50) -/

/-- The lowest bit of a number counts with the bits above it. -/
theorem popCount_halved {m : Nat} : popCount (n + 1) m = m % 2 + popCount n (m / 2) := by
  have above : (fun i => m.testBit (i + 1)) = (m / 2).testBit := by
    funext i
    rw [Nat.testBit_add_one]
  have low : (m.testBit 0).toNat = m % 2 := by
    rw [Nat.testBit_zero]
    rcases Nat.mod_two_eq_zero_or_one m with h | h <;> simp [h]
  rw [← low]
  simp only [popCount, List.range_succ_eq_map, List.filter_cons, List.filter_map, Function.comp_def,
    Nat.succ_eq_add_one, above]
  cases m.testBit 0 <;> simp [Nat.add_comm]

/-- The lowest 1 bit of a number is the one that `m - 1` clears. -/
theorem popCount_clearLowest {m : Nat} (h0 : 0 < m) (hm : m < 2 ^ n) : popCount n (m &&& (m - 1)) + 1 = popCount n m := by
  induction n generalizing m with
  | zero => omega
  | succ n ih =>
    have low : (m &&& (m - 1)) % 2 = m % 2 &&& (m - 1) % 2 := Nat.and_mod_two_pow (n := 1)
    rw [popCount_halved, popCount_halved, Nat.and_div_two, low]
    rcases Nat.mod_two_eq_zero_or_one m with even | odd
    · have above : (m - 1) / 2 = m / 2 - 1 := by omega
      have counted := ih (m := m / 2) (by omega) (by omega)
      simp only [even, Nat.zero_and, above]
      omega
    · have same : (m - 1) / 2 = m / 2 := by omega
      have cleared : (m - 1) % 2 = 0 := by omega
      simp only [odd, cleared, same, Nat.and_zero, Nat.and_self]
      omega

theorem popCount_le {m : Nat} : popCount n m ≤ n := by
  have le := List.length_filter_le m.testBit (List.range n)
  rwa [List.length_range] at le

theorem toNat_clearStand (h : w ≠ 0) : (clearStand w).toNat = w.toNat &&& (w.toNat - 1) := by
  have one : (1 : BitVec 32) ≤ w := by bv_omega
  rw [clearStand, BitVec.toNat_and, BitVec.toNat_sub_of_le one]
  rfl

/-- One 1 bit less makes an even number of zero bits odd. -/
theorem stoodDown_clearStand (h : w ≠ 0) (hw : stoodDown w = false) : stoodDown (clearStand w) = true := by
  have positive : 0 < w.toNat := by bv_omega
  have cleared := popCount_clearLowest positive w.isLt
  have bits := popCount_le (n := 32) (m := w.toNat)
  simp only [stoodDown, toNat_clearStand h, beq_eq_false_iff_ne, beq_iff_eq] at hw ⊢
  omega

theorem standWord_of_boot (h : t.boot = u.boot) : standWord t y = standWord u y := by simp only [standWord, h]

theorem standWord_writeStand : standWord (writeStand y w s) y = w := by
  simp only [writeStand]
  split
  next same => exact same
  next => cases y <;> rfl

theorem stoodDown_standDown : stoodDown (standWord (standDown y s) y) = true := by
  simp only [standDown]
  split
  next stood => exact stood
  next up =>
    rw [Bool.not_eq_true] at up
    split
    next => rw [standWord_writeStand]; decide
    next ones => rw [standWord_writeStand]; exact stoodDown_clearStand ones up

/-! ### A chunk's flash work ends -/

theorem Alike.writeStand (h : Alike s u) : Alike s (writeStand y w u) := by
  simp only [Machine.writeStand]
  split
  · exact h
  · cases y <;> exact ⟨h.queues, fun a op status payload => Eq.trans rfl (h.bytes a op status payload)⟩

theorem Alike.emit (h : Alike s u) : Alike s (emit e u) :=
  ⟨h.queues, fun a op status payload => Eq.trans rfl (h.bytes a op status payload)⟩

theorem Alike.setStand (h : Alike s u) : Alike s (setStand y w u) := by
  cases y <;> exact ⟨h.queues, fun a op status payload => Eq.trans rfl (h.bytes a op status payload)⟩

theorem Alike.standDown (h : Alike s u) : Alike s (standDown y u) := by
  simp only [Machine.standDown]
  (repeat' split)
  · exact h
  · exact h.setStand.emit.writeStand
  · exact h.writeStand

theorem exec_imageTransferDone {f : FlashResult} (hs : hidServes s = true) (hx : s.hid.xfer = some x)
    (hb : x.busy = some a) : exec (.imageTransferDone f) s = .next (publish s (finishChunk x a f s)) := by
  simp [exec, execImageTransferDone, act, hs, hx, hb]

/-- The state on which a finished transfer's last answer is made. -/
def slotFinished (y : Slot) (s : State) : State := withXfer none (standDown y s)

theorem finishChunk_failed {f : FlashResult} (hf : f.programmed = false) :
    finishChunk x a f s = respond a 8 0x0B [] (withXfer none s) := by
  simp [finishChunk, hf, withXfer]

theorem finishChunk_next {f : FlashResult} (hf : f.programmed = true) (hl : x.lastChunk = false) : finishChunk x a f s =
    respond a 8 0 (codePayload 0) (withXfer (some { x with busy := none, idleDue := s.now + 8000000000 }) s) := by
  simp [finishChunk, hf, hl, withXfer, transferIdle_eq]

theorem finishChunk_last {f : FlashResult} {c : Nat} (hf : f.programmed = true) (hl : x.lastChunk = true)
    (hc : c = (checkRegion (standDown x.slot s) x.slot f.read).code) :
    finishChunk x a f s = respond a 8 (if c = 0 then 0 else 0x0C) (codePayload c) (slotFinished x.slot s) := by
  simp [finishChunk, hf, hl, hc, slotFinished, withXfer]

theorem imageTransferDone_completes {f : FlashResult} (hs : hidServes s = true) (hx : s.hid.xfer = some x)
    (hb : x.busy = some a) :
    ∃ t, exec (.imageTransferDone f) s = .next t ∧ SameBut [.boot, .xfer, .counters] s t ∧
      (f.programmed = false → t.hid.xfer = none ∧ Responded a 8 0x0B [] s t) ∧
      (f.programmed = true → x.lastChunk = false → t.hid.xfer = some { x with
          busy := none, idleDue := s.now + 8000000000 } ∧
        Responded a 8 0 [0, 0, 0, 0] s t) ∧
      (f.programmed = true → x.lastChunk = true → t.hid.xfer = none ∧ stoodDown (standWord t x.slot) = true ∧
        ∀ c, c = (checkRegion (standDown x.slot s) x.slot f.read).code →
          Responded a 8 (if c = 0 then 0 else 0x0C) (codePayload c) s t) := by
  have meaning := exec_imageTransferDone (f := f) hs hx hb
  refine ⟨_, meaning, exec_frame meaning, fun hf => ?_, fun hf hl => ?_, fun hf hl => ?_⟩
  · rw [finishChunk_failed hf]
    exact ⟨(sameBut_responded .xfer (by decide)).symm, Alike.refl.withXfer.responded⟩
  · rw [finishChunk_next hf hl]
    exact ⟨(sameBut_responded .xfer (by decide)).symm, Alike.refl.withXfer.responded⟩
  · rw [finishChunk_last hf hl rfl]
    refine ⟨(sameBut_responded .xfer (by decide)).symm, ?_, fun c hc => ?_⟩
    · rw [standWord_of_boot (sameBut_responded .boot (by decide)).symm]
      exact stoodDown_standDown
    · subst hc
      exact Alike.refl.standDown.withXfer.responded

theorem transferIdleTimeout_completes (hs : hidServes s = true) (hx : s.hid.xfer = some x) (hb : x.busy = none)
    (hd : x.idleDue ≤ s.now) :
    ∃ t, exec .transferIdleTimeout s = .next t ∧ SameBut [.xfer] s t ∧ t.hid.xfer = none := by
  have meaning : exec .transferIdleTimeout s = .next (publish s (withXfer none s)) := by
    simp [exec, execTransferIdleTimeout, act, hs, hx, hb, hd, withXfer]
  refine ⟨_, meaning, exec_frame meaning, ?_⟩
  exact published (o := s) (t := withXfer none s) .xfer

/-- Settles O48: a chunk by the four ways it may arrive, its flash work by how it ends, and the idle limit. -/
theorem imageTransferCompletes : Obligations.ImageTransferCompletes := by
  unfold Obligations.ImageTransferCompletes
  intro s
  refine ⟨?_, fun x a f hs hx hb => imageTransferDone_completes hs hx hb,
    fun x hs hx hb hd => transferIdleTimeout_completes hs hx hb hd⟩
  rintro p r b slot len off last hb h lock h8 rfl hslot rfl rfl rfl brown run busy
  exact imageTransfer_completes h lock hb h8 hslot brown run busy

end Sys2Proof.Machine
end

section
/-!
SUPPORT. SLOT SWITCH and ROLLBACK-FLOOR RAISE (13 R297, R298; 03 R50).
-/
namespace Sys2Proof.Machine

variable {s t u : State} {a : Asker} {n i : Nat} {b : List Byte} {p : Port} {r : HidFrame} {w wo : BitVec 32}
  {x y : Slot} {z : Switch} {o : SlotRead} {f : BitVec 127}

/-! ### SLOT SWITCH is asked for (R297) -/

/-- The switch in progress is another one. -/
def withSwitch (z : Option Switch) (s : State) : State := { s with hid := { s.hid with switch := z } }

theorem Alike.withSwitch {z : Option Switch} (h : Alike s u) : Alike s (withSwitch z u) :=
  ⟨h.queues, fun a op status payload => Eq.trans rfl (h.bytes a op status payload)⟩

theorem switchWork_beyond (h4 : b.length = 4) (h : 1 < fld b 0 1) : switchWork a b s = refuse 0x0A s := by
  simp [switchWork, h4, h]

theorem switchWork_busy (h4 : b.length = 4) (h : fld b 0 1 ≤ 1)
    (hb : s.hid.xfer.isSome = true ∨ s.hid.switch.isSome = true) : switchWork a b s = refuse 6 s := by
  simp only [switchWork, h4, Nat.not_lt.2 h, hb, ne_eq, not_true_eq_false, ↓reduceIte]

theorem switchWork_waits (h4 : b.length = 4) (h : fld b 0 1 ≤ 1) (hx : s.hid.xfer = none) (hs : s.hid.switch = none) :
    switchWork a b s =
      (withSwitch (some { slot := slotOf (fld b 0 1), asker := a, answer := none, resetAt := none }) s, none) := by
  simp [switchWork, h4, Nat.not_lt.2 h, hx, hs, withSwitch]

theorem slotSwitch_completes (hb : b = requestPayload r) (h : Proven p 9 r s) (h4 : b.length = 4) :
    ∃ t, exec (.slotSwitch p r) s = .next t ∧ SameBut [.switch, .mgmtRx, .counters] s t ∧
      (1 < fld b 0 1 → t.hid.switch = s.hid.switch ∧ Responded (askerOf p r) 9 0x0A [] s t) ∧
      (fld b 0 1 ≤ 1 → s.hid.xfer.isSome = true ∨ s.hid.switch.isSome = true →
        t.hid.switch = s.hid.switch ∧ Responded (askerOf p r) 9 6 [] s t) ∧
      (fld b 0 1 ≤ 1 → s.hid.xfer = none → s.hid.switch = none → t.hid.switch =
        some { slot := slotOf (fld b 0 1), asker := askerOf p r, answer := none, resetAt := none }) := by
  subst hb
  have meaning : exec (.slotSwitch p r) s = _ := h.act
  obtain ⟨rx, high, found⟩ := accepted_eq (p := p) (op := 9) (r := r) (s := s)
  refine ⟨_, meaning, (exec_frame meaning).mono (by simp [writes]), fun beyond => ?_, fun named busy => ?_,
    fun named hx hs => ?_⟩
  · obtain ⟨responded, same⟩ := h.refused (switchWork_beyond (a := askerOf p r) h4 beyond)
    exact ⟨(same .switch (by decide)).symm, responded⟩
  · have stillBusy : (accepted p 9 r s).hid.xfer.isSome = true ∨ (accepted p 9 r s).hid.switch.isSome = true := by
      rw [found]
      exact busy
    obtain ⟨responded, same⟩ := h.refused (switchWork_busy (a := askerOf p r) h4 named stillBusy)
    exact ⟨(same .switch (by decide)).symm, responded⟩
  · have left := h.leaves (work := switchWork (askerOf p r) (requestPayload r))
    rw [found, switchWork_waits (s := withRx rx high s) h4 named hx hs] at left
    exact (left .switch (by decide)).symm

/-! ### Its checks end -/

theorem standWord_writeStand_other (h : y ≠ x) : standWord (writeStand x w s) y = standWord s y := by
  simp only [writeStand]
  split
  · rfl
  · match x, y with
    | .a, .b | .b, .a => rfl
    | .a, .a | .b, .b => exact absurd rfl h

theorem otherSlot_ne : x ≠ otherSlot x := by cases x <;> decide

/-- The two words that an accepted switch programs. -/
def switched (x : Slot) (w wo : BitVec 32) (s : State) : State := writeStand (otherSlot x) wo (writeStand x w s)

theorem standWords_switched : standWord (switched x w wo s) x = w ∧ standWord (switched x w wo s) (otherSlot x) = wo :=
  ⟨(standWord_writeStand_other otherSlot_ne).trans standWord_writeStand, standWord_writeStand⟩

theorem now_writeStand : (writeStand x w s).now = s.now := by
  simp only [writeStand]
  split
  · rfl
  · cases x <;> rfl

theorem finishSwitch_failed (hc : (checkRegion s z.slot o).code ≠ 0) : finishSwitch z o s =
    respond z.asker 9 0x0C (codePayload (checkRegion s z.slot o).code) (withSwitch none s) := by
  simp [finishSwitch, hc, withSwitch]

theorem finishSwitch_spent (hc : (checkRegion s z.slot o).code = 0) (hw : switchWords s z.slot = none) :
    finishSwitch z o s = respond z.asker 9 0x0E [] (bumpDev 14 (withSwitch none s)) := by
  simp [finishSwitch, hc, hw, withSwitch]

theorem finishSwitch_accepted (hc : (checkRegion s z.slot o).code = 0) (hw : switchWords s z.slot = some (w, wo)) :
    finishSwitch z o s = acceptSwitch z (switched z.slot w wo s) := by
  simp [finishSwitch, hc, hw, switched]

/-- An accepted switch has its answer under way, or its reset falls due at once. -/
theorem acceptSwitch_leaves : ∃ y, acceptSwitch z s = withSwitch (some y) (respond z.asker 9 0 (codePayload 0) s) ∧
    y.slot = z.slot ∧ (y.answer.isSome = true ∨ y.resetAt = some s.now) := by
  refine ⟨_, rfl, rfl, ?_⟩
  have now : (respond z.asker 9 0 (codePayload 0) s).now = s.now := (sameBut_respond_zero .now (by decide)).symm
  cases frameAlive (respond z.asker 9 0 (codePayload 0) s) s.frameIds with
  | true => exact .inl rfl
  | false => exact .inr (congrArg some now)

theorem exec_slotSwitchCheckDone (hs : hidServes s = true) (hz : s.hid.switch = some z) (ha : z.answer = none)
    (hr : z.resetAt = none) : exec (.slotSwitchCheckDone o) s = .next (publish s (finishSwitch z o s)) := by
  simp [exec, execSlotSwitchCheckDone, act, hs, switchChecking, hz, ha, hr]

theorem slotSwitchCheckDone_completes (hs : hidServes s = true) (hz : s.hid.switch = some z) (ha : z.answer = none)
    (hr : z.resetAt = none) (hc : n = (checkRegion s z.slot o).code) :
    ∃ t, exec (.slotSwitchCheckDone o) s = .next t ∧ SameBut [.boot, .switch, .counters] s t ∧
      (n ≠ 0 → t.hid.switch = none ∧ t.boot = s.boot ∧ Responded z.asker 9 0x0C (codePayload n) s t) ∧
      (n = 0 → switchWords s z.slot = none →
        t.hid.switch = none ∧ t.boot = s.boot ∧ Responded z.asker 9 0x0E [] s t) ∧
      (∀ w wo, n = 0 → switchWords s z.slot = some (w, wo) →
        standWord t z.slot = w ∧ standWord t (otherSlot z.slot) = wo ∧ ∃ y, t.hid.switch = some y ∧
          y.slot = z.slot ∧ (y.answer.isSome = true ∨ y.resetAt = some s.now)) := by
  subst hc
  have meaning := exec_slotSwitchCheckDone (o := o) hs hz ha hr
  refine ⟨_, meaning, (exec_frame meaning).mono (by simp [writes]), fun bad => ?_, fun good spent => ?_,
    fun w wo good words => ?_⟩
  · rw [finishSwitch_failed bad]
    exact ⟨(sameBut_responded .switch (by decide)).symm, (sameBut_responded .boot (by decide)).symm,
      Alike.refl.withSwitch.responded⟩
  · rw [finishSwitch_spent good spent]
    exact ⟨(sameBut_responded .switch (by decide)).symm, (sameBut_responded .boot (by decide)).symm,
      Alike.responded ⟨rfl, fun _ _ _ _ => rfl⟩⟩
  · rw [finishSwitch_accepted good words]
    obtain ⟨y, accepts, slot, ends⟩ := acceptSwitch_leaves (z := z) (s := switched z.slot w wo s)
    have same : SameBut [.switch] (switched z.slot w wo s) (publish s (acceptSwitch z (switched z.slot w wo s))) := by
      rw [accepts, same_publish]
      have answered : SameBut [.switch] (switched z.slot w wo s)
          (respond z.asker 9 0 (codePayload 0) (switched z.slot w wo s)) := sameBut_respond_zero.mono (by simp)
      simpa [withSwitch] using answered
    have boot := (same .boot (by decide)).symm
    refine ⟨?_, ?_, y, ?_, slot, ?_⟩
    · rw [standWord_of_boot boot, standWords_switched.1]
    · rw [standWord_of_boot boot, standWords_switched.2]
    · rw [accepts]
      exact published (o := s) (t := withSwitch (some y) (respond z.asker 9 0 (codePayload 0) (switched z.slot w wo s))) .switch
    · rw [switched, now_writeStand, now_writeStand] at ends
      exact ends

/-! ### ROLLBACK-FLOOR RAISE (R298) -/

section
variable (h4 : b.length = 4) (hr : s.hid.raise = none)
include h4 hr

theorem raiseWork_refused (h : 127 < fld b 0 1 ∨ fld b 0 1 < otpFloor s.otp) :
    raiseWork a b s = (s, some (0x0D, floorPayload s)) := by
  simp only [raiseWork, h4, hr, h, ne_eq, not_true_eq_false, Option.isSome_none, Bool.false_eq_true, ↓reduceIte]

theorem raiseWork_reached (h : fld b 0 1 = otpFloor s.otp) : raiseWork a b s = answer (floorPayload s) s := by
  have bits : otpFloor s.otp ≤ 127 := popCount_le
  have fits : ¬(127 < otpFloor s.otp ∨ otpFloor s.otp < otpFloor s.otp) := by omega
  simp only [raiseWork, h4, hr, h, fits, ne_eq, not_true_eq_false, Option.isSome_none, Bool.false_eq_true, ↓reduceIte]

theorem raiseWork_waits (h : otpFloor s.otp < fld b 0 1) (h127 : fld b 0 1 ≤ 127) : raiseWork a b s =
    ({ s with hid := { s.hid with raise := some { target := fld b 0 1, asker := a } } }, none) := by
  have fits : ¬(127 < fld b 0 1 ∨ fld b 0 1 < otpFloor s.otp) := by omega
  simp only [raiseWork, h4, hr, fits, h.ne', ne_eq, not_true_eq_false, Option.isSome_none, Bool.false_eq_true,
    ↓reduceIte]

end

theorem raise_accepted {op : Nat} : (accepted p op r s).hid.raise = s.hid.raise :=
  (sameBut_accepted (p := p) (op := op) (r := r) .raise (by decide)).symm

theorem otp_accepted {op : Nat} : (accepted p op r s).otp = s.otp :=
  (sameBut_accepted (p := p) (op := op) (r := r) .otp (by decide)).1.symm

theorem rollbackFloorRaise_completes (hb : b = requestPayload r) (h : Proven p 10 r s)
    (lock : s.straps.mgmtLock = false) (bare : inBare s = false) (h4 : b.length = 4) (hr : s.hid.raise = none) :
    ∃ t, exec (.rollbackFloorRaise p r) s = .next t ∧ SameBut [.raise, .mgmtRx, .counters] s t ∧
      (127 < fld b 0 1 ∨ fld b 0 1 < otpFloor s.otp →
        t.hid.raise = none ∧ Responded (askerOf p r) 10 0x0D (floorPayload s) s t) ∧
      (fld b 0 1 = otpFloor s.otp → t.hid.raise = none ∧ Responded (askerOf p r) 10 0 (floorPayload s) s t) ∧
      (otpFloor s.otp < fld b 0 1 → fld b 0 1 ≤ 127 →
        t.hid.raise = some { target := fld b 0 1, asker := askerOf p r }) := by
  subst hb
  have meaning : exec (.rollbackFloorRaise p r) s = _ := h.act
  obtain ⟨rx, high, found⟩ := accepted_eq (p := p) (op := 10) (r := r) (s := s)
  have works : lockedOr true true (raiseWork (askerOf p r) (requestPayload r)) (accepted p 10 r s) =
      raiseWork (askerOf p r) (requestPayload r) (accepted p 10 r s) :=
    lockedOr_unlocked (.inr (mgmtLock_accepted.trans lock)) (inBare_accepted.trans bare)
  have left := h.leaves (work := lockedOr true true (raiseWork (askerOf p r) (requestPayload r)))
  rw [works] at left
  refine ⟨_, meaning, (exec_frame meaning).mono (by simp [writes]), fun refused => ?_, fun reached => ?_,
    fun above fits => ?_⟩
  · have does := raiseWork_refused (a := askerOf p r) (s := accepted p 10 r s) h4 (raise_accepted.trans hr)
      (by rw [otp_accepted]; exact refused)
    rw [does] at left
    rw [floorPayload, otp_accepted] at does
    exact ⟨(left .raise (by decide)).symm.trans (raise_accepted.trans hr), h.responds (works.trans does) alike_accepted⟩
  · have does := raiseWork_reached (a := askerOf p r) (s := accepted p 10 r s) h4 (raise_accepted.trans hr)
      (by rw [otp_accepted]; exact reached)
    rw [does] at left
    rw [floorPayload, otp_accepted] at does
    exact ⟨(left .raise (by decide)).symm.trans (raise_accepted.trans hr), h.answered (works.trans does)⟩
  · rw [found, raiseWork_waits (s := withRx rx high s) h4 hr above fits] at left
    exact (left .raise (by decide)).symm

/-! ### Fuses are blown -/

theorem getLsbD_blown {l : List Nat} (hi : i < 127) :
    (l.foldl (fun g i => g ||| ((1 : BitVec 127) <<< i)) f).getLsbD i = (f.getLsbD i || decide (i ∈ l)) := by
  induction l generalizing f with
  | nil => simp
  | cons j l ih =>
    have bit : ((1 : BitVec 127) <<< j).getLsbD i = decide (i = j) := by
      rw [Bool.eq_iff_iff]
      simp [hi]
      omega
    rw [List.foldl_cons, ih, BitVec.getLsbD_or, bit]
    simp [Bool.or_assoc]

/-- The bits of two disjoint sets count apart. -/
theorem popCount_joined {k m m' : Nat} {l : List Nat} (hl : l.Nodup) (hk : ∀ i ∈ l, i < k ∧ m.testBit i = false)
    (hm : ∀ i < k, m'.testBit i = (m.testBit i || decide (i ∈ l))) : popCount k m' = popCount k m + l.length := by
  have joined : ((List.range k).filter m'.testBit).Perm ((List.range k).filter m.testBit ++ l) := by
    refine (List.perm_ext_iff_of_nodup (List.nodup_range.filter _) ?_).2 fun i => ?_
    · refine (List.nodup_range.filter _).append hl fun i hi hi' => ?_
      simp [(hk i hi').2] at hi
    · simp only [List.mem_filter, List.mem_range, List.mem_append]
      constructor
      · rintro ⟨hi, set⟩
        rw [hm i hi] at set
        simpa [hi] using set
      · rintro (⟨hi, set⟩ | hi)
        · simp [hi, hm i hi, set]
        · simp [(hk i hi).1, hm i (hk i hi).1, hi]
  rw [popCount, popCount, joined.length_eq, List.length_append]

theorem popCount_unset {k m : Nat} : ((List.range k).filter fun i => !m.testBit i).length = k - popCount k m := by
  have all := List.length_eq_length_filter_add (l := List.range k) fun i => m.testBit i
  rw [List.length_range] at all
  simp only [popCount]
  omega

/-- Blowing `n` fuses raises the floor by `n` (13 R298). -/
theorem popCount_blowFuses (h : popCount 127 f.toNat + n ≤ 127) :
    popCount 127 (blowFuses n f).toNat = popCount 127 f.toNat + n := by
  have taken := popCount_unset (k := 127) (m := f.toNat)
  have joined := popCount_joined (k := 127) (m := f.toNat) (m' := (blowFuses n f).toNat)
    (l := ((List.range 127).filter fun i => !f.getLsbD i).take n) ?_ (fun i hi => ?_) fun i hi => getLsbD_blown hi
  · rw [joined, List.length_take]
    simp only [BitVec.getLsbD] at *
    omega
  · exact ((List.nodup_range.filter _).sublist (List.take_sublist _ _))
  · have unset := List.mem_of_mem_take hi
    simpa [BitVec.getLsbD] using unset

/-! ### The raise ends -/

/-- The OTP after a raise, and the state that answers it. -/
def raised (z : Raise) (s : State) : State :=
  blowOtp { s.otp with floor := blowFuses (z.target - otpFloor s.otp) s.otp.floor }
    { s with hid := { s.hid with raise := none } }

theorem otpFloor_raised {z : Raise} (h : otpFloor s.otp ≤ z.target) (h127 : z.target ≤ 127) :
    otpFloor (raised z s).otp = z.target := by
  have reached := popCount_blowFuses (f := s.otp.floor) (n := z.target - otpFloor s.otp) (by rw [otpFloor] at h ⊢; omega)
  refine Eq.trans reached ?_
  rw [otpFloor] at h ⊢
  omega

theorem floorRaiseDone_completes {z : Raise} (hs : hidServes s = true) (hz : s.hid.raise = some z)
    (h : otpFloor s.otp ≤ z.target) (h127 : z.target ≤ 127) :
    ∃ t, exec .floorRaiseDone s = .next t ∧ SameBut [.otp, .raise, .counters] s t ∧ t.hid.raise = none ∧
      otpFloor t.otp = z.target ∧ Responded z.asker 10 0 [BitVec.ofNat 8 z.target, 0, 0, 0] s t := by
  have payload : floorPayload (raised z s) = [BitVec.ofNat 8 z.target, 0, 0, 0] := by
    rw [floorPayload, otpFloor_raised h h127]
    rfl
  have meaning : exec .floorRaiseDone s =
      .next (publish s (respond z.asker 10 0 [BitVec.ofNat 8 z.target, 0, 0, 0] (raised z s))) := by
    rw [← payload]
    simp [exec, execFloorRaiseDone, act, hs, hz, raised]
  refine ⟨_, meaning, exec_frame meaning, (sameBut_responded .raise (by decide)).symm, ?_,
    Alike.responded ⟨rfl, fun _ _ _ _ => rfl⟩⟩
  rw [← (sameBut_responded .otp (by decide)).1]
  exact otpFloor_raised h h127

/-- Settles O49: each request by what it names, a switch by its checks, and a raise by the fuses it blows. -/
theorem switchAndRaiseComplete : Obligations.SwitchAndRaiseComplete := by
  unfold Obligations.SwitchAndRaiseComplete
  intro s
  exact ⟨fun p r b hb h h4 => slotSwitch_completes hb h h4,
    fun z o n hs hz ha hr hc => slotSwitchCheckDone_completes hs hz ha hr hc,
    fun p r b hb h lock bare h4 hr => rollbackFloorRaise_completes hb h lock bare h4 hr,
    fun z hs hz h h127 => floorRaiseDone_completes hs hz h h127⟩

end Sys2Proof.Machine
end

section
/-!
SUPPORT. The levels S0 to S2 (14 R307, R311, R312, R314): what a level's entry puts deep, and what a drop wakes.
-/
namespace Sys2Proof.Machine

variable {s t : State} {j k n : Nat} {p : Nat}

/-! ### Sleepers go deep, and begin their exit -/

theorem link_goDeep : link (goDeep j s) k =
    if k = j ∧ (link s k).asleep = true then { link s k with deep := true } else link s k := by
  by_cases same : k = j
  · subst same
    simp only [goDeep, true_and]
    split <;> simp [*]
  · simp only [goDeep]
    split <;> simp [same]

theorem link_endDeep : link (endDeep j s) k = if k = j ∧ (link s k).deep = true then
    { link s k with deep := false, wakeEnd := s.now + nsCk 7600 } else link s k := by
  by_cases same : k = j
  · subst same
    simp only [endDeep, true_and]
    split <;> simp [*]
  · simp only [endDeep]
    split <;> simp [same]

/-- The ck by which a sleeping link's lanes are awake (R312, R314). -/
def awakeAt (s : State) (k : Nat) : Nat :=
  max s.now (link s k).wakeEnd + nsCk 400 + (if (link s k).deep then nsCk 7600 else 0)

theorem link_wakeLink_eq : link (wakeLink j s) k = if k = j ∧ (link s k).asleep = true then
    { link s k with asleep := false, deep := false, wakeEnd := awakeAt s k, idleSince := awakeAt s k } else
      link s k := by
  by_cases same : k = j
  · subst same
    simp only [wakeLink, true_and]
    split <;> simp [*, awakeAt]
  · simp only [wakeLink]
    split <;> simp [same]

/-- A level of S2 or deeper powers every sleeping link's transmitter down. -/
theorem deep_each_goDeep (hk : k < 32) (h : (link s k).asleep = true) :
    (link (each (List.range 32) goDeep s) k).deep = true := by
  refine each_establishes (P := fun u => (link u k).asleep = true) (Q := fun u => (link u k).deep = true)
    (List.mem_range.2 hk) (fun j u sleeps => ?_) (fun u sleeps => ?_) (fun j u _ deep => ?_) h
  · rw [link_goDeep]
    split <;> exact sleeps
  · rw [link_goDeep, if_pos ⟨rfl, sleeps⟩]
  · rw [link_goDeep]
    split
    · rfl
    · exact deep

/-- Below S2 no transmitter stays powered down. -/
theorem deep_each_endDeep (hk : k < 32) : (link (each (List.range 32) endDeep s) k).deep = false := by
  refine each_establishes (P := fun _ => True) (Q := fun u => (link u k).deep = false)
    (List.mem_range.2 hk) (fun _ _ _ => trivial) (fun u _ => ?_) (fun j u _ up => ?_) trivial
  · rw [link_endDeep]
    split
    next => rfl
    next up => simpa using up
  · rw [link_endDeep]
    split
    · rfl
    · exact up

theorem deep_each_wakeLink {ks : List Nat} (h : (link s k).deep = false) :
    (link (each ks wakeLink s) k).deep = false := by
  refine each_invariant (P := fun u => (link u k).deep = false) (fun j _ u up => ?_) h
  rw [link_wakeLink_eq]
  split
  · rfl
  · exact up

/-- At S0 no lane sleeps. -/
theorem asleep_each_wakeLink (hk : k < 32) : (link (each (List.range 32) wakeLink s) k).asleep = false := by
  refine each_establishes (P := fun _ => True) (Q := fun u => (link u k).asleep = false)
    (List.mem_range.2 hk) (fun _ _ _ => trivial) (fun u _ => ?_) (fun j u _ awake => ?_) trivial
  · rw [link_wakeLink_eq]
    split
    next => rfl
    next awake => simpa using awake
  · rw [link_wakeLink_eq]
    split
    · rfl
    · exact awake

theorem sendAfter_beginPortWake (hl : (port s p).lowPower = true) (ha : (port s p).sendAfter = 0) :
    (port (beginPortWake p s) p).sendAfter = s.now + 6400 := by
  simp [beginPortWake, hl, ha, usCk]

theorem wakes_beginPortWake_other {q : Nat} (h : p ≠ q) :
    (port (beginPortWake q s) p, (beginPortWake q s).now) = (port s p, s.now) := by
  simp only [beginPortWake]
  split
  · simp [h]
  · rfl

theorem sendAfter_each_beginPortWake (hp : p < 4) (hl : (port s p).lowPower = true) (ha : (port s p).sendAfter = 0) :
    (port (each (List.range 4) beginPortWake s) p).sendAfter = s.now + 6400 := by
  obtain ⟨u, before, after⟩ := each_once (g := fun u => (port u p, u.now)) (s := s) (op := beginPortWake)
    (List.mem_range.2 hp) List.nodup_range fun q other u => wakes_beginPortWake_other other.symm
  obtain ⟨same, now⟩ := Prod.mk.inj before
  obtain ⟨wakes, -⟩ := Prod.mk.inj after
  rw [wakes, sendAfter_beginPortWake (by rw [same]; exact hl) (by rw [same]; exact ha), now]

theorem port_endDeep : port (endDeep j s) = port s := by
  simp only [endDeep]
  split <;> rfl

theorem port_wakeLink : port (wakeLink j s) = port s := by
  simp only [wakeLink]
  split <;> rfl

/-! ### A level is left -/

theorem deep_leaveLevel (hk : k < 32) (hn : n < 2) : (link (leaveLevel n s) k).deep = false := by
  simp only [leaveLevel, hn, ↓reduceIte]
  split
  · exact deep_each_wakeLink (deep_each_endDeep hk)
  · exact deep_each_endDeep hk

theorem asleep_leaveLevel_zero (hk : k < 32) : (link (leaveLevel 0 s) k).asleep = false := by
  simp only [leaveLevel, ↓reduceIte]
  exact asleep_each_wakeLink hk

theorem sendAfter_leaveLevel (hp : p < 4) (hn : n < 2) (hl : (port s p).lowPower = true)
    (ha : (port s p).sendAfter = 0) : (port (leaveLevel n s) p).sendAfter = s.now + 6400 := by
  have begun := sendAfter_each_beginPortWake hp hl ha
  have ended : ∀ u : State, port (each (List.range 32) endDeep u) = port u := fun u => each_keeps fun j u => port_endDeep
  have woken : ∀ u : State, port (each (List.range 32) wakeLink u) = port u := fun u => each_keeps fun j u => port_wakeLink
  simp only [leaveLevel, hn, ↓reduceIte]
  split
  · rw [woken, ended]
    exact begun
  · rw [ended]
    exact begun

/-! ### The level moves -/

/-- What sleeps before the level is counted and shown. -/
def sleepersAt (n : Nat) (s : State) : State := if 2 ≤ n then each (List.range 32) goDeep s else leaveLevel n s

/-- A level that is entered and shown. -/
def enterLevel (n : Nat) (s : State) : State := { s with power := { s.power with level := n } }

theorem changeLevel_eq : changeLevel s =
    enterLevel (shallowLevel s) (countEntry s.power.level (shallowLevel s)
      (rewriteEfftol (sleepersAt (shallowLevel s) s))) := rfl

theorem countEntry_leaves {o : Nat} : link (countEntry o n s) = link s ∧ port (countEntry o n s) = port s := by
  simp only [countEntry]
  split <;> exact ⟨rfl, rfl⟩

theorem rewriteEfftol_leaves : link (rewriteEfftol s) = link s ∧ port (rewriteEfftol s) = port s := ⟨rfl, rfl⟩

theorem enterLevel_leaves : link (enterLevel n s) = link s ∧ port (enterLevel n s) = port s ∧
    (enterLevel n s).power.level = n := ⟨rfl, rfl, rfl⟩

theorem link_changeLevel : link (changeLevel s) = link (sleepersAt (shallowLevel s) s) := by
  rw [changeLevel_eq, enterLevel_leaves.1, countEntry_leaves.1, rewriteEfftol_leaves.1]

theorem port_changeLevel : port (changeLevel s) = port (sleepersAt (shallowLevel s) s) := by
  rw [changeLevel_eq, enterLevel_leaves.2.1, countEntry_leaves.2, rewriteEfftol_leaves.2]

theorem shallowLevel_le : shallowLevel s ≤ 2 := by
  simp only [shallowLevel]
  (repeat' split) <;> omega

theorem counters_sleepersAt : (sleepersAt n s).counters = s.counters := by
  have deep : ∀ j (u : State), (goDeep j u).counters = u.counters := fun j u => by
    simp only [goDeep]
    split <;> rfl
  have ports : ∀ j (u : State), (beginPortWake j u).counters = u.counters := fun j u => by
    simp only [beginPortWake]
    split <;> rfl
  have ends : ∀ j (u : State), (endDeep j u).counters = u.counters := fun j u => by
    simp only [endDeep]
    split <;> rfl
  have wakes : ∀ j (u : State), (wakeLink j u).counters = u.counters := fun j u => by
    simp only [wakeLink]
    split <;> rfl
  simp only [sleepersAt, leaveLevel]
  (repeat' split) <;>
    simp only [each_keeps (g := State.counters) deep, each_keeps (g := State.counters) ports,
      each_keeps (g := State.counters) ends, each_keeps (g := State.counters) wakes]

theorem counted_changeLevel (h : s.power.level < shallowLevel s) :
    CountedBy 1 0x20 0 (44 + shallowLevel s) s (changeLevel s) := by
  have same : (rewriteEfftol (sleepersAt (shallowLevel s) s)).counters = s.counters := counters_sleepersAt
  have counted := countedBy_bumpDev (n := 44 + shallowLevel s) same
  rw [changeLevel_eq, countEntry, if_pos h]
  exact counted.of_counters rfl

theorem frameCounter_level (h : n ≤ 2) : frameCounter (ctrId 0x20 0 (44 + n)) = false := by
  interval_cases n <;> decide

theorem powerLevelChange_completes (hc : ckRuns s = true) (hl : shallowLevel s ≠ s.power.level) :
    ∃ t, exec .powerLevelChange s = .next t ∧
      SameBut [.status, .ports, .links, .counters, .power] s t ∧ t.power.level = shallowLevel s ∧
      (s.power.level < shallowLevel s → CountedBy 1 0x20 0 (44 + shallowLevel s) s t) ∧
      (∀ k : Link, (shallowLevel s = 2 → (link s k.val).asleep = true → (link t k.val).deep = true) ∧
        (shallowLevel s < 2 → (link t k.val).deep = false ∨ (link s k.val).deep = false) ∧
        (shallowLevel s = 0 → (link t k.val).asleep = false)) ∧
      ∀ p : Port, shallowLevel s < 2 → (port s p.val).lowPower = true → (port s p.val).sendAfter = 0 →
        (port t p.val).sendAfter = s.now + 6400 := by
  have meaning : exec .powerLevelChange s = .next (publish s (changeLevel s)) := act_on (by simp [levelMoves, hc, hl])
  have small : ∀ {n}, n < 2 → ∀ s : State, sleepersAt n s = leaveLevel n s := fun hn s => if_neg (by omega)
  refine ⟨_, meaning, exec_frame meaning, ?_, fun deeper => ?_, fun k => ⟨fun two sleeps => ?_, fun below => ?_,
    fun zero => ?_⟩, fun p below hl ha => ?_⟩
  · simp only [publish_fields, changeLevel_eq, enterLevel_leaves]
  · exact (counted_changeLevel deeper).publish (frameCounter_level shallowLevel_le)
  · simp only [publish_subs, link_changeLevel, sleepersAt, two, le_refl, ↓reduceIte]
    exact deep_each_goDeep k.isLt sleeps
  · simp only [publish_subs, link_changeLevel, small below]
    exact .inl (deep_leaveLevel k.isLt below)
  · simp only [publish_subs, link_changeLevel, zero, small Nat.two_pos]
    exact asleep_leaveLevel_zero k.isLt
  · simp only [port_publish, port_changeLevel, small below]
    exact sendAfter_leaveLevel p.isLt below hl ha

/-! ### EFFTOL (R311) -/

theorem efftolUpdate_completes (hc : ckRuns s = true) (hb : s.boot.cleared = true) (hd : s.power.efftolDue ≤ s.now) :
    ∃ t, exec .efftolUpdate s = .next t ∧ SameBut [.status, .power] s t ∧ t.power.efftolDue = s.now + 800 ∧
      t.station.effTol = effTolWord s := by
  have meaning : exec .efftolUpdate s = .next (publish s (updateEfftol s)) := act_on (by simp [efftolFalls, hc, hb, hd])
  have status : statusOf (publish s (updateEfftol s)).station = statusOf (updateEfftol s).station := published .status
  simp only [statusOf, Prod.mk.injEq] at status
  obtain ⟨-, -, -, -, -, -, word⟩ := status
  refine ⟨_, meaning, exec_frame meaning, ?_, word⟩
  simp only [publish_fields]
  rfl

/-- Settles O50: a change of level by the level it enters, and EFFTOL by E. -/
theorem levelsComplete : Obligations.LevelsComplete := by
  unfold Obligations.LevelsComplete
  exact fun s hc => ⟨powerLevelChange_completes hc, efftolUpdate_completes hc⟩

end Sys2Proof.Machine
end

section
/-!
SUPPORT. The keepalive of a link asleep in S3 (14 R316): its TIME block passes the timing lane's scrambler.
-/
namespace Sys2Proof.Machine

variable {s : State} {k : Nat}

/-- A device in S3 whose link 0 has slept for 10 ms. -/
def sleepingLink : State := { State.reset with
  now := 8000000
  supply := { Supply.init with inReset := false }
  power := { Power.init with level := 3 }
  links := [(0, { LinkSt.init with st := .active, asleep := true, deep := true })] }

/-- The block that a keepalive sends from S3 moves the scrambler of the timing lane. -/
theorem lanes_keepalive (h3 : s.power.level = 3) (ht : (lanesRec s k).timeBlocks = true) :
    (keepalive k s).lanes = mSet s.lanes (timingLane s k) { lane s (timingLane s k) with
      txHist := (scramble (lane s (timingLane s k)).txHist (timeBlock s k)).2 } := by
  simp only [keepalive, h3, ht, ↓reduceIte]
  rfl

theorem lanes_sleepingLink_kept : (keepalive 0 sleepingLink).lanes ≠ sleepingLink.lanes := by
  rw [lanes_keepalive rfl rfl]
  exact nofun

/-- Refutes O51: its frame leaves the lanes of a keepalive as they were, and in S3 the TIME block that is sent moves
the timing lane's scrambler. -/
theorem not_lightSleepCompletes : ¬ Obligations.LightSleepCompletes := by
  unfold Obligations.LightSleepCompletes
  intro h
  obtain ⟨-, -, keeps, -⟩ := h sleepingLink
  obtain ⟨t, meaning, same, -⟩ := keeps 0 (by decide) (by decide) (by decide)
  have sent : exec (.sleepKeepalive 0) sleepingLink = .next (publish sleepingLink (keepalive 0 sleepingLink)) :=
    act_on (by decide)
  rw [sent] at meaning
  obtain rfl := Host.Outcome.next.inj meaning
  have lanes : sleepingLink.lanes = (publish sleepingLink (keepalive 0 sleepingLink)).lanes := same .lanes (by decide)
  simp only [publish_fields] at lanes
  exact lanes_sleepingLink_kept lanes.symm

end Sys2Proof.Machine
end

section
/-!
SUPPORT. S3, S4 and Bittern (14 R315 to R321).
-/
namespace Sys2Proof.Machine

variable {s t u : State} {k n : Nat} {w : WakeCause} {e : Emission}

/-! ### S3 is entered (R315, R316) -/

/-- CK stops, S3 counted and shown. -/
def stopped (s : State) : State := { s with power := { s.power with level := 3, s3Since := s.now } }

theorem enterS3_eq : enterS3 s = stopped (bumpDev 47 (rewriteEfftol (each (List.range 32) goDeep s))) := rfl

theorem stopped_leaves : link (stopped s) = link s ∧ (stopped s).counters = s.counters ∧
    (stopped s).power.level = 3 ∧ (stopped s).power.s3Since = s.now := ⟨rfl, rfl, rfl, rfl⟩

theorem link_enterS3 : link (enterS3 s) = link (each (List.range 32) goDeep s) := by
  simp only [enterS3_eq, stopped_leaves, bumpDev_subs, rewriteEfftol_leaves]

theorem power_enterS3 : (enterS3 s).power.level = 3 ∧ (enterS3 s).power.s3Since = s.now := by
  have same : SameBut [.status, .links, .counters] s (bumpDev 47 (rewriteEfftol (each (List.range 32) goDeep s))) := by
    simp
  rw [enterS3_eq, same .now (by decide)]
  exact stopped_leaves.2.2

theorem counters_each_goDeep : (each (List.range 32) goDeep s).counters = s.counters := by
  refine each_keeps (g := State.counters) fun j u => ?_
  simp only [goDeep]
  split <;> rfl

theorem counters_rewriteEfftol : (rewriteEfftol s).counters = s.counters := rfl

theorem counted_enterS3 : CountedBy 1 0x20 0 47 s (enterS3 s) := by
  have same : (rewriteEfftol (each (List.range 32) goDeep s)).counters = s.counters :=
    counters_rewriteEfftol.trans counters_each_goDeep
  rw [enterS3_eq]
  exact (countedBy_bumpDev same).of_counters stopped_leaves.2.1

theorem s3Entry_completes (hc : ckRuns s = true) (hq : quietLong s = true) (ha : s3Allowed s = true) :
    ∃ t, exec .s3Entry s = .next t ∧ SameBut [.status, .links, .counters, .power] s t ∧ t.power.level = 3 ∧
      t.power.s3Since = s.now ∧ CountedBy 1 0x20 0 47 s t ∧
      ∀ k : Link, (link s k.val).asleep = true → (link t k.val).deep = true := by
  have meaning : exec .s3Entry s = .next (publish s (enterS3 s)) := act_on (by simp [mayStop, hc, hq, ha])
  refine ⟨_, meaning, exec_frame meaning, ?_, ?_, counted_enterS3.publish (by decide), fun k sleeps => ?_⟩
  · simp only [publish_fields, power_enterS3]
  · simp only [publish_fields, power_enterS3]
  · simp only [publish_subs, link_enterS3]
    exact deep_each_goDeep k.isLt sleeps

/-! ### S3 is left (R317) -/

/-- Time is back on CK, and no boundary of the sleep has been processed yet. -/
def arisen (s : State) : State := { s with power := { s.power with level := 0, quietSince := none, woken := false } }

theorem leaveS3_eq : leaveS3 s = leaveLevel 0 (rewriteEfftol (passBoundaries (arisen s))) := rfl

/-- One boundary of those passed in S3. -/
def passBoundary (s : State) : State := if boundaryDue s then settleWatchdog (boundary s) else s

theorem passBoundaries_eq : passBoundaries s =
    each (List.range ((s.heron.acc - s.heron.boundary) / max 1 s.heron.len + 1)) (fun _ => passBoundary) s := rfl

theorem passBoundary_none (h : boundaryDue s = false) : passBoundary s = s := by simp [passBoundary, h]

theorem passBoundaries_none (h : boundaryDue s = false) : passBoundaries s = s := by
  rw [passBoundaries_eq]
  refine each_invariant (P := fun u => u = s) (fun _ _ u same => ?_) rfl
  subst same
  exact passBoundary_none h

theorem cycle_settleWatchdog : (settleWatchdog s).heron.cycle = s.heron.cycle := cycle_of_offClock (by simp)

theorem cycle_passBoundary (h : boundaryDue s = true) : (passBoundary s).heron.cycle = s.heron.cycle + 1 := by
  rw [passBoundary, if_pos h, cycle_settleWatchdog, cycle_boundary]

theorem cycle_passBoundary_le : s.heron.cycle ≤ (passBoundary s).heron.cycle := by
  cases h : boundaryDue s with
  | true => rw [cycle_passBoundary h]; omega
  | false => rw [passBoundary_none h]

/-- A boundary that has been passed is processed (R317). -/
theorem cycle_passBoundaries (h : boundaryDue s = true) : s.heron.cycle < (passBoundaries s).heron.cycle := by
  rw [passBoundaries_eq]
  refine each_establishes
    (P := fun u => s.heron.cycle ≤ u.heron.cycle ∧ (u.heron.cycle = s.heron.cycle → boundaryDue u = true))
    (Q := fun u => s.heron.cycle < u.heron.cycle) (List.mem_range.2 (Nat.succ_pos _)) (fun _ u ⟨reached, due⟩ => ?_)
    (fun u ⟨reached, due⟩ => ?_) (fun _ u _ later => later.trans_le cycle_passBoundary_le) ⟨le_rfl, fun _ => h⟩
  · cases hu : boundaryDue u with
    | true =>
      rw [cycle_passBoundary hu]
      omega
    | false =>
      rw [passBoundary_none hu]
      exact ⟨reached, due⟩
  · cases hu : boundaryDue u with
    | true =>
      rw [cycle_passBoundary hu]
      omega
    | false =>
      have later : u.heron.cycle ≠ s.heron.cycle := fun same => by simp [due same] at hu
      rw [passBoundary_none hu]
      omega

theorem leaveS3_leaves : (leaveS3 s).power.level = 0 ∧
    (leaveS3 s).heron.cycle = (passBoundaries (arisen s)).heron.cycle := by
  have passed : SameBut (allBut .power) (arisen s) (passBoundaries (arisen s)) := by simp
  have left : SameBut [.status, .ports, .links] (passBoundaries (arisen s)) (leaveS3 s) := by simp [leaveS3_eq]
  refine ⟨?_, cycle_of_offClock (left.mono (by simp))⟩
  rw [← left .power (by decide), ← passed .power (by simp)]
  rfl

theorem asleep_leaveS3 (hk : k < 32) : (link (leaveS3 s) k).asleep = false := by
  rw [leaveS3_eq]
  exact asleep_leaveLevel_zero hk

/-- Where no boundary has been passed, leaving S3 changes the level, EFFTOL and the sleepers alone. -/
theorem sameBut_leaveS3 (h : boundaryDue s = false) : SameBut [.status, .links, .ports, .power] s (leaveS3 s) := by
  have none : passBoundaries (arisen s) = arisen s :=
    passBoundaries_none ((boundaryDue_of_offClock (s := s) (by simp [arisen])).trans h)
  rw [leaveS3_eq, none]
  simp [arisen]

theorem wakeEffect_leaves : SameBut [.counters] s (wakeEffect w s) := by simp

theorem counted_wakeEffect {p : Port} : CountedBy 1 0x24 (8 * p.val) 3 s (wakeEffect (.frame p) s) := countedBy_bump rfl

theorem frameCounter_wakingFrame : ∀ p : Port, frameCounter (ctrId 0x24 (8 * p.val) 3) = false := by decide

theorem s3Exit_completes (hr : running s = true) (hl : s.power.level = 3) (hw : wakeHolds s w = true) :
    ∃ t, exec (.s3Exit w) s = .next t ∧ t.power.level = 0 ∧
      (∀ k : Link, (link t k.val).asleep = false) ∧ (boundaryDue s = true → s.heron.cycle < t.heron.cycle) ∧
      (boundaryDue s = false → SameBut [.status, .links, .ports, .counters, .power] s t ∧
        t.heron.cycle = s.heron.cycle ∧ ∀ p : Port, w = .frame p → CountedBy 1 0x24 (8 * p.val) 3 s t) := by
  have meaning : exec (.s3Exit w) s = .next (publish s (leaveS3 (wakeEffect w s))) := by
    simp only [exec, execS3Exit]
    rw [act_on]
    simp [hr, hl, hw]
  have due : boundaryDue (wakeEffect w s) = boundaryDue s := boundaryDue_of_offClock (by simp)
  refine ⟨_, meaning, ?_, fun k => ?_, fun passed => ?_, fun none => ?_⟩
  · simp only [publish_fields, leaveS3_leaves]
  · simp only [publish_subs]
    exact asleep_leaveS3 k.isLt
  · have arises : boundaryDue (arisen (wakeEffect w s)) = true :=
      (boundaryDue_of_offClock (s := s) (by simp [arisen])).trans passed
    have cycle : (arisen (wakeEffect w s)).heron.cycle = s.heron.cycle := cycle_of_offClock (by simp [arisen])
    simp only [publish_fields, leaveS3_leaves, ← cycle]
    exact cycle_passBoundaries arises
  · have left := sameBut_leaveS3 (due.trans none)
    have all : SameBut [.status, .links, .ports, .counters, .power] s (publish s (leaveS3 (wakeEffect w s))) :=
      same_publish.2 ((wakeEffect_leaves.mono (by simp)).trans (left.mono (by simp)))
    refine ⟨all, cycle_of_offClock (all.mono (by simp)), ?_⟩
    rintro p rfl
    have own := frameCounter_wakingFrame p
    exact (counted_wakeEffect.of_sameBut left (by decide) own).publish own

/-! ### S4 (R318, R319) -/

/-- Bittern's domain alone is left. -/
def inS4 (b : Bittern) (s : State) : State := { s with power := { s.power with level := 4, bittern := some b } }

theorem inS4_leaves {b : Bittern} : (inS4 b s).power.level = 4 ∧ (inS4 b s).power.bittern = some b ∧
    (inS4 b s).supply = s.supply ∧ (inS4 b s).mem = s.mem ∧ (inS4 b s).tables = s.tables ∧
    (inS4 b s).commit = s.commit ∧ (inS4 b s).staged = s.staged ∧ (inS4 b s).faults = s.faults :=
  ⟨rfl, rfl, rfl, rfl, rfl, rfl, rfl, rfl⟩

theorem fullReset_leaves : (fullReset s).supply.inReset = true ∧ (fullReset s).mem = [] ∧
    (fullReset s).tables = State.reset.tables ∧ (fullReset s).commit = none ∧ (fullReset s).staged = none ∧
    (fullReset s).faults = State.reset.faults := by
  rw [fullReset_eq]
  exact ⟨rfl, rfl, rfl, rfl, rfl, rfl⟩

/-- What is sent before the rails go off. -/
def lastSent (b : Bittern) (s : State) : State := bitternSends b.port (lowerPins (bumpDev 48 s))

theorem now_lastSent {b : Bittern} : (lastSent b s).now = s.now := by
  have same : SameBut [.counters] s (lastSent b s) := by simp [lastSent]
  exact (same .now (by decide)).symm

/-- The outputs that the internal reset drives low (02 R23). -/
theorem mem_out_fullReset (h : e ∈ [.level s.now .ppsOut 0, .level s.now (.evtOut 0) 0, .level s.now (.evtOut 1) 0]) :
    e ∈ (fullReset s).out := by
  have driven : ∀ ck p v (u : State), e ∈ u.out → e ∈ (driveQ ck p v u).out := fun ck p v u hu => by
    simp only [driveQ]
    split <;> simp [hu]
  have out : (fullReset s).out = (resetPins s).out := by rw [fullReset_eq]
  rw [out, resetPins]
  refine mem_out_each (fun _ _ hu => by simp [hu]) (mem_out_each (fun _ _ hu => driven _ _ _ _ hu) (driven _ _ _ _ ?_))
  simp only [List.mem_cons, List.not_mem_nil, or_false] at h
  rcases h with rfl | rfl | rfl <;> simp [each]

theorem exec_s4Entry {v : Bool} {r : PowerRec} (hr : running s = true) (ht : s.tables.power = some r)
    (ha : s4Allowed s v = true) : exec (.s4Entry v) s =
      .next (publish s (inS4 (latchBittern s r) (fullReset (lastSent (latchBittern s r) s)))) := by
  simp only [exec, execS4Entry]
  rw [act_on (by simp [hr, ha])]
  simp only [ht]
  rfl

theorem s4Entry_completes {v : Bool} {r : PowerRec} (hr : running s = true) (ht : s.tables.power = some r)
    (ha : s4Allowed s v = true) :
    ∃ t, exec (.s4Entry v) s = .next t ∧ t.power.level = 4 ∧ t.supply.inReset = true ∧
      t.power.bittern = some { record := r, address := deviceAddr s, mgmtAddress := mgmtAddr s,
                               port := s.straps.bitternPort.toNat, faultN := faultLow s, woken := false } ∧
      t.mem = [] ∧ t.tables = State.reset.tables ∧ t.commit = none ∧ t.staged = none ∧ t.faults = State.reset.faults ∧
      .level s.now .ppsOut 0 ∈ t.out ∧ .level s.now (.evtOut 0) 0 ∈ t.out ∧ .level s.now (.evtOut 1) 0 ∈ t.out := by
  have lowered : ∀ e ∈ [Emission.level s.now .ppsOut 0, .level s.now (.evtOut 0) 0, .level s.now (.evtOut 1) 0],
      e ∈ (publish s (inS4 (latchBittern s r) (fullReset (lastSent (latchBittern s r) s)))).out := fun e he => by
    rw [← now_lastSent (b := latchBittern s r)] at he
    exact mem_out_publish (t := inS4 _ _) (mem_out_fullReset he)
  refine ⟨_, exec_s4Entry hr ht ha, ?_⟩
  simp only [publish_fields, inS4_leaves, fullReset_leaves]
  exact ⟨trivial, trivial, rfl, trivial, trivial, trivial, trivial, trivial,
    lowered _ (.head _), lowered _ (.tail _ (.head _)), lowered _ (.tail _ (.tail _ (.head _)))⟩

/-! ### Bittern wakes (R320, R321) -/

theorem wakes_bittern {x : Bittern} {c : Instr} (hx : s.power.bittern = some x)
    (hc : (∃ b, c = .bitternFrame b ∧ frameWakes x b = true) ∨
      (∃ u, c = .bitternLinkChange u ∧ x.record.wakeLink = true) ∨ (c = .wakeN ∧ x.record.wakePin = true)) :
    exec c s = .next (publish s (wakeBittern s)) := by
  rcases hc with ⟨b, rfl, hb⟩ | ⟨u, rfl, hu⟩ | ⟨rfl, hp⟩
  · exact act_on (by simpa only [bitternHas, hx] using hb)
  · exact act_on (by simpa only [bitternHas, hx] using hu)
  · exact act_on (by simpa only [bitternHas, hx] using hp)

theorem sameBut_wakeBittern : SameBut [.power] s (publish s (wakeBittern s)) := by
  rw [same_publish, wakeBittern]
  split <;> simp

theorem bittern_wakeBittern {x : Bittern} (hx : s.power.bittern = some x) :
    (wakeBittern s).power.bittern = some { x with woken := true } := by
  simp only [wakeBittern, hx]

/-- Bittern's domain is no longer alone. -/
def backFromS4 (s : State) : State := { s with power := { s.power with level := 0, bittern := none } }

theorem s4Exit_completes {x : Bittern} (hx : s.power.bittern = some x) (hw : x.woken = true) :
    ∃ t, exec .s4Exit s = .next t ∧ SameBut [.power] s t ∧ t.power.level = 0 ∧ t.power.bittern = none := by
  have meaning : exec .s4Exit s = .next (publish s (backFromS4 s)) := by
    simp only [exec, execS4Exit]
    rw [act_on (by simpa only [bitternHas, hx] using hw)]
    rfl
  refine ⟨_, meaning, exec_frame meaning, ?_, ?_⟩
  · simp only [publish_fields]
    rfl
  · simp only [publish_fields]
    rfl

/-- Settles O52: S3 by its entry and its exit, S4 by its entry, and Bittern by what wakes it. -/
theorem deepSleepsComplete : Obligations.DeepSleepsComplete := by
  unfold Obligations.DeepSleepsComplete
  intro s
  refine ⟨s3Entry_completes, fun w => s3Exit_completes, fun v r => s4Entry_completes, fun x c hx hc => ?_,
    fun x => s4Exit_completes⟩
  refine ⟨_, wakes_bittern hx hc, sameBut_wakeBittern, ?_⟩
  simp only [publish_fields]
  exact bittern_wakeBittern hx

end Sys2Proof.Machine
end

section
/-!
SUPPORT. The scrubber (15 R327 to R329): the word that it reads, and what it finds in it.
-/
namespace Sys2Proof.Machine

variable {s t u v : State} {m : MemoryId} {w n : Nat} {l : List Part} {us : List Upset}

/-! ### The words in turn (R327) -/

/-- The read of a memory's next word is done, and the one after it is due 16 ck later. -/
def scheduled (m : MemoryId) (w : Nat) (s : State) : State :=
  { s with scrubs := mSet s.scrubs (memCode m) { next := (w + 1) % m.words, due := s.now + 16 } }

theorem scrubNext_eq : scrubNext m s =
    scheduled m (scrub s (memCode m)).next (judgeWord m (scrub s (memCode m)).next s) := rfl

theorem scrub_scheduled : scrub (scheduled m w s) (memCode m) = { next := (w + 1) % m.words, due := s.now + 16 } := by
  simp [scrub, scheduled, mGetD, mFind_mSet]

theorem scheduled_leaves : (scheduled m w s).counters = s.counters ∧ readByte (scheduled m w s) = readByte s ∧
    (scheduled m w s).station = s.station ∧ (scheduled m w s).faults = s.faults := ⟨rfl, rfl, rfl, rfl⟩

theorem now_judgeWord : (judgeWord m w s).now = s.now :=
  ((by simp : SameBut (allBut .now) s (judgeWord m w s)) .now (by simp)).symm

/-- The upsets that have struck change no more than the bits that they flip. -/
theorem sameBut_struck : SameBut [.upsets] s (each us addUpset s) := by simp

theorem exec_scrubRead (hc : ckRuns s = true) (hp : s.boot.pllLocked = true) (hd : (scrub s (memCode m)).due ≤ s.now) :
    exec (.scrubRead m us) s = .next (publish s (scrubNext m (each us addUpset s))) := by
  simp only [exec, execScrubRead]
  rw [act_on (by simp [hc, hp, hd])]

/-! ### What a read finds in a word (R328, R329) -/

theorem correctWord_sound (h : (flips s m 0 w).length = 0) : correctWord m 0 w s = s := by
  simp [correctWord, correctable, h]

theorem correctWord_one (h : (flips s m 0 w).length = 1) :
    correctWord m 0 w s = noteCorrected (clearUpset m 0 w s) := by simp [correctWord, correctable, h]

/-- The memories whose words lie where Config says, and the image. -/
def worded (m : MemoryId) : Prop := m ∈ [.packetBuffer, .lanePool, .replayStore, .processImage]

/-- A word that can be corrected is corrected alike in each memory. -/
theorem judgeWord_correctable (hm : worded m) (h : (flips s m 0 w).length ≤ 1) :
    judgeWord m w s = correctWord m 0 w s := by
  have sound : uncorrectable (flips s m 0 w) = false := decide_eq_false (by omega)
  simp only [worded, List.mem_cons, List.not_mem_nil, or_false] at hm
  rcases hm with rfl | rfl | rfl | rfl <;> simp [judgeWord, judgeImage, sound]

theorem flips_clearUpset_self : flips (clearUpset m 0 w s) m 0 w = [] := by simp [flips_clearUpset]

/-- A word has been contained: it holds no error any more, and one fault more waits for its entry. -/
def Contained (m : MemoryId) (w : Nat) (s t : State) : Prop :=
  flips t m 0 w = [] ∧ s.faults.waiting.length < t.faults.waiting.length

theorem contained_of_sameBut (h : SameBut l (clearUpset m 0 w u) t) (hl : .upsets ∉ l ∧ .faults ∉ l)
    (hu : s.faults.waiting.length < u.faults.waiting.length) : Contained m w s t := by
  obtain ⟨upsets, faults⟩ := hl
  have kept : (clearUpset m 0 w u).faults = t.faults := h .faults faults
  refine ⟨?_, ?_⟩
  · rw [flips_of_sameBut h upsets]
    exact flips_clearUpset_self
  · rw [← kept]
    exact hu

theorem waits_logFault {c j d : Nat} : s.faults.waiting.length < (logFault c j d s).faults.waiting.length := by
  simp [logFault]

theorem contained_bufferLost : Contained .packetBuffer w s (bufferLost w s) :=
  contained_of_sameBut (u := logFault 0x20 0 (8 * w) s) (l := [.streams, .ports, .queues, .rxCells, .listeners, .vcs, .mgmtRx])
    (by simp [bufferLost]) (by decide) waits_logFault

theorem contained_poolLost : Contained .lanePool w s (poolLost w s) :=
  contained_of_sameBut (u := logFault 0x21 0 (8 * w) s) (l := [.streams, .vcs]) (by simp [poolLost]) (by decide) waits_logFault

theorem contained_storeLost : Contained .replayStore w s (storeLost w s) :=
  contained_of_sameBut (u := logFault 0x22 0 (8 * w) s) (l := [.links]) (by simp [storeLost]) (by decide) waits_logFault

/-! ### The image (R329) -/

/-- The image after an uncorrectable word has been logged and rewritten as zero. -/
def imageLost (w : Nat) (s : State) : State := setSram w 0 (clearUpset .processImage 0 w (noteImageError w s))

theorem judgeImage_uncorrectable (h : 2 ≤ (flips s .processImage 0 w).length) : judgeImage w s = imageLost w s := by
  have bad : uncorrectable (flips s .processImage 0 w) = true := decide_eq_true h
  simp only [judgeImage, bad, ↓reduceIte, imageLost]

theorem contained_imageLost : Contained .processImage w s (imageLost w s) :=
  contained_of_sameBut (u := noteImageError w s) (l := [.mem, .hostWords]) (by simp [imageLost]) (by decide)
    (waits_logFault (c := 0x23) (j := 0) (d := 4 * w))

theorem counted_imageLost : CountedBy 1 0x20 0 24 s (imageLost w s) := by
  have counted : CountedBy 1 0x20 0 24 s (clearUpset .processImage 0 w (noteImageError w s)) :=
    (countedBy_bumpDev (s := s) (t := logFault 0x23 0 (4 * w) s) rfl).of_counters rfl
  exact counted.of_sameBut (l := [.mem, .hostWords]) (by simp [imageLost]) (by decide) (by decide)

theorem readWord_writeWord_zero : readWord (writeWord w 0 15 s) w = 0 := by
  have zero : ∀ i < 4, readByte (writeWord w 0 15 s) (4 * w + i) = 0 := fun i hi => by
    rw [readByte_writeWord_on hi (enables_all hi)]
    simp [byteOf]
  rw [readWord, List.map_congr_left fun i hi => zero i (List.mem_range.1 hi)]
  rfl

theorem readWord_imageLost (h : w < 0xFFC0) : readWord (imageLost w s) w = 0 := by
  rw [imageLost, setSram, if_neg (by omega)]
  exact readWord_writeWord_zero

theorem hostField_imageLost (hn : n ∈ hostNumbers) : hostField n (imageLost (0xFFC0 + n) s).station = 0 := by
  rw [imageLost, setSram, if_pos (by omega), Nat.add_sub_cancel_left]
  exact hostField_setHostWord hn

/-- A host-owned word that holds zero reads as zero, before the clear and after it. -/
theorem stationWord_of_hostField (hn : n ∈ hostNumbers) (h : hostField n s.station = 0) : stationWord s n = 0 := by
  cases hc : s.boot.cleared with
  | true => rw [stationWord_host hn hc, h]
  | false => simp [stationWord, hc]

/-- An uncorrectable word of each memory is contained. -/
theorem contained_judgeWord (hm : worded m) (h : 2 ≤ (flips s m 0 w).length) : Contained m w s (judgeWord m w s) := by
  have bad : uncorrectable (flips s m 0 w) = true := decide_eq_true h
  simp only [worded, List.mem_cons, List.not_mem_nil, or_false] at hm
  rcases hm with rfl | rfl | rfl | rfl
  · simp only [judgeWord, bad, ↓reduceIte]
    exact contained_bufferLost
  · simp only [judgeWord, bad, ↓reduceIte]
    exact contained_poolLost
  · simp only [judgeWord, bad, ↓reduceIte]
    exact contained_storeLost
  · simp only [judgeWord, judgeImage_uncorrectable h]
    exact contained_imageLost

/-! ### A scrub read -/

theorem flips_judgeWord (hm : worded m) : flips (judgeWord m w s) m 0 w = [] := by
  rcases Nat.lt_or_ge (flips s m 0 w).length 2 with few | many
  · rw [judgeWord_correctable hm (by omega)]
    rcases Nat.lt_or_ge (flips s m 0 w).length 1 with none | one
    · rw [correctWord_sound (by omega)]
      exact List.length_eq_zero_iff.1 (by omega)
    · rw [correctWord_one (by omega)]
      exact flips_clearUpset_self
  · exact (contained_judgeWord hm many).1

theorem scrubRead_image (hv : SameBut [.upsets] s v) (h : 2 ≤ (flips v .processImage 0 w).length)
    (ht : t = publish s (scheduled .processImage w (judgeWord .processImage w v))) :
    CountedBy 1 0x20 0 24 s t ∧ (w < 0xFFC0 → readWord t w = 0) ∧
      ∀ n ∈ [19, 20, 21, 22, 62, 63], w = 0xFFC0 + n → stationWord t n = 0 := by
  have found : judgeWord .processImage w v = imageLost w v := judgeImage_uncorrectable h
  rw [found] at ht
  subst ht
  have counters : readCtr v 0x20 0 24 = readCtr s 0x20 0 24 := (hv .counters (by decide) _ (by decide)).symm
  have counted : CountedBy 1 0x20 0 24 s (imageLost w v) := by
    rw [CountedBy, ← counters]
    exact counted_imageLost
  have read : CountedBy 1 0x20 0 24 s (scheduled .processImage w (imageLost w v)) :=
    counted.of_counters scheduled_leaves.1
  refine ⟨read.publish (by decide), fun below => ?_, ?_⟩
  · have image : readWord (publish s (scheduled .processImage w (imageLost w v))) w = readWord (imageLost w v) w := by
      simp only [readWord, publish_subs, scheduled_leaves]
    rw [image]
    exact readWord_imageLost below
  · rintro n hn rfl
    refine stationWord_of_hostField hn ?_
    rw [hostField_publish hn, scheduled_leaves.2.2.1]
    exact hostField_imageLost hn

/-- Settles O54: the word that a read takes by its turn, and what it finds there by the bits that differ. -/
theorem scrubbingCompletes : Obligations.ScrubbingCompletes := by
  unfold Obligations.ScrubbingCompletes
  rintro s v m us w hc hp hd rfl rfl
  have struck : SameBut [.upsets] s (each us addUpset s) := sameBut_struck
  have faults : s.faults = (each us addUpset s).faults := struck .faults (by decide)
  have now : s.now = (each us addUpset s).now := struck .now (by decide)
  have scrubs : scrub (each us addUpset s) = scrub s := by
    have same : s.scrubs = (each us addUpset s).scrubs := struck .scrubs (by decide)
    funext k
    simp only [scrub, same]
  have meaning := exec_scrubRead (us := us) hc hp hd
  rw [scrubNext_eq, scrubs] at meaning
  generalize each us addUpset s = v at *
  refine ⟨_, meaning, ?_, fun hm => ⟨?_, fun none => ?_, fun one => ?_, fun many => ⟨?_, ?_⟩⟩⟩
  · rw [scrub_publish, scrub_scheduled, now_judgeWord, now]
  · rw [flips_publish]
    exact flips_judgeWord hm
  · simp only [publish_fields, scheduled_leaves]
    rw [judgeWord_correctable hm (by omega), correctWord_sound none, faults]
  · simp only [publish_fields, scheduled_leaves]
    rw [judgeWord_correctable hm (by omega), correctWord_one one, faults]
    rfl
  · have contained := (contained_judgeWord hm many).2
    simp only [publish_fields, scheduled_leaves]
    rw [faults]
    exact contained
  · rintro rfl
    exact scrubRead_image struck many rfl

end Sys2Proof.Machine
end

section
/-!
SUPPORT. FREEZE_N and the readout port (17 R345, R347, R349).
-/
namespace Sys2Proof.Machine

variable {s t : State} {a b n : Nat} {v : Nat} {ps : Fin 1250}

/-! ### The freeze latch (R345, R347) -/

theorem exec_freezeN (hr : running s = true) (hn : 10 ≤ n) :
    exec (.freezeN n ps) s = .next (publish s (freezeEdge ps.val s)) := by
  simp only [exec, execFreezeN, act, hr, hn, ↓reduceIte]

/-- An edge that the ladder measurement's end will judge. -/
theorem freezeEdge_held (hd : s.ladder.done = false) (hh : s.freeze.held = false) :
    (freezeEdge ps.val s).freeze.held = true ∧ (freezeEdge ps.val s).freeze.latched = s.freeze.latched := by
  simp [freezeEdge, hd, hh]

theorem freezeEdge_armed (hd : s.ladder.done = true) (ha : s.straps.freezeArm = true) :
    freezeEdge ps.val s = latchFreeze false (freezeStamps ps.val s).1 (freezeStamps ps.val s).2 s := by
  simp [freezeEdge, hd, ha]

theorem freezeEdge_ignored (hd : s.ladder.done = true) (ha : s.straps.freezeArm = false) :
    freezeEdge ps.val s = bumpDev 42 s := by
  simp [freezeEdge, hd, ha]

theorem freeze_driveQ {ck : Nat} {p : Pin} : (driveQ ck p v s).freeze = s.freeze := by
  simp only [driveQ]
  split <;> rfl

theorem latchFreeze_latches {held : Bool} : (latchFreeze held a b s).freeze.latched = true ∧
    (latchFreeze held a b s).freeze.stampLocal = a ∧ (latchFreeze held a b s).freeze.stampWorking = b := by
  simp only [latchFreeze, freeze_driveQ]
  exact ⟨trivial, trivial, trivial⟩

/-- QS stops within 120 ns, QCS_N high and MDC low where their bank is powered (R347). -/
theorem mem_out_latchFreeze {held : Bool} (h : s.supply.bankQ.unpowered = false) :
    .level (s.now + 96) .qcsN 1 ∈ (latchFreeze held a b s).out ∧
      .level (s.now + 96) .mdc 0 ∈ (latchFreeze held a b s).out := by
  simp [latchFreeze, driveQ, h, drawFree, emit]

theorem freezeN_completes (hr : running s = true) (hn : 10 ≤ n) :
    ∃ t, exec (.freezeN n ps) s = .next t ∧ SameBut [.freeze, .counters] s t ∧
      (s.ladder.done = false → s.freeze.held = false → t.freeze.held = true ∧ t.freeze.latched = s.freeze.latched) ∧
      (s.ladder.done = true → s.straps.freezeArm = true → t.freeze.latched = true ∧
        (t.freeze.stampLocal, t.freeze.stampWorking) = freezeStamps ps.val s ∧
        (s.supply.bankQ.unpowered = false →
          .level (s.now + 96) .qcsN 1 ∈ t.out ∧ .level (s.now + 96) .mdc 0 ∈ t.out)) ∧
      (s.ladder.done = true → s.straps.freezeArm = false → t.freeze = s.freeze ∧ CountedBy 1 0x20 0 42 s t) := by
  have meaning := exec_freezeN (ps := ps) hr hn
  refine ⟨_, meaning, (exec_frame meaning).mono (by simp [writes]), fun hd hh => ?_, fun hd ha => ?_, fun hd ha => ?_⟩
  · simp only [publish_fields]
    exact freezeEdge_held hd hh
  · rw [freezeEdge_armed hd ha]
    simp only [publish_fields, latchFreeze_latches]
    refine ⟨trivial, trivial, fun powered => ?_⟩
    obtain ⟨select, clock⟩ := mem_out_latchFreeze (held := false) (a := (freezeStamps ps.val s).1)
      (b := (freezeStamps ps.val s).2) powered
    exact ⟨mem_out_publish select, mem_out_publish clock⟩
  · rw [freezeEdge_ignored hd ha]
    refine ⟨?_, (countedBy_bumpDev rfl).publish (by decide)⟩
    simp only [publish_fields]
    rfl

/-! ### The readout (R349) -/

/-- The readout port at another position, and whether it runs. -/
def readoutAt (n : Nat) (s : State) : State := { s with readout := { s.readout with pos := n } }
def readoutStarted (m : Bool) (s : State) : State :=
  { s with readout := { s.readout with running := true, memsel := m, pos := 0 } }
def readoutEnded (s : State) : State := { s with readout := { s.readout with running := false } }

theorem setTsDo_leaves : (setTsDo v s).readout = { s.readout with tsDo := v } := by
  simp only [setTsDo]
  split
  next same => rw [← same]
  next => rfl

theorem streamNibble_of_byte {b : Byte} (h : (readoutStream s)[n / 2]? = some b) :
    streamNibble s n = if n % 2 = 0 then b.toNat % 16 else b.toNat / 16 := by
  simp only [streamNibble, List.getD_eq_getElem?_getD, h, Option.getD_some]

/-- TS_DO is low after the last byte. -/
theorem streamNibble_after (h : (readoutStream s).length ≤ n / 2) : streamNibble s n = 0 := by
  have none : (readoutStream s)[n / 2]? = none := List.getElem?_eq_none h
  simp [streamNibble, List.getD_eq_getElem?_getD, none]

theorem readoutStart_completes {m : Bool} (hf : frozen s = true) (hr : s.readout.running = false) :
    ∃ t, exec (.readoutStart m) s = .next t ∧ SameBut [.readout] s t ∧
      t.readout = { s.readout with running := true, memsel := m, pos := 0 } := by
  have meaning : exec (.readoutStart m) s = .next (publish s (readoutStarted m s)) := by
    simp only [exec, execReadoutStart, act, hf, hr, Bool.not_false, Bool.and_self, ↓reduceIte]
    rfl
  refine ⟨_, meaning, exec_frame meaning, ?_⟩
  simp only [publish_fields]
  rfl

section
variable (hf : frozen s = true) (hr : s.readout.running = true)
include hf hr

theorem exec_readoutNibble : exec .readoutNibble s =
    .next (publish s (readoutAt (s.readout.pos + 1) (setTsDo (streamNibble s s.readout.pos) s))) := by
  have pos : (setTsDo (streamNibble s s.readout.pos) s).readout.pos = s.readout.pos := by rw [setTsDo_leaves]
  simp only [exec, execReadoutNibble, act, hf, hr, Bool.and_self, ↓reduceIte, readoutAt, pos]

theorem readoutNibble_completes : ∃ t, exec .readoutNibble s = .next t ∧ SameBut [.readout] s t ∧
    t.readout.pos = s.readout.pos + 1 ∧ t.readout.running = true ∧
    (∀ b, (readoutStream s)[s.readout.pos / 2]? = some b →
      t.readout.tsDo = if s.readout.pos % 2 = 0 then b.toNat % 16 else b.toNat / 16) ∧
    ((readoutStream s).length ≤ s.readout.pos / 2 → t.readout.tsDo = 0) := by
  have meaning := exec_readoutNibble hf hr
  refine ⟨_, meaning, exec_frame meaning, ?_⟩
  simp only [publish_fields, readoutAt, setTsDo_leaves]
  exact ⟨trivial, hr, fun b => streamNibble_of_byte, streamNibble_after⟩

theorem readoutEnd_completes : ∃ t, exec .readoutEnd s = .next t ∧ SameBut [.readout] s t ∧
    t.readout.running = false ∧ t.readout.tsDo = 0 := by
  have meaning : exec .readoutEnd s = .next (publish s (setTsDo 0 (readoutEnded s))) := by
    simp only [exec, execReadoutEnd, act, hf, hr, Bool.and_self, ↓reduceIte]
    rfl
  refine ⟨_, meaning, exec_frame meaning, ?_⟩
  simp only [publish_fields, setTsDo_leaves]
  exact ⟨rfl, trivial⟩

end

/-- Settles O53: an edge by the ladder and FREEZE_ARM, and each command of the readout. -/
theorem freezeAndReadoutComplete : Obligations.FreezeAndReadoutComplete := by
  unfold Obligations.FreezeAndReadoutComplete
  exact fun s => ⟨fun n ps => freezeN_completes, fun m => readoutStart_completes, readoutNibble_completes,
    readoutEnd_completes⟩

end Sys2Proof.Machine
end
